-- ==== Sys2Proof/Word.lean ====
section
/-! DEFINITION. The word types of the block: bytes, 32-bit register words, and their plainest arithmetic. -/

namespace Sys2Proof

/-- One byte of memory (R6: byte 0 holds bits [7:0]). -/
abbrev Byte := BitVec 8

/-- One 32-bit register word (R358: registers are accessed as aligned 32-bit words). -/
abbrev Word := BitVec 32

/-- A saturating 32-bit counter's step by `n` (the counters of R105, R128, R168, R214, R249, R279, R299). -/
def Word.satAdd (w : Word) (n : Nat) : Word :=
  if w.toNat + n < 4294967296 then BitVec.ofNat 32 (w.toNat + n) else BitVec.allOnes 32

/-- A saturating 16-bit counter's step by `n`. -/
def sat16 (w : BitVec 16) (n : Nat) : BitVec 16 :=
  if w.toNat + n < 65536 then BitVec.ofNat 16 (w.toNat + n) else BitVec.allOnes 16

end Sys2Proof
end

