-- ==== Sys2Proof/Syntax.lean ====
section
/-! DEFINITION. The commands of the block: `Instr`, one constructor per row of spec/opcode_table.json, with the operands
that come from outside (registers written, bytes a DMA returns, frames received, readings, verdicts of signature checks). -/

namespace Sys2Proof

/-- Straps sampled on J4 (R409). `true` is an open (high) strap. -/
structure Straps where
  hostSel : Bool
  smbAddr : BitVec 2
  deriving DecidableEq, Repr

/-- A function that can be disabled (R52, R302, R299). -/
inductive FuncId where
  | queue (k : Fin 8) (q : Fin 4)
  | suite (k : Fin 8)
  | panel (d : Fin 8) (p : Fin 104)
  | skim (d : Fin 8)
  | update (d : Fin 8) (s : Fin 12)
  | mask (d : Fin 8)
  | port (d : Fin 8) (q : Fin 2)
  deriving DecidableEq, Repr

/-- A register block with RWB registers, whose boundary applies them (R362). -/
inductive RwbBlock where
  | trw (d : Fin 8)
  | stk (d : Fin 8) (s : Fin 12)
  | d2d (d : Fin 8) (e : Fin 3)
  | scr (d : Fin 8) (q : Fin 2)
  deriving DecidableEq, Repr

/-- Where the coordinator takes a task descriptor from (R28, R34): a submission queue, by DMA, or the running program. -/
inductive FetchSource where
  | queue (q : Fin 4) (bytes : List Byte)
  | program
  deriving DecidableEq, Repr

/-- The operation that issued a failed DMA read (R357). -/
inductive DmaOp where
  | task (k : Fin 8) (h : Nat)
  | mailbox
  | fetch (k : Fin 8) (q : Fin 4)
  deriving DecidableEq, Repr

/-- A firmware image as the flash holds it: the header of R336 and the verdicts of its cryptographic checks under R337
(`vendorOk` VENDOR_SIG, `ownerOk` OWNER_SIG, `tagOk` GCM tag, `digestOk` PLAIN_DIGEST); the primitives are standards, log 7. -/
structure FwImage where
  magic : Nat
  cls : Nat
  ownerSigned : Bool
  iface : Nat
  version : Nat
  secver : Nat
  schema : Nat
  window : List (Nat × Nat)
  primerWin : Nat × Nat
  digest : List Byte
  reservedZero : Bool
  vendorOk : Bool
  ownerOk : Bool
  tagOk : Bool
  digestOk : Bool
  deriving DecidableEq, Repr

/-- POLICY section: allow bits and limits (R334, R335). -/
structure Policy where
  allow : BitVec 6
  scaleMax : Int
  promoteMax : Nat
  widenMax : Nat
  rebalClamp : Nat
  rebalMinSteps : Nat
  pcPoison : Nat
  edgeRetry : Nat
  roLimit : Nat
  reservedZero : Bool
  deriving DecidableEq, Repr

/-- TOPOLOGY section (R334): torus sizes, module coordinate, time root, dimension 0 first. -/
structure Topology where
  sizes : List Nat
  coord : List Nat
  root : List Nat
  deriving DecidableEq, Repr

/-- POWER section (R334). -/
structure PowerSection where
  cap : Nat
  weights : List Nat
  tclkMHz : Nat
  deriving DecidableEq, Repr

/-- A primer image (R332): header fields, the verdicts of its digest and signature, and its sections (R334);
`none` for an absent section, `sectionsOk` false when a section is unknown, repeated or malformed. -/
structure Primer where
  magic : Nat
  schema : Nat
  secver : Nat
  length : Nat
  ownerDigest : List Byte
  bodyOk : Bool
  sigOk : Bool
  sectionsOk : Bool
  layout : Option (List Nat)
  ledEn : Bool
  topology : Option Topology
  power : Option PowerSection
  policy : Option Policy
  ownerCosign : Bool
  hitlessEn : Bool
  scheduledEn : Bool
  digest : List Byte
  deriving DecidableEq, Repr

/-- An enrolment or transfer record (R333): the new owner digest, the device key it names, and its signatures' verdicts. -/
structure OwnerRecord where
  transfer : Bool
  newOwner : List Byte
  devKey : List Word
  vendorOk : Bool
  currentOwnerOk : Bool
  deriving DecidableEq, Repr

/-- A frame header cell (R220). Coordinates list dimension 0 first; `arg` is the ARG field, eight bytes. -/
structure Frame where
  type : BitVec 8
  vc : BitVec 8
  cells : Nat
  flags : BitVec 8
  dstCoord : List Nat
  dstDie : Nat
  dstSuite : Nat
  srcDie : Nat
  srcSuite : Nat
  srcCoord : List Nat
  hops : Nat
  suiteDies : BitVec 8
  keyEpoch : Nat
  frameCtr : BitVec 64
  arg : List Byte
  tagOk : Bool
  deriving DecidableEq, Repr

/-- A received HELLO's identity (R220, R225): the neighbour's coordinate, port, good pairs, torus sizes and its link IFACE. -/
structure HelloCell where
  coord : List Nat
  port : Nat
  pairs : BitVec 10
  sizes : List Nat
  iface : Nat
  deriving DecidableEq, Repr

/-- What an EXCH_CTRL frame delivers (R238, R242, R243, R245). -/
inductive ExchCtrl where
  | ack (stage step chunk : Nat)
  | barrier (id : Nat) (arrivals : Nat)
  | extremes (h : Nat) (tile : Nat) (bmax bmin : Int)
  | norm (sum : Nat) (sat : Bool)
  deriving DecidableEq, Repr

/-- A PAIR_KEY message (R222) with the verdicts of R307: the digest of the carried device key, and the signature check. -/
structure PairKeyMsg where
  srcCoord : List Nat
  srcSuite : Nat
  dstSuite : Nat
  keyEpoch : Nat
  answer : Bool
  keyDigest : List Byte
  sigOk : Bool
  enc : Bool
  cells : Nat
  dstDie : Nat
  reserved : Bool
  deriving DecidableEq, Repr

/-- A TSYNC cell (R220, R247): its time stamps in 1/8 TCLK, whether a reserved bit is set, and what its sender tells of itself (R246): its depth
where it is LOCKED. -/
structure TsyncCell where
  reply : Bool
  t1 : Nat
  t2 : Nat
  t3 : Nat
  depth : Option Nat
  reserved : Bool
  deriving DecidableEq, Repr

/-- A binding-set or peer-table record for PROVISION (R306, R313), with the verdict of the owner signature. -/
inductive ProvisionRecord where
  | bindingSet (keys : List (List Byte))
  | peerTable (entries : List (List Nat × Nat × List Byte))
  deriving DecidableEq, Repr

/-- A binding package for UNWRAP (R313 to R315): set digest, the recipients' device key digests, verdicts, descriptor image, PAYLOAD_DIGEST,
and the plaintext image. -/
structure BindingPackage where
  magicOk : Bool
  setDigest : List Byte
  recipients : List (List Byte)
  keyUnwrapOk : Bool
  descImage : List Byte
  chunk : Nat
  badChunk : Option Nat
  digest : List Byte
  sizes : List Nat
  image : List Byte
  deriving DecidableEq, Repr

/-- Readings of one power measurement (R402): `moduleDraw` is the draw of the whole module, `shared` the part assigned to the module itself
(management, dies in no suite, pass-through Scrim traffic), `dieDraw` that of each die with its stacks, less that part. -/
structure PowerReading where
  vin : Nat
  iin : Nat
  moduleDraw : Nat
  dieDraw : List Nat
  shared : Nat
  deriving DecidableEq, Repr

/-- One hourly sample of the ageing monitors (R391, R392): per panel frequency, and the fitted crossing days. -/
structure AgeSample where
  die : Fin 8
  panel : Fin 104
  freq : Nat
  deriving DecidableEq, Repr

/-- A predicted crossing of a non-panel resource, as its fit gives it (R391): kind, index, days, low, high. -/
structure Crossing where
  kind : Nat
  index : Nat
  days : Nat
  low : Nat
  high : Nat
  deriving DecidableEq, Repr

/-- The commands. One constructor per row of spec/opcode_table.json, in the table's order. -/
inductive Instr where
  | coldReset (straps : Straps)
  | moduleReset (lowNs : Nat) (straps : Straps)
  | powerOffSequence (thermtrip : Bool) (vinOff : Bool)
  | inputOvervoltage (millivolts : Nat) (us : Nat)
  | stageRom (pllLock serdesLock : BitVec 8) (die0Absent : Bool)
  | stageFirmware (failedStart : List Nat)
  | stagePrimer (badA badB : Bool)
  | stageMemory (failedDies : BitVec 8) (badPcs : List (Fin 8 × Fin 12 × Fin 64)) (badGroups : List (Fin 8 × Fin 3 × Fin 16))
  | stagePanels (failedDies : BitVec 8) (badPanels : List (Fin 8 × Fin 104))
  | stageScrubTime
  | ready
  | registerWrite (fn : Fin 9) (off : Nat) (size : Nat) (be : BitVec 4) (value : Word)
  | latchedReadLo (fn : Fin 9) (off : Nat)
  | guardedWrite (off : Nat) (value : Word) (off2 : Nat) (value2 : Word) (gap : Nat) (other : Bool)
  | rwbWrite (fn : Fin 9) (off : Nat) (value : Word)
  | rwbApply (b : RwbBlock)
  | intStatusClear (fn : Fin 9) (value : Word)
  | function0Flr
  | suiteReset (k : Fin 8)
  | dmaTimeout (op : DmaOp)
  | sqDoorbell (k : Fin 8) (q : Fin 4) (value : Word)
  | sqErrClear (k : Fin 8) (q : Fin 4)
  | cqHeadWrite (k : Fin 8) (value : Word)
  | disableFunction (f : FuncId)
  | enableFunction (f : FuncId)
  | drainComplete (f : FuncId)
  | drainTimeout (f : FuncId)
  | taskFetch (k : Fin 8) (src : FetchSource)
  | taskDispatch (k : Fin 8) (h : Nat)
  | syncWaitSatisfied (k : Fin 8) (h : Nat)
  | taskComplete (k : Fin 8) (h : Nat)
  | watchdog (k : Fin 8) (h : Nat)
  | taskTimeout (k : Fin 8) (h : Nat)
  | threadAgePromotion (d : Fin 8) (p : Fin 104) (t : Fin 64)
  | tileStart (d : Fin 8) (p : Fin 104) (t : Fin 64)
  | threadPreempt (d : Fin 8) (p : Fin 104) (t : Fin 64)
  | tileDrain (d : Fin 8) (p : Fin 104) (upsets : List (Fin 64 × Fin 65 × Int))
  | tileRecompute (d : Fin 8) (p : Fin 104) (own other : List (Fin 64 × Fin 65 × Int))
  | spareSelfTestDone (d : Fin 8) (p : Fin 104) (pass : Bool)
  | panelStoreError (d : Fin 8) (p : Fin 104) (t : Fin 64) (double inContext : Bool)
  | sliceSteal (d : Fin 8) (thief : Fin 104)
  | mergeAdd (k : Fin 8) (h : Nat) (row : Nat) (fails : List (Fin 4 × Nat))
  | mergedRowDrain (k : Fin 8) (h : Nat) (row : Nat)
  | productPlain (k : Fin 8) (h : Nat)
  | productTurned (k : Fin 8) (h : Nat)
  | productSampled (k : Fin 8) (h : Nat)
  | skimPredict (k : Fin 8) (h : Nat)
  | skimFused (k : Fin 8) (h : Nat)
  | skimInit (k : Fin 8) (h : Nat)
  | skimSet (k : Fin 8) (h : Nat)
  | skimSave (k : Fin 8) (h : Nat)
  | skimRestore (k : Fin 8) (h : Nat)
  | relayStore (k : Fin 8) (h : Nat)
  | relayStoreValues (k : Fin 8) (h : Nat)
  | relayOnehot (k : Fin 8) (h : Nat)
  | relayCopy (k : Fin 8) (h : Nat)
  | relayHostIn (k : Fin 8) (h : Nat) (bytes : List Byte)
  | relayHostOut (k : Fin 8) (h : Nat)
  | relayCheck (k : Fin 8) (h : Nat)
  | relayTwin (k : Fin 8) (h : Nat)
  | exchangeAllreduce (k : Fin 8) (h : Nat)
  | exchangeReduceScatter (k : Fin 8) (h : Nat)
  | exchangeAllgather (k : Fin 8) (h : Nat) (members : List (List Byte))
  | exchangeBroadcast (k : Fin 8) (h : Nat) (rootBytes : List Byte)
  | exchangeSend (k : Fin 8) (h : Nat)
  | exchangeRecv (k : Fin 8) (h : Nat) (bytes : List Byte)
  | exchangeGet (k : Fin 8) (h : Nat) (peerRefused : Bool)
  | exchangePut (k : Fin 8) (h : Nat) (peerRefused : Bool)
  | exchangeNorm (k : Fin 8) (h : Nat)
  | exchangeDefine (k : Fin 8) (h : Nat)
  | chunkResend (k : Fin 8) (h : Nat) (stage step chunk : Nat)
  | updateApply (k : Fin 8) (h : Nat)
  | applyOpen (d : Fin 8) (i : Fin 12)
  | gradientArrival (d : Fin 8) (i : Fin 12) (h : Nat) (elem : Nat) (total : Int) (grid : Int) (marked : Bool)
  | updateFreeze (k : Fin 8) (h : Nat)
  | updateThaw (k : Fin 8) (h : Nat)
  | updateVerify (k : Fin 8) (h : Nat)
  | updateReplay (k : Fin 8) (h : Nat)
  | updateRender (k : Fin 8) (h : Nat)
  | maskSample (k : Fin 8) (h : Nat)
  | maskRank (k : Fin 8) (h : Nat)
  | maskBuild (k : Fin 8) (h : Nat)
  | topkScan (k : Fin 8) (h : Nat)
  | topkProductScan (k : Fin 8) (h : Nat)
  | barrier (k : Fin 8) (h : Nat) (d : Fin 8)
  | scaleInit (k : Fin 8) (h : Nat)
  | scaleSet (k : Fin 8) (h : Nat)
  | scaleSave (k : Fin 8) (h : Nat)
  | scaleRestore (k : Fin 8) (h : Nat)
  | markRun (k : Fin 8) (h : Nat)
  | markStepEnd (k : Fin 8) (h : Nat) (d : Fin 8)
  | markCheckpoint (k : Fin 8) (h : Nat)
  | markLoad (k : Fin 8) (h : Nat) (bytes : List Byte)
  | stepBoundary (k : Fin 8)
  | pcRetirementMove (d : Fin 8) (i : Fin 12) (pc : Fin 64) (unreadable : List Nat)
  | memoryRead (k : Fin 8) (d : Fin 8) (who : Option (Fin 104)) (h : Option Nat) (unit lines : Nat) (fails : List (Nat × Nat)) (ecc : Nat) (cls : Fin 4) (speculative late full : Bool)
  | memoryWrite (k : Fin 8) (d : Fin 8) (who : Option (Fin 104)) (h : Option Nat) (unit off : Nat) (bytes : List Byte) (cls : Fin 4) (fails : List (Nat × Nat)) (ecc : Nat) (full : Bool)
  | d2dFlitReplay (d : Fin 8) (e : Fin 3) (g : Fin 16) (replays : Nat)
  | memKeyRotationStart (k : Fin 8)
  | reencryptionDone (d : Fin 8) (i : Fin 12)
  | codewordReceive (d : Fin 8) (q : Fin 2) (seq ack : BitVec 10) (correctable : Bool) (corrected : Bool)
  | link (d : Fin 8) (q : Fin 2) (nak : Option (BitVec 10)) (credits : List Nat) (reserved : Bool)
  | idle (d : Fin 8) (q : Fin 2)
  | keepalive (d : Fin 8) (q : Fin 2) (time : BitVec 64)
  | hello (d : Fin 8) (q : Fin 2) (cell : HelloCell)
  | frameForward (inPort : Option (Fin 16)) (srcDie : Fin 8) (f : Frame)
  | exchData (d : Fin 8) (q : Fin 2) (f : Frame) (vals : List Word) (marks : List Nat) (grids : List Int)
  | exchCarry (d : Fin 8) (q : Fin 2) (f : Frame) (carries : List (BitVec 16))
  | exchCtrl (d : Fin 8) (q : Fin 2) (f : Frame) (msg : ExchCtrl)
  | getReq (d : Fin 8) (q : Fin 2) (f : Frame) (requesterKey : List Byte)
  | getRsp (d : Fin 8) (q : Fin 2) (f : Frame) (h : Nat) (bytes : List Byte)
  | put (d : Fin 8) (q : Fin 2) (f : Frame) (bytes : List Byte)
  | pairKey (d : Fin 8) (q : Fin 2) (m : PairKeyMsg)
  | pairKeyRotation (k : Fin 8) (peer : Nat)
  | previousPairKeyDestroy (k : Fin 8) (peer : Nat)
  | tsyncSend (d : Fin 8) (q : Fin 2)
  | tsync (d : Fin 8) (q : Fin 2) (cell : TsyncCell) (phase : Fin 8)
  | signalDetect (d : Fin 8) (q : Fin 2) (pairs : BitVec 10)
  | detectRetry (d : Fin 8) (q : Fin 2)
  | equalizeDone (d : Fin 8) (q : Fin 2) (good : BitVec 10)
  | alignDone (d : Fin 8) (q : Fin 2)
  | trainingLimitExpiry (d : Fin 8) (q : Fin 2)
  | linkLossTimeout (d : Fin 8) (q : Fin 2)
  | pairDegrade (d : Fin 8) (q : Fin 2) (pair : Fin 10) (symbols : Nat)
  | downRetry (d : Fin 8) (q : Fin 2)
  | dieOut (d : Fin 8) (cause : Fin 6)
  | retirementRecordWrite
  | retiredRelog
  | ageingSample (samples : List AgeSample) (others : List Crossing) (days : Nat)
  | thermalTick (junction : List Nat) (stackTemps : List (List Nat))
  | thermalTrip
  | powerControlTick (r : PowerReading)
  | moduleCapEnforce
  | smbusSnapshotRefresh (junction : List Nat)
  | smbusId | smbusStatus | smbusTemps | smbusPower | smbusHealth
  | alertStatus (clear : Option Byte) (pecOk : Bool)
  | alertMask (write : Option Byte) (pecOk : Bool)
  | tapIdcode (d : Fin 8)
  | tapBypass (d : Fin 8)
  | tapExtestPulse (d : Fin 8) (cells : List Bool)
  | tapExtestTrain (d : Fin 8) (cells : List Bool)
  | doeAbort (fn : Fin 9)
  | getVersion (fn : Fin 9)
  | getCapabilities (fn : Fin 9)
  | negotiateAlgorithms (fn : Fin 9) (ecdsaP384 sha384 : Bool)
  | getDigests (fn : Fin 9)
  | getCertificate (fn : Fin 9) (slot : Nat)
  | challenge (fn : Fin 9) (nonce : List Byte)
  | getMeasurements (fn : Fin 9) (index : Nat)
  | respondIfReady (fn : Fin 9)
  | mailboxUndefinedCommand (fn : Fin 9) (code : BitVec 8)
  | mailboxCompletion (fn : Fin 9)
  | identify (fn : Fin 9)
  | debugUnlock (fn : Fin 9) (ownerOk vendorOk : Bool) (devKey : List Word)
  | dieRecycle (fn : Fin 9) (d : Nat)
  | dieRecycleTimeout (d : Fin 8)
  | scrub (fn : Fin 9) (k : Nat)
  | scrubFillDone (k : Fin 8)
  | provision (fn : Fin 9) (k : Nat) (record : ProvisionRecord) (ownerSigOk : Bool)
  | unwrap (fn : Fin 9) (k : Nat) (tensor : Nat) (pkg : BindingPackage)
  | wrapExport (fn : Fin 9) (k : Nat) (tensor : Nat) (host capacity : Nat)
  | rotateMem (fn : Fin 9) (k : Nat)
  | spdm (fn : Fin 9) (host len : Nat)
  | measLog (fn : Fin 9) (k : Nat) (log : Nat) (host capacity : Nat)
  | fwStage (fn : Fin 9) (img : FwImage)
  | fwActivateScheduled (fn : Fin 9) (t : Nat)
  | scheduledActivation
  | fwActivateHitless (fn : Fin 9)
  | hitlessHandover (proc : Nat)
  | handoverTimeout (proc : Nat)
  | fwConfirm (fn : Fin 9)
  | fwRevert (fn : Fin 9) (mode : Nat) (t : Nat)
  | fwUnstage (fn : Fin 9) (cls : Nat)
  | primerStage (fn : Fin 9) (img : Primer) (record : Option OwnerRecord)
  | primerSelect (fn : Fin 9) (slot : Nat)
  | recoveryLoad (fn : Fin 9) (img : FwImage) (device0Answers : Bool)
  | doeDiscovery (fn : Fin 9) (index : Nat)
  | guardWindowExpiry
  | startUpAllowed (millivolts : Nat)
  | tapExtest (d : Fin 8) (cells : List Bool)
  | tapSamplePreload (d : Fin 8) (cells : List Bool)
  | tapReset
  deriving DecidableEq, Repr

end Sys2Proof
end

