-- ==== Sys2Proof/Config.lean ====
section
/-! DEFINITION. What the spec leaves open, as uninterpreted constants (free values), and the standard functions the spec
names without defining (hashes). None has a body: nothing can evaluate one or prove a value of it. -/

namespace Sys2Proof.Config

/-- SHA-384, a standard the spec names (R310, R313); uninterpreted here. DESIGN CHOICE, log 7. -/
opaque sha384 : List Byte → List Byte

/-- The free value drawn at a counter value, `w` bits wide (R77, R81, R164, R293: contents the spec leaves unspecified). Log 6. -/
opaque freeBits : (w : Nat) → Nat → BitVec w

/-- The free natural number drawn at a counter value (an order or size the spec leaves open). Log 6. -/
opaque freeNat : Nat → Nat

/-- The map of blocks to pseudo-channels (R194: not defined, changed by a retirement): of a module stack, its retired pseudo-channels
and the block's number, a number reduced to the pseudo-channels in service. Log 6. -/
opaque pcMap : Nat → BitVec 64 → Nat → Nat

/-- The 56-bit tag of a line (R199): of its page's key epoch, its address and its bytes. Log 7. -/
opaque lineTag : Nat → Nat → List Byte → BitVec 56

/-- The bits of line state other than the poison marker (R199 gives them no meaning), and which of the 8 is the marker. Log 6. -/
opaque lineState : Nat → BitVec 8
opaque poisonBit : Fin 8

/-- Whether a running re-encryption has not reached a page (R199): of a module stack, the pages still to do and the page. Log 6. -/
opaque pageBehind : Nat → Nat → Nat → Bool

/-- The function code that a DRAIN_TIMEOUT event carries (R41 names the byte and gives no codes), by kind of function. Log 22. -/
opaque functionCode : Nat → BitVec 8

/-- The certificate chain of slot 0, from the Carhus root to the device key's certificate (13, SPDM); the spec gives no bytes of it. Log 7. -/
opaque certChain : List Byte

/-- The sign of the NaN that an invalid binary32 operation yields; the spec states no sign. DESIGN CHOICE, log 8. -/
opaque nanSign : Word → Word → Bool

/-- The sign of the accumulator behind a merged word that holds the mark 0x8000_0000 (R92, R139): the word keeps no sign and R414 asks for
one; by the word's address. DESIGN CHOICE, log 61. -/
opaque mergeSign : Nat → Bool

/-- A norm word of a viewed operand of a skim pass for which R148 gives no entry: by tensor, output row or column, and which of the four. DESIGN
CHOICE, log 64. -/
opaque viewNorm : Nat → Nat → Nat → BitVec 32

end Sys2Proof.Config
end

