-- ==== Sys2Proof/Machine/State.lean ====
section
/-! DEFINITION. The state of the block, as plain data: every register, log, queue, table and memory the spec gives it,
and the state after reset. Register words that software reads whole are bit vectors; internal counts are `Nat`. -/

namespace Sys2Proof.Machine

/-- The shared status codes (R9), in code order. -/
inductive Status where
  | done | aborted | disabled | formatError | overlap | frozen | saturated | poisoned | accessDenied | timeout | busy
  deriving DecidableEq, Repr

/-- State of a function that can be disabled (R52): codes 0b00, 0b01, 0b10. -/
inductive RunState where
  | stopped | running | draining
  deriving DecidableEq, Repr

/-- Suite states (R302). -/
inductive SuiteState where
  | stopped | running | draining | scrubbing | absent
  deriving DecidableEq, Repr

/-- Start-up stages (R329). -/
inductive Stage where
  | rom | firmware | primer | memory | panels | scrubTime | ready | maintenance | recovery
  deriving DecidableEq, Repr

/-- Scrim port training states (R225). -/
inductive PortState where
  | disabled | detect | equalize | align | handshake | active | retrain | miswired | down
  deriving DecidableEq, Repr

/-- Panel roles (R395). -/
inductive Role where
  | enabled | spare | retired | fusedOff
  deriving DecidableEq, Repr

/-- Supply phases (R404, R397): `on` after the power-on sequence. -/
inductive PowerPhase where
  | off | standby | on | disconnected
  deriving DecidableEq, Repr

/-- Time synchronisation states (R250). -/
inductive SyncState where
  | free | acquire | locked | holdover
  deriving DecidableEq, Repr

/-- Firmware update states (R352). -/
inductive FwState where
  | idle | staged | armed | switching | trial
  deriving DecidableEq, Repr

/-- A function's run state with its held enable (R54) and the time its drain began (R52). -/
structure FnState where
  st : RunState
  held : Bool
  since : Nat
  deriving DecidableEq, Repr

/-- An event record (R41); `data` is the 16-byte DATA field, code-specific. -/
structure Event where
  time : Nat
  code : Nat
  die : Nat
  unit : Nat
  seq : Nat
  data : List Byte
  deriving DecidableEq, Repr

/-- An event log ring (R41, R372): newest record first, the newest SEQ, whether any was written, and the overrun counter. -/
structure EventLog where
  recs : List Event
  seq : Nat
  overrun : Word
  deriving DecidableEq, Repr

/-- A mailbox (R367): its registers; while BUSY, `begun` tells whether the command's effect has begun, and `outcome` holds the status code
and the results that its completion will write, once it has them. -/
structure Mailbox where
  busy : Bool
  rejected : Bool
  cmd : BitVec 8
  status : BitVec 8
  seq : BitVec 8
  args : Vector Word 8
  results : Vector Word 4
  progress : Word
  begun : Bool
  outcome : Option (Nat × List Word)
  deriving DecidableEq, Repr

/-- A retirement record entry (R389). -/
structure RetEntry where
  kind : Nat
  die : Nat
  index : Nat
  reason : Nat
  time : Nat
  deriving DecidableEq, Repr

/-- Running sums of one panel's ageing fit (R391): sample count and the samples (day, slowdown in parts per million). -/
structure AgeFit where
  die : Nat
  panel : Nat
  samples : List (Nat × Int)
  deriving DecidableEq, Repr

/-- Fuses (R2, R11, R323, R333, R338, R369, R395); indices of `rollback`: classes 1 to 5 at 0 to 4, primer at 5; `roBase` is that of panel
104d + p at its index. -/
structure Fuses where
  dies : Nat
  rev : BitVec 4
  serial : BitVec 64
  devKey : List Word
  rollback : List Nat
  ownerSlots : List (List Byte)
  fusedOff : List (Nat × Nat)
  roBase : List Nat
  deriving DecidableEq, Repr

/-- The status area of the flash (R328). `slotB`, `trial`, `staged` and `failedStarts` are per class (R352, R349);
`scrubPending` holds the scrub records of R318, `unlockNext` an accepted DEBUG_UNLOCK (R371). -/
structure StatusArea where
  seqNo : Nat
  slotB : List Bool
  trial : List Bool
  staged : List Bool
  failedStarts : List Nat
  primerB : Bool
  primerTrial : Bool
  scrubPending : List Nat
  retired : List RetEntry
  ageFits : List AgeFit
  days : Nat
  unlockNext : Bool
  deriving DecidableEq, Repr

/-- The two flash devices (R328). `status` is the status area, which both devices hold alike; images by slot; `cfgArea` is the configuration
area in use by each class and `cfgSchema` the schemas written to the two areas (R346). -/
structure Flash where
  status : StatusArea
  primerA : Option Primer
  primerB : Option Primer
  fwA : List (Option FwImage)
  fwB : List (Option FwImage)
  cfgArea : List Nat
  cfgSchema : List (List Nat)
  deriving DecidableEq, Repr

/-- The task descriptor of R29, parsed. -/
structure TaskDesc where
  type : Nat
  mode : Nat
  flags : BitVec 16
  taskId : Nat
  dieMask : BitVec 8
  prio : BitVec 8
  phase : Nat
  gridFix : Word
  waitCtr : Nat
  signalCtr : Nat
  waitValue : Word
  signalInc : Word
  timeout : Nat
  tensors : List Nat
  shape : List Nat
  args : List Byte
  deriving DecidableEq, Repr

/-- The life of a task: fetched, dispatched to its trowels and waiting, started, finished with a status (R28, R39, R40). -/
inductive TaskState where
  | fetched | waiting | running | finished
  deriving DecidableEq, Repr

/-- The array's unit of work (R42, R98, R134, R144, R146): suite, task handle, and which unit of the task: a 64 × 64 tile of C's dense shape
(row, column, batch), in an ST PLAIN product lane group `row` of column tile `col`, in a cut TURNED tile its part, in a SAMPLED product run
group `row`, in a SKIM FUSED part 0 the skim of a tile and part 1 its product. -/
structure Tile where
  k : Nat
  h : Nat
  row : Nat
  col : Nat
  batch : Nat
  part : Nat
  deriving DecidableEq, Repr

/-- A raw part of a split row that a panel has drained and no merge add has taken yet (R139): its merge row, its 64 raw words at most,
whether a poisoned line fed it, and the panel that delivers it. -/
structure RawPart where
  row : Nat
  vals : List Nat
  pois : Bool
  die : Nat
  panel : Nat
  deriving DecidableEq, Repr

/-- A chunk of an exchange that this module has sent and that has not been acknowledged (R238, R242): its names, its rail and direction, when it
was last sent, and how often it was sent again. -/
structure SentChunk where
  stage : Nat
  step : Nat
  chunk : Nat
  rail : Nat
  plus : Bool
  time : Nat
  resends : Nat
  deriving DecidableEq, Repr

/-- A task in a suite. `h` is its handle; `queue` its submission queue, `program` whether it is a task of the running program;
`sent` the exchange chunks not acknowledged and `railsLogged` the rails whose resends
were logged (R242), `seq` its task sequence in its group (R238), `got` the lines of a GET that have come; `took` the dies on which a part ran (R38); `sliced` whether it runs in more than one slice of a die, `tilesDone` the units that have drained
(R97, R101), `tilesOff` the units of dies that run no part (R53, R168), `paired` the weight-gradient groups that are to run paired, by die
(R175), `parts` the raw parts on their way to the merge area and `merged` the parts added into each merge row, `mergedDone` the merge rows
drained (R139), `stats` the values that the row statistics take (R102), `rowPois` the rows of them that a poisoned line fed, `satBy` the saturated elements by die and panel (R106), `logged` the
events that the task logs once, by code and key. -/
structure Task where
  h : Nat
  desc : TaskDesc
  queue : Nat
  program : Bool
  state : TaskState
  status : Status
  count : Nat
  sliced : Bool
  stolen : Bool
  retried : Bool
  reserved : Bool
  recompute : Bool
  frame : Option Nat
  waitFrom : Nat
  wdLogged : Bool
  arrived : BitVec 8
  sent : List SentChunk
  railsLogged : List Nat
  seq : Nat
  got : List Nat
  deferred : Bool
  took : BitVec 8
  tilesDone : List Tile
  tilesOff : List Tile
  paired : List (Nat × Tile)
  parts : List RawPart
  merged : List (Nat × Nat)
  mergedDone : List Nat
  stats : List (Nat × Nat × Word)
  rowPois : List Nat
  satBy : List (Nat × Nat × Nat)
  logged : List (Nat × Nat)
  deriving DecidableEq, Repr

/-- The RUN in flight (R33 to R35, R412): program address and count, tensor table, steps left, next program index,
and the dies that have completed their last task of the step. -/
structure Run where
  h : Nat
  prog : Nat
  count : Nat
  table : Nat
  steps : Nat
  pc : Nat
  ended : BitVec 8
  deriving DecidableEq, Repr

/-- A submission queue (R25 to R28): its registers, and the run state of the queue as a function (R52). -/
structure SubQueue where
  base : BitVec 64
  size : Word
  tail : Nat
  head : Nat
  err : Bool
  fn : FnState
  deriving DecidableEq, Repr

/-- The completion ring (R25, R38, R39): `wraps` counts passes for PHASE_TAG, `reserved` the slots reserved by dispatch. -/
structure CompRing where
  base : BitVec 64
  size : Word
  head : Nat
  tail : Nat
  wraps : Nat
  reserved : Nat
  deriving DecidableEq, Repr

/-- An activation stack frame (R181 to R184): logical position, units, start offset in units, owning task, whether written,
whether popped, and whether released. -/
structure AstFrame where
  pos : Nat
  units : Nat
  start : Nat
  pushTask : Nat
  popTask : Option Nat
  lost : Bool
  deriving DecidableEq, Repr

/-- The activation stack (R180 to R185). -/
structure AstState where
  baseLo : Word
  baseHi : Word
  size : Word
  ctrl : Word
  frames : List AstFrame
  depth : Nat
  written : Nat
  used : Nat
  demanded : Nat
  peak : Word
  deriving DecidableEq, Repr

/-- A collective group (R238). -/
structure Group where
  id : Nat
  dims : BitVec 4
  dies : BitVec 8
  deriving DecidableEq, Repr

/-- A peer table entry (R306). -/
structure Peer where
  coord : List Nat
  suite : Nat
  digest : List Byte
  deriving DecidableEq, Repr

/-- A pair key (R307, R308): peer table index, epoch, frames sent under it, whether the previous epoch is still accepted,
whether first frames arrived in each direction, and per sender die the highest counter and window of counters seen (R237). -/
structure PairKey where
  peer : Nat
  epoch : Nat
  sent : Nat
  prevAlive : Bool
  firstSeen : Bool
  seen : List (Nat × Nat × List Nat)
  deriving DecidableEq, Repr

/-- A mask record in STATE BUILT (R294): its address in units, the step of its BUILD, and what its commit will report. -/
structure BuiltRec where
  addr : Nat
  step : Nat
  sanded : Nat
  feathered : Nat
  short : Nat
  missing : Nat
  deriving DecidableEq, Repr

/-- A binding set in force (R313): its digest and the SHA-384 digests of its device keys. -/
structure BindSet where
  digest : List Byte
  keys : List (List Byte)
  deriving DecidableEq, Repr

/-- A bound address range in 64-byte units, with the digest of the set that bound it (R316). -/
structure BoundRange where
  lo : Nat
  hi : Nat
  set : List Byte
  deriving DecidableEq, Repr

/-- A chunk of an exchange that a frame has brought (R238, R240): its names, the grid of each sum, the sums and marks, and whether it was
acknowledged: a chunk that is not holds its grant (R256). -/
structure ExchChunk where
  group : Nat
  seq : Nat
  stage : Nat
  step : Nat
  chunk : Nat
  grids : List Int
  sums : List Int
  marks : List Bool
  acked : Bool
  deriving DecidableEq, Repr

/-- The extremes that a part of a grid group has reported for an output tile of a task (R85, R243): whose coordinate, bmax and bmin. -/
structure Extreme where
  h : Nat
  tile : Nat
  src : List Nat
  hi : Int
  lo : Int
  deriving DecidableEq, Repr

/-- A program placed by LOAD (R33): address, task count, digest, and whether it is still untouched. -/
structure Program where
  addr : Nat
  count : Nat
  digest : List Byte
  intact : Bool
  deriving DecidableEq, Repr

/-- The update record of R259 as an APPLY reads it once (R261). -/
structure UpdRec where
  rule : Nat
  nesterov : Bool
  factMom : Bool
  masterSr : Bool
  rowClipEn : Bool
  globalClipEn : Bool
  lrSlot : Nat
  beta1 : Word
  beta2 : Word
  eps : Word
  wd : Word
  rowClip : Word
  globalClip : Word
  gradScale : Word
  stateAddr : Nat
  retainAddr : Nat
  stage : Nat
  deriving DecidableEq, Repr

/-- A suite: its function's BAR0 registers (R380) and the suite's own state. `applied` holds the retention area that each master's last
APPLY or REPLAY named, `flrWait` whether a suite reset waits for a die recycle (R406), `folds` the masters whose APPLY of the step ended, with its record and whether R267 folds them, `sumSat` the
masters of which a scratch sum saturated since their previous fold (R266), `slotsChanged` the scale slots whose exponent or format the
boundary changed (R269). -/
structure Suite where
  st : SuiteState
  clean : Bool
  held : Bool
  since : Nat
  sq : Vector SubQueue 4
  cq : CompRing
  log : EventLog
  sclLo : Word
  sclHi : Word
  sclSlots : Word
  sclRaised : Word
  sclPromoted : Word
  sclInvalid : Word
  seed : Vector Word 4
  step : Word
  skmLo : Word
  skmHi : Word
  skmSlots : Word
  skmWidened : Word
  ast : AstState
  gnorm : Word
  gnormStep : Word
  gnormFlags : Word
  lrLo : Word
  lrHi : Word
  lrSlots : Word
  intSts : Word
  intEn : Word
  mbx : Mailbox
  scrubBytes : Nat
  memRot : Word
  key : Option Nat
  tasks : List Task
  nextH : Nat
  run : Option Run
  lastTable : Option (Nat × Nat × Nat)
  tensSet : List Nat
  unspecScale : List Nat
  unspecSkim : List Nat
  builds : List (Nat × Nat)
  programs : List Program
  ctrs : List (Nat × Word)
  barriers : List (Nat × Nat × Nat)
  ckpts : List Nat
  recompute : Bool
  bindings : List (Nat × Nat)
  once : List (Nat × Nat)
  frozenPend : List (Nat × Bool)
  groups : List Group
  groupSeq : List (Nat × Nat)
  chunks : List ExchChunk
  extremes : List Extreme
  builtRecs : List BuiltRec
  applied : List (Nat × Nat)
  folds : List (Nat × UpdRec × Bool)
  sumSat : List Nat
  normNext : Option (Nat × Bool)
  normIn : List (Nat × List Nat × Nat × Bool)
  shares : List Nat
  sinceRebal : Nat
  forceNext : Bool
  forced : Bool
  flrWait : Bool
  stepStart : Nat
  slotsChanged : List Nat
  satStep : Bool
  fmtStep : Bool
  reads : List (Nat × Nat × Nat)
  peers : List Peer
  pairs : List PairKey
  sets : List BindSet
  bound : List BoundRange
  progLog : Nat × List Byte
  progEntries : List (List Byte)
  tensLog : Nat × List Byte
  tensEntries : List (List Byte)
  deriving DecidableEq, Repr

/-- What an accumulator bank is doing (R98); `draining` is a bank whose tile failed its check and waits for its recompute (R97). -/
inductive BankState where
  | free | computing | settling | draining
  deriving DecidableEq, Repr

/-- A cell of an accumulator bank (R84, R89, R137): the grid of its output tile, the accumulator, the sticky saturation flag and the off-grid
products. -/
structure Cell where
  g : Int
  v : Int
  sticky : Bool
  nOff : Nat
  deriving DecidableEq, Repr

/-- An accumulator bank (R96, R98, R99, R136): the unit it holds, the K positions that have entered, its cells row by row, the checker cell of
each row as an exact value m × 2^e, and the drain position. -/
structure Bank where
  state : BankState
  tile : Option Tile
  kPos : Nat
  cells : List (List Cell)
  checker : List (Int × Int)
  drained : Nat
  deriving DecidableEq, Repr

/-- A panel thread holding one tile (R42, R43): its priority, dispatch order, the time since which it is ready, age boosts, whether its tile
has started, its slice, the failed computations of its tile (R97), and a saved context. -/
structure Thread where
  id : Nat
  tile : Tile
  prio : Nat
  order : Nat
  readyAt : Nat
  boosts : Nat
  started : Bool
  slice : Nat
  tries : Nat
  saved : Option (Bank × Bank)
  deriving DecidableEq, Repr

/-- A speculative read of a panel (R165, R166): its first line, its lines, the task it reads for, and whether its response has arrived: until
then it holds a request entry (R206). -/
structure SpecRead where
  unit : Nat
  lines : Nat
  h : Nat
  came : Bool
  deriving DecidableEq, Repr

/-- A panel: PNL registers (R105, R395), threads, owner of the array, the task whose tile
started last (R176), the two banks, and the speculative reads it holds, youngest first. -/
structure Panel where
  fn : FnState
  role : Role
  reason : Nat
  storeCorr : BitVec 16
  roNow : BitVec 16
  satCnt : Word
  offgrid : BitVec 64
  chkSkipped : BitVec 16
  chkMismatch : BitVec 16
  chkCtrl : Word
  gridLast : Word
  lastMismatch : Option Nat
  lastDouble : Option Nat
  threads : List Thread
  owner : Option Nat
  lastRun : Option (Nat × Nat)
  bankA : Bank
  bankB : Bank
  spec : List SpecRead
  selfTest : Bool
  deriving DecidableEq, Repr

/-- A gradient element that has arrived (R256, R257): index, total, grid, marked. -/
structure Arrived where
  p : Nat
  s : Int
  g : Int
  marked : Bool
  deriving DecidableEq, Repr

/-- An open APPLY (R253, R257, R261): record, learning rate and clipping factor in force, arrived elements, blocks written,
whether a duplicate or a marked element occurred, elements discarded, and whether the master is frozen (R270). -/
structure OpenApply where
  k : Nat
  h : Nat
  master : Nat
  rcd : UpdRec
  lr : Word
  cg : Word
  arrived : List Arrived
  blocksDone : List Nat
  dup : Bool
  sat : Bool
  dropped : Nat
  frozen : Bool
  deriving DecidableEq, Repr

/-- An update unit (R279) with its open and waiting tasks (R253). -/
structure UpdUnit where
  fn : FnState
  opened : List OpenApply
  waiting : List (Nat × Nat)
  blocks : Word
  frozenDrop : Word
  satSkip : Word
  tagSkip : Word
  dup : Word
  replayed : Word
  deriving DecidableEq, Repr

/-- A stack (R214, R324) with its update unit: registers, the retirement in progress, poison times per pseudo-channel (R382),
and the C0 token buckets (R208): pseudo-channel, fill in 1/102400 of
a token, and the time of that fill; a pseudo-channel not listed has a full bucket. `prevEpoch` is the key epoch of the pages that a running
re-encryption has not reached (R199). `filled` tells whether its lines are readable since the last key change (R303, R321). -/
structure Stack where
  temp : Nat
  refresh2x : Bool
  pcRetired : BitVec 64
  cap : Nat
  arb : Word
  pend : List (Nat × Word)
  eccCorr : Word
  tagRetry : Word
  poisonCnt : Word
  c0Over : Word
  upd : UpdUnit
  epoch : Nat
  prevEpoch : Nat
  reenc : Bool
  pages : Nat
  rotQueued : Bool
  filled : Bool
  pcPoison : List (Nat × Nat)
  pcPending : List (Nat × Nat)
  moveLost : Nat
  c0 : List (Nat × Nat × Nat)
  deriving DecidableEq, Repr

/-- A local die-to-die edge (R215), the C0 token bucket of its outbound direction (R208) as a fill in 1/102400 of a token with its
time. -/
structure Edge where
  groups : BitVec 16
  arb : Word
  pend : List (Nat × Word)
  c0Over : Word
  rerouted : Word
  c0 : Nat × Nat
  deriving DecidableEq, Repr

/-- A Scrim port (R249) with its link state (R223 to R226): the next SEQ expected, the time of the last good codeword, the SEQ of the oldest
codeword not acknowledged and how often it was resent, whether the NAK of the present discard run was sent, the credits held for each
virtual channel's reserve and the shared pool (R224), training failures in a row, replays to report, and the C0 bucket as a fill in 1/680
of a token with its time (R233); `chosen` the lane pairs that train or run; `txSeq` the SEQ of the next codeword to send, `kept` the frames whose
codewords are not all acknowledged with the SEQ after each (R223); `inBuf` the frames that wait in the input buffer and `owed` the cells freed by
channel since the last LINK cell (R221, R224); `peerDepth` the depth of a neighbour that is LOCKED (R246), `tsReply` the stamps of the last TSYNC
reply sent (R247). -/
structure Port where
  st : PortState
  width : Nat
  pairs : BitVec 10
  chosen : BitVec 10
  tsParent : Bool
  fn : FnState
  autoDegrade : Bool
  autoRetry : Bool
  arb : Word
  pend : List (Nat × Word)
  degrade : BitVec 16
  cwCorr : Word
  cwUncorr : Word
  replay : Word
  c0Over : Word
  authFail : Word
  drop : Word
  rxSeq : Nat
  lastGood : Nat
  txAcked : Nat
  resends : Nat
  nakSent : Bool
  credits : List Nat
  pool : Nat
  fails : Nat
  replaysSince : Nat
  c0 : Nat × Nat
  txSeq : Nat
  kept : List (Nat × Frame)
  inBuf : List Frame
  owed : List Nat
  peerDepth : Option Nat
  tsReply : Option (Nat × Nat × Nat)
  deriving DecidableEq, Repr

/-- The registers of one die's TRW block (R379), with the running phase counts of the present step; `rqtFree` counts the entries of the die's
table that no demand holds: a demand is served within its command. -/
structure Trowel where
  wdog : Word
  age : Word
  slice : Word
  drain : Word
  bwd : Word
  bwdPairs : Word
  pairsRun : Nat
  rqtPeak : BitVec 16
  rqtPeakRun : Nat
  rqtFree : Nat
  c0Late : Word
  phase : Vector (BitVec 64) 8
  phaseRun : Vector Nat 8
  step : Word
  pend : List (Nat × Word)
  deriving DecidableEq, Repr

/-- The relay engine's registers (R128). -/
structure Relay where
  lastStatus : BitVec 8
  cntIndex : Word
  cntTrim : Word
  cntCap : Word
  deriving DecidableEq, Repr

/-- The skim controller's registers (R168). -/
structure Skim where
  fn : FnState
  raEn : Bool
  raDepth : BitVec 8
  issued : Word
  used : Word
  cancelled : Word
  deriving DecidableEq, Repr

/-- The mask unit's registers (R299). -/
structure MaskUnit where
  fn : FnState
  sanded : Word
  feathered : Word
  short : Word
  withheld : Word
  deriving DecidableEq, Repr

/-- A compute die with its stacks. `norm` holds the norm accumulator of R244 per suite, with NORM_SAT. -/
structure Die where
  inService : Bool
  outCause : Option Nat
  recycling : Bool
  trw : Trowel
  rly : Relay
  skm : Skim
  msk : MaskUnit
  panels : Vector Panel 104
  stks : Vector Stack 12
  ports : Vector Port 2
  edges : Vector Edge 3
  norm : Vector Nat 8
  normSat : Vector Bool 8
  deriving DecidableEq, Repr

/-- Management registers (R352, R359, R366, R364, R372); `guard` is a pending first half of a guarded write (R363): its arrival, its value
and whether another request has broken it. -/
structure Mgt where
  accViol : Word
  accCnt : Word
  intSts : Word
  intEn : Word
  lock : Bool
  stage : Stage
  primerSlotB : Bool
  primerFallback : Bool
  failed : BitVec 8
  fwState : FwState
  fwClass : Nat
  fwPending : List Nat
  fwMode : Nat
  fwRevert : Bool
  fwTime : BitVec 64
  fwSwitched : List Nat
  deferredSpdm : List (Nat × Nat)
  log : EventLog
  guard : Option (Nat × Word × Bool)
  deriving DecidableEq, Repr

/-- Clock registers and time synchronisation (R250, R411, R247, R248); `avoid` is the port whose offsets were rejected three times in a row; `slew` is the correction left in counts, `edges` the TCLK edges since
the last count was added or withheld. -/
structure Clk where
  time : Nat
  pllSts : Word
  tclkCap : Word
  k : Vector Nat 8
  cause : Vector (BitVec 8) 8
  syncState : SyncState
  depth : Nat
  root : Bool
  parent : Nat
  rejects : BitVec 16
  offset : Word
  offsets : List Int
  badRun : Nat
  t1 : Option Nat
  avoid : Option Nat
  slew : Int
  edges : Nat
  deriving DecidableEq, Repr

/-- Power registers and controller state (R399 to R403, R411), pins and straps (R408, R409). `kBudget` and `kTherm` are
bounds of each die; `kModule` counts the steps that R403 takes off every die. -/
structure Power where
  phase : PowerPhase
  vinOk48 : Bool
  pwrgd : Bool
  thermtrip : Bool
  capped : Bool
  holdup : Bool
  thermal : BitVec 8
  budget : BitVec 8
  cap : Word
  vin : BitVec 16
  iin : BitVec 16
  moduleW : BitVec 16
  dieW : Vector (BitVec 16) 8
  suiteW : Vector (BitVec 16) 8
  throtCnt : Word
  overMs : Nat
  kBudget : Vector Nat 8
  kTherm : Vector Nat 8
  kModule : Nat
  strapDie1 : Bool
  smbAddr : BitVec 2
  deriving DecidableEq, Repr

/-- Health registers (R394), the retirements under way (R385, R388, R389), and the Scrim pairs warned of (R392). -/
structure Health where
  ctrl : Word
  eol : Word
  eolCi : Word
  eol90 : Bool
  recordLoaded : Bool
  pendingRecs : List RetEntry
  withheld : List (RetEntry × Nat)
  warnedPairs : List Nat
  deriving DecidableEq, Repr

/-- SMBus target state (R369): the snapshot that the block reads answer, ALERT_STATUS and ALERT_MASK, and the last answer. -/
structure Smbus where
  id : List Byte
  status : List Byte
  temps : List Byte
  power : List Byte
  health : List Byte
  alert : BitVec 5
  mask : BitVec 5
  reply : List Byte
  nack : Bool
  deriving DecidableEq, Repr

/-- The TAP of one die (R370, R371). -/
inductive TapInstr where
  | idcode | bypass | extest | samplePreload | extestPulse | extestTrain
  deriving DecidableEq, Repr

/-- A TAP: selected instruction, and the boundary cells driven or captured. -/
structure Tap where
  ir : TapInstr
  cells : List Bool
  driving : Bool
  deriving DecidableEq, Repr

/-- A DOE mailbox's state (R356): whether a response is ready, and the response as its codes and its payload bytes. -/
structure Doe where
  ready : Bool
  response : List Nat
  payload : List Byte
  deriving DecidableEq, Repr

/-- The security service's registers (R323, R349). -/
structure Sec where
  updStep : Bool
  rotPair : Word
  deriving DecidableEq, Repr

/-- Faults of the block. No command's effect is a machine stop, so no command raises one. -/
inductive Fault where
  /-- Raised by no command: the block has no state in which the spec says the machine stops for good. Safe. -/
  | stuck
  deriving DecidableEq, Repr

/-- Refusals of the block. -/
inductive Refusal where
  /-- The command of this mnemonic has no meaning in the model. Safe. -/
  | notModelled (mnemonic : String)
  deriving DecidableEq, Repr

/-- The whole block. `free` counts the free values drawn (log 6); `pending` is the queue of waiting commands (the model's own). -/
structure State where
  fuses : Fuses
  flash : Flash
  power : Power
  clk : Clk
  mgt : Mgt
  mbx : Mailbox
  sec : Sec
  hlt : Health
  layout : Vector Nat 8
  primer : Option Primer
  dies : Vector Die 8
  suites : Vector Suite 8
  mem : List Host.Cell
  poison : List Nat
  host : List Host.Cell
  latch : List (Nat × Nat × Word)
  msix : List (Nat × Nat)
  smbus : Smbus
  taps : Vector Tap 8
  doe : Vector Doe 9
  bscanLocked : Bool
  unlocked : Bool
  keyGen : Nat
  free : Nat
  pending : List Instr
  deriving DecidableEq, Repr

/-! ## Reset values (R376 to R380) -/

/-- A function that resets STOPPED. -/
def FnState.stopped : FnState := { st := .stopped, held := false, since := 0 }

/-- A function that resets RUNNING. -/
def FnState.running : FnState := { st := .running, held := false, since := 0 }

/-- An empty event log (R41: SEQ reads 0 until the first record is written). -/
def EventLog.empty : EventLog := { recs := [], seq := 0, overrun := 0 }

/-- A mailbox after reset (R367 table). -/
def Mailbox.reset : Mailbox :=
  { busy := false, rejected := false, cmd := 0, status := 0, seq := 0, args := Vector.replicate 8 0,
    results := Vector.replicate 4 0, progress := 0, begun := false, outcome := none }

/-- A free accumulator bank (R98). -/
def Bank.free : Bank :=
  { state := .free, tile := none, kPos := 0, cells := [], checker := [], drained := 0 }

/-- PNL registers after reset (R105, R395); the role is the pre-load value until stage 0x5 (R377). -/
def Panel.reset : Panel :=
  { fn := .stopped, role := .enabled, reason := 0, storeCorr := 0, roNow := 0, satCnt := 0, offgrid := 0,
    chkSkipped := 0, chkMismatch := 0, chkCtrl := 0x80000400, gridLast := 0, lastMismatch := none, lastDouble := none,
    threads := [], owner := none, lastRun := none, bankA := .free, bankB := .free, spec := [], selfTest := false }

/-- Update unit registers after reset (R279). -/
def UpdUnit.reset : UpdUnit :=
  { fn := .running, opened := [], waiting := [], blocks := 0, frozenDrop := 0, satSkip := 0,
    tagSkip := 0, dup := 0, replayed := 0 }

/-- STK registers after reset (R214, R324). -/
def Stack.reset : Stack :=
  { temp := 0, refresh2x := false, pcRetired := 0, cap := 0x3F000000, arb := 0x268, pend := [], eccCorr := 0, tagRetry := 0,
    poisonCnt := 0, c0Over := 0, upd := .reset, epoch := 0, prevEpoch := 0, reenc := false, pages := 0, rotQueued := false, filled := false,
    pcPoison := [], pcPending := [], moveLost := 0, c0 := [] }

/-- D2D registers after reset (R215). -/
def Edge.reset : Edge :=
  { groups := 0xFFFF, arb := 0x268, pend := [], c0Over := 0, rerouted := 0, c0 := (1638400, 0) }

/-- SCR registers after reset (R249). -/
def Port.reset : Port :=
  { st := .disabled, width := 3, pairs := 0x3FF, chosen := 0, tsParent := false, fn := .running, autoDegrade := true,
    autoRetry := true, arb := 0x1268, pend := [], degrade := 0x400, cwCorr := 0, cwUncorr := 0, replay := 0, c0Over := 0,
    authFail := 0, drop := 0, rxSeq := 0, lastGood := 0, txAcked := 0, resends := 0, nakSent := false,
    credits := List.replicate 16 65, pool := 1008, fails := 0, replaysSince := 0, c0 := (44200, 0),
    txSeq := 0, kept := [], inBuf := [], owed := List.replicate 16 0, peerDepth := none, tsReply := none }

/-- TRW registers after reset (R379). -/
def Trowel.reset : Trowel :=
  { wdog := 0x17D8, age := 0x40, slice := 0xC5001000, drain := 0x3E8, bwd := 0x40000000, bwdPairs := 0, pairsRun := 0,
    rqtPeak := 0, rqtPeakRun := 0, rqtFree := 0x4000, c0Late := 0, phase := Vector.replicate 8 0,
    phaseRun := Vector.replicate 8 0, step := 0, pend := [] }

/-- RLY registers after reset (R128). -/
def Relay.reset : Relay := { lastStatus := 0, cntIndex := 0, cntTrim := 0, cntCap := 0 }

/-- SKM registers after reset (R168). -/
def Skim.reset : Skim := { fn := .running, raEn := true, raDepth := 0x20, issued := 0, used := 0, cancelled := 0 }

/-- MSK registers after reset (R299). -/
def MaskUnit.reset : MaskUnit :=
  { fn := .running, sanded := 0, feathered := 0, short := 0, withheld := 0 }

/-- A die after reset. -/
def Die.reset : Die :=
  { inService := true, outCause := none, recycling := false, trw := .reset, rly := .reset, skm := .reset, msk := .reset,
    panels := Vector.replicate 104 .reset, stks := Vector.replicate 12 .reset, ports := Vector.replicate 2 .reset,
    edges := Vector.replicate 3 .reset, norm := Vector.replicate 8 0, normSat := Vector.replicate 8 false }

/-- A submission queue after reset (R25). -/
def SubQueue.reset : SubQueue :=
  { base := 0, size := 0, tail := 0, head := 0, err := false, fn := .stopped }

/-- The completion ring after reset (R25). -/
def CompRing.reset : CompRing := { base := 0, size := 0, head := 0, tail := 0, wraps := 0, reserved := 0 }

/-- The activation stack after reset (R180). -/
def AstState.reset : AstState :=
  { baseLo := 0, baseHi := 0, size := 0, ctrl := 0, frames := [], depth := 0, written := 0, used := 0, demanded := 0, peak := 0 }

/-- A suite after a cold or module reset: SCRUBBING (R303, R322), every register of R380 at its reset value. -/
def Suite.reset : Suite :=
  { st := .scrubbing, clean := false, held := false, since := 0, sq := Vector.replicate 4 .reset, cq := .reset, log := .empty,
    sclLo := 0, sclHi := 0, sclSlots := 0, sclRaised := 0, sclPromoted := 0, sclInvalid := 0, seed := Vector.replicate 4 0,
    step := 0, skmLo := 0, skmHi := 0, skmSlots := 0, skmWidened := 0, ast := .reset, gnorm := 0, gnormStep := 0,
    gnormFlags := 0, lrLo := 0, lrHi := 0, lrSlots := 0, intSts := 0, intEn := 0, mbx := .reset, scrubBytes := 0, memRot := 0, key := none, tasks := [], nextH := 0, run := none, lastTable := none, tensSet := [], unspecScale := [], unspecSkim := [], builds := [], programs := [],
    ctrs := [], barriers := [], ckpts := [], recompute := false, bindings := [], once := [], frozenPend := [], groups := [],
    groupSeq := [], chunks := [], extremes := [], builtRecs := [], applied := [], folds := [], sumSat := [], normNext := none, normIn := [], shares := [],
    sinceRebal := 0, forceNext := false, forced := false, flrWait := false, stepStart := 0, slotsChanged := [], satStep := false,
    fmtStep := false, reads := [], peers := [], pairs := [], sets := [], bound := [],
    progLog := (0, List.replicate 48 0), progEntries := [], tensLog := (0, List.replicate 48 0), tensEntries := [] }

/-- Management registers after reset (R352, R378). -/
def Mgt.reset : Mgt :=
  { accViol := 0, accCnt := 0, intSts := 0, intEn := 0, lock := false, stage := .rom, primerSlotB := false,
    primerFallback := false, failed := 0, fwState := .idle, fwClass := 0, fwPending := [], fwMode := 0, fwRevert := false,
    fwTime := 0, fwSwitched := [], deferredSpdm := [], log := .empty, guard := none }

/-- Clock registers after reset (R411, R250); K reads 0 before stage 0x1 ends. -/
def Clk.reset : Clk :=
  { time := 0, pllSts := 0, tclkCap := 0, k := Vector.replicate 8 0, cause := Vector.replicate 8 0, syncState := .free,
    depth := 0, root := false, parent := 0, rejects := 0, offset := 0, offsets := [], badRun := 0, t1 := none, avoid := none, slew := 0, edges := 0 }

/-- Power registers after reset (R411) and straps open (R409). DESIGN CHOICE for the pins, log 3. -/
def Power.reset : Power :=
  { phase := .on, vinOk48 := true, pwrgd := true, thermtrip := false, capped := false, holdup := false, thermal := 0,
    budget := 0, cap := 0, vin := 0, iin := 0, moduleW := 0, dieW := Vector.replicate 8 0, suiteW := Vector.replicate 8 0,
    throtCnt := 0, overMs := 0, kBudget := Vector.replicate 8 32, kTherm := Vector.replicate 8 32, kModule := 0,
    strapDie1 := false, smbAddr := 3 }

/-- Health registers before the retirement record and the primer image are loaded (R377). -/
def Health.reset : Health :=
  { ctrl := 0, eol := 0, eolCi := 0, eol90 := false, recordLoaded := false, pendingRecs := [], withheld := [], warnedPairs := [] }

/-- SMBus target after reset (R369). DESIGN CHOICE for the snapshot before its first refresh, log 3. -/
def Smbus.reset : Smbus :=
  { id := [], status := [], temps := [], power := [], health := [], alert := 0, mask := 0, reply := [], nack := false }

/-- A TAP after reset; IDCODE selected (PRESUMED from IEEE 1149.1, log 9). -/
def Tap.reset : Tap := { ir := .idcode, cells := [], driving := false }

/-- A DOE mailbox after reset. -/
def Doe.reset : Doe := { ready := false, response := [], payload := [] }

/-- Fuses of the modelled module. DESIGN CHOICE, log 2. -/
def Fuses.reset : Fuses :=
  { dies := 8, rev := 0, serial := 0, devKey := List.replicate 12 0, rollback := List.replicate 6 0, ownerSlots := [],
    fusedOff := [], roBase := List.replicate 832 20000 }

/-- Blank flash: no image, no record. DESIGN CHOICE, log 4. -/
def Flash.blank : Flash :=
  { status := { seqNo := 0, slotB := List.replicate 5 false, trial := List.replicate 5 false, staged := List.replicate 5 false,
                failedStarts := List.replicate 5 0, primerB := false, primerTrial := false, scrubPending := [], retired := [],
                ageFits := [], days := 0, unlockNext := false },
    primerA := none, primerB := none, fwA := List.replicate 5 none, fwB := List.replicate 5 none,
    cfgArea := List.replicate 5 0, cfgSchema := List.replicate 5 [0, 0] }

/-- The module right after a cold reset of a module whose flash is blank: stage 0x1, every suite SCRUBBING, no die in a suite. -/
def State.reset : State :=
  { fuses := .reset, flash := .blank, power := .reset, clk := .reset, mgt := .reset, mbx := .reset,
    sec := { updStep := false, rotPair := 0x10000 }, hlt := .reset, layout := Vector.replicate 8 15, primer := none,
    dies := Vector.replicate 8 .reset, suites := Vector.replicate 8 .reset, mem := [], poison := [], host := [], latch := [],
    msix := [], smbus := .reset, taps := Vector.replicate 8 .reset, doe := Vector.replicate 9 .reset, bscanLocked := false,
    unlocked := false, keyGen := 0, free := 0, pending := [] }

end Sys2Proof.Machine
end

