-- ==== Sys2Proof/Machine/Flags.lean ====
section
/-! DEFINITION. Status codes and their order, run-state codes, stage codes, and the bit-field, byte-order and CRC helpers. -/

namespace Sys2Proof.Machine

/-- Code of a status (R9). -/
def Status.code : Status → Nat
  | .done => 0 | .aborted => 1 | .disabled => 2 | .formatError => 3 | .overlap => 4 | .frozen => 5 | .saturated => 6
  | .poisoned => 7 | .accessDenied => 8 | .timeout => 9 | .busy => 10

/-- Severity rank of a part status, larger is more severe (R40). The whole-task refusals rank above all: they are decided before
any part runs, and the task carries them alone. -/
def Status.rank : Status → Nat
  | .done => 0 | .saturated => 1 | .formatError => 2 | .disabled => 3 | .timeout => 4 | .accessDenied => 5 | .poisoned => 6
  | .aborted => 7 | .overlap => 8 | .frozen => 8 | .busy => 8

/-- The more severe of two part statuses (R40). -/
def Status.worse (a b : Status) : Status := if a.rank < b.rank then b else a

/-- STATE field code of a run state (R25, R168, R249, R279, R299, R395). -/
def RunState.code : RunState → Nat
  | .stopped => 0 | .running => 1 | .draining => 2

/-- Suite state code (R302). -/
def SuiteState.code : SuiteState → Nat
  | .stopped => 0 | .running => 1 | .draining => 2 | .scrubbing => 3 | .absent => 4

/-- Stage code (R329). -/
def Stage.code : Stage → Nat
  | .rom => 1 | .firmware => 2 | .primer => 3 | .memory => 4 | .panels => 5 | .scrubTime => 6 | .ready => 8
  | .maintenance => 0xE | .recovery => 0xF

/-- Port training state code (R225). -/
def PortState.code : PortState → Nat
  | .disabled => 0 | .detect => 1 | .equalize => 2 | .align => 3 | .handshake => 4 | .active => 5 | .retrain => 6
  | .miswired => 7 | .down => 8

/-- Panel role code (R395). -/
def Role.code : Role → Nat
  | .enabled => 0 | .spare => 1 | .retired => 2 | .fusedOff => 3

/-- Time synchronisation state code (R250). -/
def SyncState.code : SyncState → Nat
  | .free => 0 | .acquire => 1 | .locked => 2 | .holdover => 3

/-- Firmware update state code (R352). -/
def FwState.code : FwState → Nat
  | .idle => 0 | .staged => 1 | .armed => 2 | .switching => 3 | .trial => 4

/-- `n` little-endian bytes of a number (R6). -/
def leBytes : Nat → Nat → List Byte
  | 0, _ => []
  | n + 1, v => BitVec.ofNat 8 v :: leBytes n (v / 256)

/-- The number that little-endian bytes spell (R6). -/
def ofLE : List Byte → Nat
  | [] => 0
  | b :: bs => b.toNat + 256 * ofLE bs

/-- A little-endian field of `n` bytes at offset `off` of a byte string. -/
def field (bs : List Byte) (off n : Nat) : Nat := ofLE ((bs.drop off).take n)

/-- Two's complement reading of `w` bits. -/
def signed (w v : Nat) : Int := if v % 2 ^ w < 2 ^ (w - 1) then ((v % 2 ^ w : Nat) : Int) else ((v % 2 ^ w : Nat) : Int) - ((2 ^ w : Nat) : Int)

/-- Two's complement coding in `w` bits. -/
def unsigned (w : Nat) (i : Int) : Nat := (i % ((2 ^ w : Nat) : Int)).toNat

/-- Round up to a multiple of 64 (05, up64). -/
def up64 (x : Nat) : Nat := (x + 63) / 64 * 64

/-- Ceiling of a quotient. -/
def cdiv (a b : Nat) : Nat := (a + b - 1) / b

/-- A bit of a number. -/
def bitOf (v i : Nat) : Bool := v.testBit i

/-- A bit as a number. -/
def b2n (b : Bool) : Nat := if b then 1 else 0

/-- One step of the reflected CRC-32 register (IEEE 802.3 polynomial). -/
def crcBit (c : Nat) : Nat := if c % 2 = 1 then (c / 2) ^^^ 0xEDB88320 else c / 2

/-- The CRC-32 register after one byte. -/
def crcByte (c : Nat) (b : Byte) : Nat :=
  crcBit (crcBit (crcBit (crcBit (crcBit (crcBit (crcBit (crcBit (c ^^^ b.toNat))))))))

/-- CRC-32 (IEEE 802.3 polynomial) of a byte string (R29, R110, R115, R181, R259, R281). -/
def crc32 (bs : List Byte) : Nat := (bs.foldl crcByte 0xFFFFFFFF) ^^^ 0xFFFFFFFF

/-- The dies of a mask, in ascending order. -/
def maskDies (m : BitVec 8) : List (Fin 8) := (List.finRange 8).filter fun d => m.getLsbD d

/-- Number of set bits. -/
def popcount (v w : Nat) : Nat := ((List.range w).filter fun i => v.testBit i).length

end Sys2Proof.Machine
end

