-- ==== Sys2Proof/Machine/Ops.lean ====
section
/-! DEFINITION. The shared operations: sparse memory, poison, event logs, interrupts, access violations, suites and their
dies, tasks and their statuses. -/

namespace Sys2Proof.Machine

/-- What one command answers. -/
abbrev Out := Host.Outcome State Fault Refusal

/-! ## Sparse maps in canonical form (memory) -/

/-- Read a key; an unlisted key reads `d`. -/
def sget {β : Type} (d : β) : List (Nat × β) → Nat → β
  | [], _ => d
  | (a, v) :: m, k => if a = k then v else sget d m k

/-- Write a key, keeping keys strictly rising and no entry equal to `d`. -/
def sput {β : Type} [DecidableEq β] (d : β) : List (Nat × β) → Nat → β → List (Nat × β)
  | [], k, v => if v = d then [] else [(k, v)]
  | (a, w) :: m, k, v =>
    if k < a then (if v = d then (a, w) :: m else (k, v) :: (a, w) :: m)
    else if k = a then (if v = d then m else (k, v) :: m)
    else (a, w) :: sput d m k v

/-- Canonical form: keys strictly above `lo`, rising, no entry equal to `d`. -/
def swfFrom {β : Type} [DecidableEq β] (d : β) : Option Nat → List (Nat × β) → Bool
  | _, [] => true
  | lo, (a, v) :: m => (match lo with | none => true | some l => decide (l < a)) && !decide (v = d) && swfFrom d (some a) m

/-- Memory's canonical form: addresses strictly rising, no listed byte equal to 0, what an unlisted byte reads as (R318: the
visible memory of a suite that can run is zero filled). -/
def Memory.wf (m : List Host.Cell) : Bool := swfFrom (0 : Byte) none m

/-- A byte of the visible memory, at byte address 64 x unit + offset (R6, R193). -/
def State.byte (s : State) (a : Nat) : Byte := sget 0 s.mem a

/-- `n` bytes from a byte address. -/
def State.bytes (s : State) (a : Nat) : Nat → List Byte
  | 0 => []
  | n + 1 => s.byte a :: s.bytes (a + 1) n

/-- A little-endian number of `n` bytes in memory. -/
def State.le (s : State) (a n : Nat) : Nat := ofLE (s.bytes a n)

/-- Write bytes into a sparse memory. -/
def memPut (m : List Host.Cell) (a : Nat) : List Byte → List Host.Cell
  | [] => m
  | b :: bs => memPut (sput 0 m a b) (a + 1) bs

/-- Insert a line into the rising list of poisoned lines. -/
def poisonIns : List Nat → Nat → List Nat
  | [], u => [u]
  | v :: vs, u => if u < v then u :: v :: vs else if u = v then v :: vs else v :: poisonIns vs u

/-- Whether a line carries the poison marker (R199, R201). -/
def State.poisoned (s : State) (u : Nat) : Bool := s.poison.contains u

/-- Set the marker of a line. -/
def State.poisonLine (s : State) (u : Nat) : State := { s with poison := poisonIns s.poison u }

/-- Set the marker of each line that holds a byte of `[a, a + n)`. -/
def State.poisonRange (s : State) (a n : Nat) : State :=
  if n = 0 then s else (List.range ((a + n - 1) / 64 - a / 64 + 1)).foldl (fun t i => t.poisonLine (a / 64 + i)) s

/-- Whether any line of `[a, a + n)` carries the marker. -/
def State.poisonIn (s : State) (a n : Nat) : Bool :=
  n != 0 && s.poison.any fun u => decide (a / 64 ≤ u) && decide (u ≤ (a + n - 1) / 64)

/-- Write bytes to memory (R197): a line wholly supplied loses its marker, a partial write keeps it. A LOADed program whose
memory `State.write` changes is no longer intact (R33). -/
def State.rawWrite (s : State) (a : Nat) (bs : List Byte) : State :=
  { s with
    mem := memPut s.mem a bs,
    poison := s.poison.filter fun u => !(decide (a ≤ 64 * u) && decide (64 * u + 64 ≤ a + bs.length)) }

/-- Mark every loaded program that a write of `n` bytes at `a` touches as no longer intact (R33). -/
def touchPrograms (a n : Nat) (ps : List Program) : List Program :=
  ps.map fun p => if a < 64 * p.addr + 128 * p.count ∧ 64 * p.addr < a + n then { p with intact := false } else p

/-- The tensor table in force for a suite's tasks (R412): the RUN in flight's, or the most recent RUN's. -/
def Suite.table? (u : Suite) : Option Nat :=
  match u.run with
  | some r => some r.table
  | none => u.lastTable.map fun x => x.2.2

/-- Whether byte address `x` is the FLAGS byte of an entry of a tensor table in force: an entry whose id the tensor set holds (R412; DEDUCED,
log 13). -/
def State.isFlagByte (s : State) (x : Nat) : Bool :=
  s.suites.toList.any fun u => match u.table? with
    | none => false
    | some tb => decide (64 * tb ≤ x) && (x - 64 * tb) % 64 == 5 && u.tensSet.contains ((x - 64 * tb) / 64)

/-- A write leaves the FROZEN and BOUND flags of such an entry unchanged (R32). -/
def State.keepFlags (s : State) (a : Nat) (bs : List Byte) : List Byte :=
  if s.suites.toList.all fun u => u.table?.isNone then bs
  else bs.zipIdx.map fun (b, i) => if s.isFlagByte (a + i) then (b &&& 0xFC) ||| (s.byte (a + i) &&& 3) else b

/-- Write bytes to memory by a path other than LOAD (R32, R33, R197). -/
def State.write (s : State) (a : Nat) (bs : List Byte) : State :=
  { s.rawWrite a (s.keepFlags a bs) with suites := s.suites.map fun u => { u with programs := touchPrograms a bs.length u.programs } }

/-- Write one bit of a byte (R171, R90). -/
def State.writeBit (s : State) (a bit : Nat) (v : Bool) : State :=
  let b := (s.byte a).toNat
  let b' := if v then b ||| 2 ^ bit else b &&& (255 - 2 ^ bit)
  s.write a [BitVec.ofNat 8 b']

/-- Bytes the module writes to host memory (00 R6, R38, R118). -/
def State.hostWrite (s : State) (a : Nat) (bs : List Byte) : State := { s with host := memPut s.host a bs }

/-! ## Parts of the state -/

/-- Update one die. -/
def State.modDie (s : State) (d : Fin 8) (f : Die → Die) : State := { s with dies := s.dies.set d (f s.dies[d]) }

/-- Update one suite. -/
def State.modSuite (s : State) (k : Fin 8) (f : Suite → Suite) : State := { s with suites := s.suites.set k (f s.suites[k]) }

/-- Update one panel. -/
def State.modPanel (s : State) (d : Fin 8) (p : Fin 104) (f : Panel → Panel) : State :=
  s.modDie d fun x => { x with panels := x.panels.set p (f x.panels[p]) }

/-- Update one stack. -/
def State.modStack (s : State) (d : Fin 8) (i : Fin 12) (f : Stack → Stack) : State :=
  s.modDie d fun x => { x with stks := x.stks.set i (f x.stks[i]) }

/-- Update one port. -/
def State.modPort (s : State) (d : Fin 8) (q : Fin 2) (f : Port → Port) : State :=
  s.modDie d fun x => { x with ports := x.ports.set q (f x.ports[q]) }

/-- Update one edge. -/
def State.modEdge (s : State) (d : Fin 8) (e : Fin 3) (f : Edge → Edge) : State :=
  s.modDie d fun x => { x with edges := x.edges.set e (f x.edges[e]) }

/-- Update the management registers. -/
def State.modMgt (s : State) (f : Mgt → Mgt) : State := { s with mgt := f s.mgt }

/-- A panel. -/
def State.panel (s : State) (d : Fin 8) (p : Fin 104) : Panel := s.dies[d].panels[p]

/-- A stack. -/
def State.stack (s : State) (d : Fin 8) (i : Fin 12) : Stack := s.dies[d].stks[i]

/-- A port. -/
def State.port (s : State) (d : Fin 8) (q : Fin 2) : Port := s.dies[d].ports[q]

/-- Draw a free value: the counter moves on (log 6). -/
def State.drawFree (s : State) : Nat × State := (s.free, { s with free := s.free + 1 })

/-- A byte string of free values (log 6). -/
def State.freeBytes (s : State) : Nat → List Byte × State
  | 0 => ([], s)
  | n + 1 =>
    let (v, t) := s.drawFree
    let (bs, u) := t.freeBytes n
    (Config.freeBits 8 v :: bs, u)

/-- The bytes of a region of whole lines (unit, units) become free values; its lines keep their markers. -/
def State.freeRegion (s : State) (r : Nat × Nat) : State :=
  let (bs, u) := s.freeBytes (64 * r.2)
  ((List.range r.2).filter fun i => s.poisoned (r.1 + i)).foldl (fun w i => w.poisonLine (r.1 + i)) (u.write (64 * r.1) bs)

/-- The exponent, the counts and the history of the scale slot at a byte address become free values (R81). -/
def State.freeScaleSlot (s : State) (a : Nat) : State :=
  let (free, s1) := s.freeBytes 113
  (s1.write a (free.take 49)).write (a + 0x40) (free.drop 49)

/-- The flags, the margin and the counts of the skim slot at a byte address become free values (R81, R164). -/
def State.freeSkimSlot (s : State) (a : Nat) : State :=
  let (free, s1) := s.freeBytes 94
  (s1.write a (free.take 2)).write (a + 0x10) (free.drop 2)

/-- Generate a new key: keys are generations of a counter (log 7). -/
def State.newKey (s : State) : Nat × State := (s.keyGen, { s with keyGen := s.keyGen + 1 })

/-! ## Dies and suites -/

/-- Whether die `d` is populated (R1, R2). -/
def State.populated (s : State) (d : Nat) : Bool := decide (d < s.fuses.dies)

/-- The populated dies of suite `k`, in ascending order (R18, SUI_LAYOUT). -/
def State.suiteDies (s : State) (k : Fin 8) : List (Fin 8) :=
  (List.finRange 8).filter fun d => s.populated d && decide (s.layout[d] = k.val)

/-- The in-service dies of suite `k`. -/
def State.liveDies (s : State) (k : Fin 8) : List (Fin 8) := (s.suiteDies k).filter fun d => s.dies[d].inService

/-- The suite's coordinator: its lowest-numbered in-service die (R36). -/
def State.coordinator (s : State) (k : Fin 8) : Option (Fin 8) := (s.liveDies k).head?

/-- The suite that owns a die, if any. -/
def State.owner (s : State) (d : Fin 8) : Option (Fin 8) :=
  if h : s.layout[d] < 8 then some ⟨s.layout[d], h⟩ else none

/-- The bit mask of a list of dies. -/
def dieMaskOf (ds : List (Fin 8)) : BitVec 8 := ds.foldl (fun m d => m ||| (1 <<< d.val)) 0

/-- The die that carries the active management controller and the primary Pyrhoax (R16). -/
def State.primaryDie (s : State) : Fin 8 := if s.power.strapDie1 then 1 else 0

/-- Whether a suite number is in the layout (R302, R381). -/
def State.suitePresent (s : State) (k : Fin 8) : Bool := !(s.suiteDies k).isEmpty

/-- A die number as an index. -/
def fin8 (d : Nat) : Fin 8 := Fin.ofNat 8 d

/-- The policy limits in force: the primer's, or the defaults of R335. -/
def defaultPolicy : Policy :=
  { allow := 0x3F, scaleMax := 127, promoteMax := 0, widenMax := 16, rebalClamp := 25, rebalMinSteps := 1, pcPoison := 4,
    edgeRetry := 16, roLimit := 40, reservedZero := true }

/-- The policy in force (R334, R335). -/
def State.policy (s : State) : Policy :=
  match s.primer with
  | some p => p.policy.getD defaultPolicy
  | none => defaultPolicy

/-- Whether the primer image allows the autonomous change of bit `i` (R23, R334). -/
def State.allows (s : State) (i : Nat) : Bool := s.policy.allow.getLsbD i

/-! ## Home stacks (R193, R195) -/

/-- The home die and stack of a line address (R193). -/
def homeOf (u : Nat) : Option (Fin 8 × Fin 12) :=
  let ms := u / 2 ^ 30
  if h : ms / 12 < 8 then some (⟨ms / 12, h⟩, ⟨ms % 12, Nat.mod_lt _ (by decide)⟩) else none

/-- Whether a line address is mapped (R193). -/
def State.mapped (s : State) (u : Nat) : Bool :=
  match homeOf u with
  | none => false
  | some (d, i) => s.populated d && s.dies[d].inService && decide (u % 2 ^ 30 < (s.stack d i).cap)

/-- Whether a suite's requester may issue a request to a line (R195). -/
def State.reachable (s : State) (k : Fin 8) (u : Nat) : Bool :=
  s.mapped u && (match homeOf u with | some (d, _) => decide (s.owner d = some k) | none => false)

/-- Whether every line of `[u, u + n)` may be requested by the suite (R124, R195): in each stack window the region touches, its
first and its last line are reachable (the mapped part of a window is one interval from its start, R193). -/
def State.regionOk (s : State) (k : Fin 8) (u n : Nat) : Bool :=
  n == 0 || (List.range ((u + n - 1) / 2 ^ 30 - u / 2 ^ 30 + 1)).all fun i =>
    s.reachable k (max u ((u / 2 ^ 30 + i) * 2 ^ 30)) && s.reachable k (min (u + n - 1) ((u / 2 ^ 30 + i) * 2 ^ 30 + 2 ^ 30 - 1))

/-- The first line of `[u, u + n)` that the suite may not request. -/
def State.firstBad (s : State) (k : Fin 8) (u n : Nat) : Option Nat :=
  if n = 0 then none
  else (List.range ((u + n - 1) / 2 ^ 30 - u / 2 ^ 30 + 1)).findSome? fun i =>
    let w := (u / 2 ^ 30 + i) * 2 ^ 30
    if !s.reachable k (max u w) then some (max u w)
    else
      let cap := match homeOf w with | some (d, j) => (s.stack d j).cap | none => 0
      if w + cap ≤ u + n - 1 ∧ cap < 2 ^ 30 then some (max u (w + cap)) else none

/-- Put back cells. -/
def cellsBack (m : List Host.Cell) (l : List Host.Cell) : List Host.Cell := l.foldl (fun a c => sput 0 a c.1 c.2) m

/-- Whether a byte lies in a line that a suite may request. -/
def State.cellIn (s : State) (k : Fin 8) (c : Host.Cell) : Bool := s.reachable k (c.1 / 64)

/-- What a requester of suite `k` sees (R195): a line the suite may not request reads as zeros and carries no marker for it. -/
def State.view (s : State) (k : Fin 8) : State := { s with mem := s.mem.filter (s.cellIn k), poison := s.poison.filter (s.reachable k) }

/-- The state after a requester of suite `k` has turned its view into `t` (R195): a line the suite may not request keeps its contents and its
marker, whatever was written there. -/
def State.merge (s : State) (k : Fin 8) (t : State) : State :=
  { t with
    mem := cellsBack (t.mem.filter (s.cellIn k)) (s.mem.filter fun c => !s.cellIn k c),
    poison := (s.poison.filter fun u => !s.reachable k u).foldl poisonIns (t.poison.filter (s.reachable k)) }

/-- Run `f` as a requester of suite `k` (R195). -/
def State.confine (s : State) (k : Fin 8) (f : State → State) : State := s.merge k (f (s.view k))

/-- Set or clear a flag bit of a tensor table entry: the unwrap and freeze paths (R32). -/
def State.setEntryFlag (s : State) (e bit : Nat) (v : Bool) : State :=
  let b := (s.byte (e + 5)).toNat
  s.rawWrite (e + 5) [BitVec.ofNat 8 (if v then b ||| 2 ^ bit else b &&& (255 - 2 ^ bit))]

/-! ## Interrupts, events, violations -/

/-- Set cause bit `i` of function `fn` (0, or suite + 1) and send its message when the bit and its enable are both 1 and
the bit has just become 1 (R366). -/
def State.raise (s : State) (fn i : Nat) : State :=
  if fn = 0 then
    let old := s.mgt.intSts.getLsbD i
    let t := { s with mgt := { s.mgt with intSts := s.mgt.intSts ||| (1 <<< i) } }
    if !old && s.mgt.intEn.getLsbD i then { t with msix := (0, i) :: t.msix } else t
  else
    let k := fin8 (fn - 1)
    let u := s.suites[k]
    let old := u.intSts.getLsbD i
    let t := s.modSuite k fun v => { v with intSts := v.intSts ||| (1 <<< i) }
    if !old && u.intEn.getLsbD i then { t with msix := (fn, i) :: t.msix } else t

/-- Append a record to a log of capacity `cap` (R41, R372). -/
def EventLog.add (l : EventLog) (cap : Nat) (time code die unit : Nat) (data : List Byte) : EventLog :=
  let q := (l.seq + 1) % 65536
  let e : Event := { time := time, code := code, die := die, unit := unit, seq := q, data := (data ++ List.replicate 16 0).take 16 }
  if l.recs.length < cap then { recs := e :: l.recs, seq := q, overrun := l.overrun }
  else { recs := e :: l.recs.take (cap - 1), seq := q, overrun := l.overrun.satAdd 1 }

/-- Log an event in the management event log and raise vector 0 (R366, R372). -/
def State.mgtEvent (s : State) (code die unit : Nat) (data : List Byte) : State :=
  (s.modMgt fun m => { m with log := m.log.add 1024 s.clk.time code die unit data }).raise 0 0

/-- Log an event in a suite's log with a given TIME and raise its vector 1 (R41, R366). -/
def State.suiteEventAt (s : State) (k : Fin 8) (time code die unit : Nat) (data : List Byte) : State :=
  (s.modSuite k fun u => { u with log := u.log.add 8192 time code die unit data }).raise (k.val + 1) 1

/-- Log an event in a suite's log at the present module time. -/
def State.suiteEvent (s : State) (k : Fin 8) (code die unit : Nat) (data : List Byte) : State :=
  s.suiteEventAt k s.clk.time code die unit data

/-- Log in the log of the suite that owns a die, or in the management log for a die in no suite (R217). -/
def State.dieEvent (s : State) (d : Fin 8) (code unit : Nat) (data : List Byte) : State :=
  match s.owner d with
  | some k => s.suiteEvent k code d unit data
  | none => s.mgtEvent code d unit data

/-- Log once per step for each (code, key) (R57, R237, R265, R270). -/
def State.oncePerStep (s : State) (k : Fin 8) (code key : Nat) (f : State → State) : State :=
  if s.suites[k].once.contains (code, key) then s
  else f (s.modSuite k fun u => { u with once := (code, key) :: u.once })

/-- Record a discarded write (R359): kind, function and offset in MGT_ACC_VIOL, the count, vector 2 of function 0, and vector 3 of
a suite function. -/
def State.violation (s : State) (kind : Nat) (fn : Nat) (off : Nat) : State :=
  let w : Word := BitVec.ofNat 32 (kind * 2 ^ 29 + fn % 16 * 2 ^ 25 + off % 2 ^ 25)
  let t := (s.modMgt fun m => { m with accViol := w, accCnt := m.accCnt.satAdd 1 }).raise 0 2
  if fn = 0 then t else t.raise fn 3

/-- Change a suite's state, raising vector 8 + k of function 0 and vector 4 of its function when it changes (R366). -/
def State.setSuiteState (s : State) (k : Fin 8) (st : SuiteState) : State :=
  if s.suites[k].st = st then s
  else ((s.modSuite k fun u => { u with st := st, since := s.clk.time }).raise 0 (8 + k.val)).raise (k.val + 1) 4

/-- Change the boot stage, raising vector 4 of function 0 (R366). -/
def State.setStage (s : State) (g : Stage) : State :=
  if s.mgt.stage = g then s else (s.modMgt fun m => { m with stage := g }).raise 0 4

/-- Change the firmware update state, raising vector 5 of function 0 (R366). -/
def State.setFwState (s : State) (f : FwState) : State :=
  if s.mgt.fwState = f then s else (s.modMgt fun m => { m with fwState := f }).raise 0 5

/-! ## Tasks -/

/-- A task of a suite by its handle. -/
def State.task? (s : State) (k : Fin 8) (h : Nat) : Option Task := s.suites[k].tasks.find? fun t => t.h == h

/-- Update a task of a suite. -/
def State.modTask (s : State) (k : Fin 8) (h : Nat) (f : Task → Task) : State :=
  s.modSuite k fun u => { u with tasks := u.tasks.map fun t => if t.h == h then f t else t }

/-- Finish a task's run with a status, the more severe of it and the status of its parts so far (R40). -/
def State.finish (s : State) (k : Fin 8) (h : Nat) (st : Status) : State :=
  s.modTask k h fun t => { t with state := .finished, status := t.status.worse st }

/-- Worsen a task's status without finishing it. -/
def State.worsen (s : State) (k : Fin 8) (h : Nat) (st : Status) : State :=
  s.modTask k h fun t => { t with status := t.status.worse st }

/-- Add to a task's COUNT, saturating at 0xFFFF (R413). -/
def State.addCount (s : State) (k : Fin 8) (h n : Nat) : State :=
  s.modTask k h fun t => { t with count := min 65535 (t.count + n) }

/-- Run `f` on a task that has started; a command that names no running task finds nothing to do (log 10). -/
def State.onRunning (s : State) (k : Fin 8) (h : Nat) (f : Task → State) : State :=
  match s.task? k h with
  | some t => if t.state = .running then f t else s
  | none => s

/-- Run a started task of a suite of the given TYPE and MODE, its memory accesses confined to the suite (R195). A command that names
no such task finds nothing to do (log 10). -/
def State.runTask (s : State) (k : Fin 8) (h type mode : Nat) (f : State → Task → State) : State :=
  s.onRunning k h fun t => if t.desc.type = type ∧ t.desc.mode = mode then s.confine k fun u => f u t else s

/-- Low byte fields of a 16-byte DATA field. -/
def pack (fs : List (Nat × Nat)) : List Byte := fs.flatMap fun (n, v) => leBytes n v

/-- Log FORMAT_ERROR of R129 once for each task, tensor and kind, and add its count to COUNT (R413); the task is worsened
to FORMAT_ERROR unless `soft`. -/
def State.formatEvent (s : State) (k : Fin 8) (t : Task) (tensor kind regions count : Nat) (soft : Bool := false) : State :=
  let u := s.suiteEvent k 0x120 0xFF 0 (pack [(4, t.desc.taskId), (2, tensor), (1, kind), (1, regions), (4, count),
    (4, s.suites[k].step.toNat)])
  let u := if kind = 2 ∨ kind = 0 ∨ kind = 1 ∨ kind = 3 ∨ kind = 4 ∨ kind = 6 then u.addCount k t.h count else u
  if soft then u else (u.worsen k t.h .formatError).modSuite k fun v => { v with fmtStep := true }

/-- Log INVALID_INPUT (R57, R63, R119): once per tensor per step, counting the elements. -/
def State.invalidEvent (s : State) (k : Fin 8) (tensor kind count : Nat) : State :=
  if count = 0 then s else
  s.oncePerStep k 0x102 tensor fun t =>
    t.suiteEvent k 0x102 0xFF 0 (pack [(2, tensor), (1, kind), (1, 0), (4, s.suites[k].step.toNat), (8, count)])

/-- Log MEM_ERROR for a task (R195, R201). -/
def State.memError (s : State) (k : Fin 8) (unit kind cls taskId : Nat) : State :=
  s.suiteEvent k 0x150 0xFF 0 (pack [(5, unit), (1, unit / 2 ^ 30), (1, kind), (1, cls), (4, taskId), (4, s.suites[k].step.toNat)])

/-- Log an event of a task at most once for each key. -/
def State.onceTask (s : State) (k : Fin 8) (h : Nat) (key : Nat × Nat) (f : State → State) : State :=
  match s.task? k h with
  | none => f s
  | some t => if t.logged.contains key then s else f (s.modTask k h fun y => { y with logged := key :: y.logged })

/-- Log MEM_ERROR of a kind at most once for a task (R195, R201: one event for each task). -/
def State.taskMemError (s : State) (k : Fin 8) (t : Task) (unit kind cls : Nat) : State :=
  s.onceTask k t.h (0x150, kind) fun u => u.memError k unit kind cls t.desc.taskId

/-- A sync counter (R37); an unlisted counter is 0. -/
def Suite.ctr (u : Suite) (c : Nat) : Word := sget 0 u.ctrs c

/-- Whether a sync-counter wait is over: (counter − WAIT_VALUE) mod 2^32 < 2^31 (R37). -/
def ctrReached (ctr wait : Word) : Bool := decide ((ctr - wait).toNat < 2 ^ 31)

/-- Apply a task's signal (R37): SIGNAL_INC added to SIGNAL_CTR when it names a counter below 1,024 (R30). -/
def State.signal (s : State) (k : Fin 8) (d : TaskDesc) : State :=
  if d.signalCtr < 1024 then
    s.modSuite k fun u => { u with ctrs := sput 0 u.ctrs d.signalCtr (u.ctr d.signalCtr + d.signalInc) }
  else s

/-- FLAGS bits of a task (R29). -/
def TaskDesc.notify (d : TaskDesc) : Bool := d.flags.getLsbD 0
def TaskDesc.fence (d : TaskDesc) : Bool := d.flags.getLsbD 1
def TaskDesc.sliceable (d : TaskDesc) : Bool := d.flags.getLsbD 2
def TaskDesc.deferred (d : TaskDesc) : Bool := d.flags.getLsbD 3

/-- Tensor slot i of a task; 0xFFFF when unused (R29). -/
def TaskDesc.tensor (d : TaskDesc) (i : Nat) : Nat := d.tensors.getD i 0xFFFF

/-- Shape word i (R29). -/
def TaskDesc.dim (d : TaskDesc) (i : Nat) : Nat := d.shape.getD i 0

/-- ARGS field of `n` bytes at offset `off` (R29). -/
def TaskDesc.arg (d : TaskDesc) (off n : Nat) : Nat := field d.args off n

end Sys2Proof.Machine
end

