-- ==== Sys2Proof/Machine/Clocks.lean ====
section
/-! DEFINITION. The caps in force (R334, R336, R400, R411): TCLK edges kept per 32 by each die, and the module power cap. -/

namespace Sys2Proof.Machine

/-- The POWER section in force: the primer's, or its defaults (R334): the variant's TDP of 1.2 kW per die (R4), equal weights, 1,000 MHz. -/
def State.powerSection (s : State) : PowerSection :=
  match s.primer.bind (·.power) with
  | some p => p
  | none => { cap := 1200 * s.fuses.dies, weights := List.replicate 8 1, tclkMHz := 1000 }

/-- Edges kept per 32 for a frequency in MHz, rounded down to a multiple of 31.25 MHz, at least one (R400, R411). -/
def edgesOf (mhz : Nat) : Nat := max 1 (min 32 (mhz * 4 / 125))

/-- The cap of CLK_TCLK_CAP in edges, at most the primer's; none before the primer image is loaded. -/
def State.capK (s : State) : Nat :=
  match s.primer with
  | none => 32
  | some _ => min (edgesOf (s.clk.tclkCap.toNat % 2048)) (edgesOf s.powerSection.tclkMHz)

/-- The module power cap in watts: PWR_CAP, at most the primer's (R336, R411). -/
def State.capWatts (s : State) : Nat := min (s.power.cap.toNat % 65536) s.powerSection.cap

/-- The bounds on a die's K (R400): cap, suite budget, thermal. -/
def State.kBounds (s : State) (d : Fin 8) : List Nat := [s.capK, s.power.kBudget[d], s.power.kTherm[d]]

/-- The least of the bounds on a die's K, before the steps of the module cap. -/
def State.kLeast (s : State) (d : Fin 8) : Nat := (s.kBounds d).foldl min 32

/-- The K of a die (R400, R403): the least bound, less the steps of the module cap, at least one edge; 0 where the die is not populated. -/
def State.kOf (s : State) (d : Fin 8) : Nat := if s.populated d then max 1 (s.kLeast d - s.power.kModule) else 0

/-- CAUSE of a die's K (R411): the bounds below 32 that are the least, and the module cap while it takes steps off. -/
def State.causeOf (s : State) (d : Fin 8) : BitVec 8 :=
  let k := s.kOf d
  let m := s.kLeast d
  let at_ := fun (i : Nat) => decide (m < 32) && (s.kBounds d).getD i 32 == m
  if k = 0 ∨ 32 ≤ k then 0 else BitVec.ofNat 8 (sumBits [at_ 0, at_ 1, decide (0 < s.power.kModule), at_ 2])
where
  /-- Bits to a number, bit 0 first. -/
  sumBits : List Bool → Nat
    | [] => 0
    | b :: l => b2n b + 2 * sumBits l

/-- Apply the bounds to every die (R400), counting in PWR_THROT_CNT the changes that `counted` tells (R411). Before stage 0x1 ends K
stays 0. -/
def State.applyK (s : State) (counted : Bool) : State :=
  if s.mgt.stage = .rom then s
  else
    let ks : Vector Nat 8 := Vector.ofFn fun d => s.kOf d
    let n := ((List.finRange 8).filter fun d => decide (s.clk.k[d] ≠ ks[d]) && s.clk.k[d] != 0).length
    { s with
      clk := { s.clk with k := ks, cause := Vector.ofFn fun d => s.causeOf d },
      power := if counted then { s.power with throtCnt := s.power.throtCnt.satAdd n } else s.power }

end Sys2Proof.Machine
end

