-- ==== Sys2Proof/Machine/Numeric.lean ====
section
/-! DEFINITION. Numbers: exact dyadic values, the element formats (R55 to R59), conversion (R61 to R64), stochastic rounding
(R66 to R68), and binary32 arithmetic (R101). -/

namespace Sys2Proof.Machine

/-- A value: a dyadic number (−1)^neg × mag × 2^e (mag = 0 keeps its sign), an infinity, or a NaN. -/
inductive Num where
  | fin (neg : Bool) (mag : Nat) (e : Int)
  | inf (neg : Bool)
  | nan (neg : Bool)
  deriving DecidableEq, Repr

/-- Element formats (R55). -/
inductive Fmt where
  | t2 | int4 | e2m1 | int8 | e4m3 | e5m2 | e8m7 | m16 | int32
  deriving DecidableEq, Repr

/-- FORMAT code to format (R31, R55); reserved codes have none. -/
def Fmt.ofCode : Nat → Option Fmt
  | 0 => some .t2 | 1 => some .int4 | 2 => some .e2m1 | 3 => some .int8 | 4 => some .e4m3 | 5 => some .e5m2 | 6 => some .e8m7
  | 7 => some .m16 | 8 => some .int32 | _ => none

/-- FORMAT code. -/
def Fmt.code : Fmt → Nat
  | .t2 => 0 | .int4 => 1 | .e2m1 => 2 | .int8 => 3 | .e4m3 => 4 | .e5m2 => 5 | .e8m7 => 6 | .m16 => 7 | .int32 => 8

/-- Element width in bits (R55). -/
def Fmt.bits : Fmt → Nat
  | .t2 => 2 | .int4 => 4 | .e2m1 => 4 | .int8 => 8 | .e4m3 => 8 | .e5m2 => 8 | .e8m7 => 16 | .m16 => 16 | .int32 => 32

/-- Scale width in bytes (05): 1 for the narrow formats, 4 for M16's header, 0 for E8M7 and INT32. -/
def Fmt.sw : Fmt → Nat
  | .m16 => 4 | .e8m7 => 0 | .int32 => 0 | _ => 1

/-- The six narrow formats that the array multiplies (R83). -/
def Fmt.narrow : Fmt → Bool
  | .e8m7 => false | .m16 => false | .int32 => false | _ => true

/-- QMAX (R55). -/
def Fmt.qmax : Fmt → Nat
  | .t2 => 1 | .int4 => 7 | .e2m1 => 6 | .int8 => 127 | .e4m3 => 448 | .e5m2 => 57344 | _ => 0

/-- Mantissa width and bias of a floating format (R55); the integer formats count as width 0 with no exponent. -/
def Fmt.float? : Fmt → Option (Nat × Nat)
  | .e2m1 => some (1, 1) | .e4m3 => some (3, 7) | .e5m2 => some (2, 15) | .e8m7 => some (7, 127) | _ => none

/-- Exact formats and their LSB exponent (R84, exact-format constants). -/
def Fmt.lsb? : Fmt → Option Int
  | .t2 => some 0 | .int4 => some 0 | .e2m1 => some (-1) | .int8 => some 0 | _ => none

/-! ## Dyadic arithmetic -/

/-- ⌊log2⌋ of mag × 2^e, for mag > 0. -/
def flog (mag : Nat) (e : Int) : Int := (Nat.log2 mag : Int) + e

/-- mag × 2^e in units of 2^u: quotient, remainder and the power of two it is over. -/
def inUnits (mag : Nat) (e u : Int) : Nat × Nat × Nat :=
  if u ≤ e then (mag * 2 ^ (e - u).toNat, 0, 1)
  else let d := 2 ^ (u - e).toNat; (mag / d, mag % d, d)

/-- Compare magnitudes m1 × 2^e1 ≤ m2 × 2^e2. -/
def dyLe (m1 : Nat) (e1 : Int) (m2 : Nat) (e2 : Int) : Bool :=
  if e1 ≤ e2 then decide (m1 ≤ m2 * 2 ^ (e2 - e1).toNat) else decide (m1 * 2 ^ (e1 - e2).toNat ≤ m2)

/-- A signed dyadic of an integer and an exponent. -/
def Num.ofInt (i : Int) (e : Int) : Num := .fin (decide (i < 0)) i.natAbs e

/-- The signed integer of a finite value at exponent `e'` at or below its own. -/
def alignTo (neg : Bool) (mag : Nat) (e e' : Int) : Int :=
  let m : Int := (mag * 2 ^ (e - e').toNat : Nat)
  if neg then -m else m

/-- Exact sum of two finite values; a zero sum of opposite signs is +0 (round-to-nearest and toward +∞ agree on it). -/
def finAdd (n1 : Bool) (m1 : Nat) (e1 : Int) (n2 : Bool) (m2 : Nat) (e2 : Int) : Num :=
  if m1 = 0 ∧ m2 = 0 then .fin (n1 && n2) 0 0
  else
    let e := if e1 ≤ e2 then e1 else e2
    let i := alignTo n1 m1 e1 e + alignTo n2 m2 e2 e
    .fin (decide (i < 0)) i.natAbs e

/-- Exact comparison of two values that are not NaN: a < b. -/
def Num.lt : Num → Num → Bool
  | .fin n1 m1 e1, .fin n2 m2 e2 =>
    let e := if e1 ≤ e2 then e1 else e2
    decide (alignTo n1 m1 e1 e < alignTo n2 m2 e2 e)
  | .inf n, .inf m => n && !m
  | .inf n, .fin .. => n
  | .fin .., .inf n => !n
  | _, _ => false

/-- Whether a value is a NaN. -/
def Num.isNan : Num → Bool
  | .nan _ => true | _ => false

/-- Whether a value is zero. -/
def Num.isZero : Num → Bool
  | .fin _ 0 _ => true | _ => false

/-- The sign bit. -/
def Num.sign : Num → Bool
  | .fin n _ _ => n | .inf n => n | .nan n => n

/-- Magnitude. -/
def Num.abs : Num → Num
  | .fin _ m e => .fin false m e | .inf _ => .inf false | .nan _ => .nan false

/-- The larger of two magnitudes, NaN ignored. -/
def Num.maxAbs (a b : Num) : Num :=
  if a.isNan then b.abs else if b.isNan then a.abs else if a.abs.lt b.abs then b.abs else a.abs

/-! ## Rounding -/

/-- Rounding modes: nearest even, stochastic with the 24-bit draw U (R68), toward +∞. -/
inductive RMode where
  | rne
  | sr (u : Nat)
  | up
  deriving DecidableEq, Repr

/-- Round the quotient q + rem/den of a magnitude (R62, R64, R68). -/
def roundQ (m : RMode) (neg : Bool) (q rem den : Nat) : Nat :=
  match m with
  | .rne => if 2 * rem > den ∨ (2 * rem = den ∧ q % 2 = 1) then q + 1 else q
  | .sr u => if u < rem * 2 ^ 24 / den then q + 1 else q
  | .up => if rem ≠ 0 ∧ !neg then q + 1 else q

/-- Round mag × 2^e to a floating grid of mantissa width w and least exponent emin: the count n and its exponent, value n × 2^ulp. -/
def roundFloat (m : RMode) (w : Nat) (emin : Int) (neg : Bool) (mag : Nat) (e : Int) : Nat × Int :=
  if mag = 0 then (0, emin - w)
  else
    let ex := max (flog mag e) emin
    let ulp := ex - w
    let (q, r, d) := inUnits mag e ulp
    (roundQ m neg q r d, ulp)

/-- The exponent and mantissa bits, without sign, of n × 2^ulp on such a grid of bias `b`. -/
def packFloat (w : Nat) (b : Nat) (n : Nat) (ulp : Int) : Nat :=
  if n < 2 ^ w then n else (ulp + w + b).toNat * 2 ^ w + (n - 2 ^ w)

/-! ## Decoding elements -/

/-- A decoded element as an operand (R57, R58): its value and, where it reads as zero for being invalid, the kind of
INVALID_INPUT (0 reserved code, 1 non-finite, 2 reserved block scale). -/
structure Elt where
  v : Num
  bad : Option Nat
  deriving DecidableEq, Repr

/-- Zero. -/
def Num.zero : Num := .fin false 0 0

/-- Decode a floating code of mantissa width w and bias b: sign, exponent field, mantissa (R55). -/
def decFloat (w b : Nat) (neg : Bool) (ef m : Nat) : Num :=
  if ef = 0 then .fin neg m (1 - (b : Int) - w) else .fin neg (2 ^ w + m) ((ef : Int) - b - w)

/-- Decode an element code of a narrow format as an array operand, before scaling (R55, R57). A negative zero reads as zero. -/
def decNarrow (f : Fmt) (c : Nat) : Elt :=
  match f with
  | .t2 => if c = 0 then ⟨.zero, none⟩ else if c = 1 then ⟨.fin false 1 0, none⟩ else if c = 3 then ⟨.fin true 1 0, none⟩
           else ⟨.zero, some 0⟩
  | .int4 => ⟨.ofInt (signed 4 c) 0, none⟩
  | .int8 => ⟨.ofInt (signed 8 c) 0, none⟩
  | .e2m1 => if c % 8 = 0 then ⟨.zero, none⟩ else ⟨decFloat 1 1 (bitOf c 3) (c / 2 % 4) (c % 2), none⟩
  | .e4m3 => if c % 128 = 0 then ⟨.zero, none⟩ else if c % 128 = 127 then ⟨.zero, some 1⟩
             else ⟨decFloat 3 7 (bitOf c 7) (c / 8 % 16) (c % 8), none⟩
  | .e5m2 => if c % 128 = 0 then ⟨.zero, none⟩ else if c / 4 % 32 = 31 then ⟨.zero, some 1⟩
             else ⟨decFloat 2 15 (bitOf c 7) (c / 4 % 32) (c % 4), none⟩
  | _ => ⟨.zero, none⟩

/-- Decode an E8M7 code (R55): subnormals, infinities and NaNs included. -/
def decE8M7 (c : Nat) : Num :=
  let neg := bitOf c 15
  let ef := c / 128 % 256
  let m := c % 128
  if ef = 255 then (if m = 0 then .inf neg else .nan neg) else decFloat 7 127 neg ef m

/-- Scale a finite value by 2^x. -/
def Num.shift (v : Num) (x : Int) : Num :=
  match v with
  | .fin n m e => .fin n m (e + x)
  | w => w

/-- The value of an element of a scaled format (R58, R59, R60): block code e8 and tensor exponent S. M16 takes no S. -/
def eltValue (f : Fmt) (c e8 : Nat) (S : Int) : Elt :=
  if f = .e8m7 then ⟨decE8M7 c, none⟩
  else if f = .int32 then ⟨.ofInt (signed 32 c) 0, none⟩
  else if e8 = 0 then ⟨.zero, none⟩
  else if e8 = 255 then ⟨.zero, some 2⟩
  else if f = .m16 then
    (if c % 32768 = 0 then ⟨.zero, none⟩ else ⟨.fin (bitOf c 15) (c % 32768) ((e8 : Int) - 142), none⟩)
  else
    let d := decNarrow f c
    ⟨d.v.shift ((e8 : Int) - 127 + S), d.bad⟩

/-! ## Converting to a narrow format (R61 to R63) -/

/-- Counters of a conversion (R63). -/
structure ConvCount where
  conv : Nat
  sat : Nat
  ufl : Nat
  invalid : Nat
  deriving DecidableEq, Repr

/-- No conversion. -/
def ConvCount.zero : ConvCount := ⟨0, 0, 0, 0⟩

/-- Sum of counters. -/
def ConvCount.add (a b : ConvCount) : ConvCount := ⟨a.conv + b.conv, a.sat + b.sat, a.ufl + b.ufl, a.invalid + b.invalid⟩

/-- The code of a signed count of grid units in a narrow format. -/
def narrowCode (f : Fmt) (neg : Bool) (n : Nat) (ulp : Int) : Nat :=
  match f with
  | .t2 => if n = 0 then 0 else if neg then 3 else 1
  | .int4 => unsigned 4 (if neg then -(n : Int) else n)
  | .int8 => unsigned 8 (if neg then -(n : Int) else n)
  | .e2m1 => if n = 0 then 0 else b2n neg * 8 + packFloat 1 1 n ulp
  | .e4m3 => if n = 0 then 0 else b2n neg * 128 + packFloat 3 7 n ulp
  | .e5m2 => if n = 0 then 0 else b2n neg * 128 + packFloat 2 15 n ulp
  | _ => 0

/-- The code of ±QMAX. -/
def satCode (f : Fmt) (neg : Bool) : Nat :=
  match f with
  | .t2 => if neg then 3 else 1
  | .int4 => unsigned 4 (if neg then -7 else 7)
  | .int8 => unsigned 8 (if neg then -127 else 127)
  | .e2m1 => b2n neg * 8 + 7
  | .e4m3 => b2n neg * 128 + 126
  | .e5m2 => b2n neg * 128 + 123
  | _ => 0

/-- The code a NaN source takes (R62). -/
def nanCode (f : Fmt) : Nat := match f with | .e4m3 => 0x7F | .e5m2 => 0x7F | _ => 0

/-- Convert one value, in units of 2^ue, to a narrow format (R62, R63): code and counters. -/
def convNarrow (f : Fmt) (m : RMode) (x : Num) (ue : Int) : Nat × ConvCount :=
  match x with
  | .nan _ => (nanCode f, ⟨1, 0, 0, 1⟩)
  | .inf neg => (satCode f neg, ⟨1, 1, 0, 0⟩)
  | .fin neg mag e =>
    if mag = 0 then (0, ⟨1, 0, 0, 0⟩)
    else if !dyLe mag e f.qmax ue then (satCode f neg, ⟨1, 1, 0, 0⟩)
    else
      let (n, ulp) := match f.float? with
        | some (w, b) => roundFloat m w (1 - (b : Int)) neg mag (e - ue)
        | none => let (q, r, d) := inUnits mag e ue; (roundQ m neg q r d, 0)
      (narrowCode f neg n ulp, ⟨1, 0, b2n (n == 0), 0⟩)

/-- The smallest j with mag × 2^e ≤ q × 2^j, for positive mag and q. -/
def leastExp (mag : Nat) (e : Int) (q : Nat) : Int :=
  let j := flog mag e - (Nat.log2 q : Int) - 1
  if dyLe mag e q j then j else if dyLe mag e q (j + 1) then j + 1 else j + 2

/-- The block scale code of R61 from the largest magnitude (an infinity gives rel = 0). -/
def blockScale (f : Fmt) (S : Int) (amax : Num) : Nat :=
  match amax with
  | .fin _ 0 _ => 0
  | .fin _ mag e => (127 + min 0 (max (-126) (leastExp mag e f.qmax - S))).toNat
  | .inf _ => 127
  | .nan _ => 0

/-- A converted block (R61): scale code, element codes, counters, and the largest finite magnitude for HIST, none where no source is
finite (R73). -/
structure Block where
  e8 : Nat
  codes : List Nat
  cnt : ConvCount
  histMax : Option Num
  deriving DecidableEq, Repr

/-- Largest magnitude of the sources that are not NaN (R61). -/
def amaxOf (xs : List Num) : Num := xs.foldl Num.maxAbs .zero

/-- Largest finite magnitude of the sources (R73). -/
def finMax (xs : List Num) : Option Num :=
  match xs.filter fun x => match x with | .fin .. => true | _ => false with
  | [] => none
  | y :: l => some ((y :: l).foldl Num.maxAbs .zero)

/-- Sources of a block: the value, whether it is a marked accumulator (R90, R414), and the rounding mode of its position. -/
structure Src where
  v : Num
  marked : Bool
  mode : RMode
  deriving DecidableEq, Repr

/-- The source as the block scale sees it: a marked element counts as an infinite source with its sign (R414). -/
def Src.forScale (x : Src) : Num := if x.marked then .inf x.v.sign else x.v

/-- Convert a block of a narrow format (R61, R62, R63, R414). All codes of a zero block are 0. -/
def convBlock (f : Fmt) (S : Int) (xs : List Src) : Block :=
  let amax := amaxOf (xs.map Src.forScale)
  let e8 := blockScale f S amax
  let ue := S + (e8 : Int) - 127
  let rs := xs.map fun x =>
    if x.marked then (if f = .e4m3 ∨ f = .e5m2 then 0x7F else satCode f x.v.sign, (⟨1, 1, 0, 0⟩ : ConvCount))
    else if e8 = 0 then (0, (convNarrow f .rne x.v ue).2)
    else convNarrow f x.mode x.v ue
  { e8 := e8, codes := rs.map (·.1), cnt := rs.foldl (fun a r => a.add r.2) .zero,
    histMax := finMax ((xs.filter fun x => !x.marked).map (·.v)) }

/-- Convert to E8M7 (R64): a finite source saturates at 0x7F7F, zeros keep their sign, infinities and NaNs pass through. -/
def convE8M7 (m : RMode) (x : Num) : Nat :=
  match x with
  | .nan neg => if neg then 0xFFC0 else 0x7FC0
  | .inf neg => if neg then 0xFF80 else 0x7F80
  | .fin neg mag e =>
    let (n, ulp) := roundFloat m 7 (-126) neg mag e
    let c := packFloat 7 127 n ulp
    b2n neg * 32768 + (if c > 0x7F7F then 0x7F7F else c)

/-- The M16 header exponent of a block (R64): smallest e in 0x01–0xFE whose 32,767 units hold every magnitude; an infinite source gives
0xFE; a block of zeros gives 0x00. -/
def m16Scale (xs : List Num) : Nat :=
  match amaxOf xs with
  | .fin _ 0 _ => 0
  | .fin _ mag e => (max 1 (min 254 (leastExp mag e 32767 + 142))).toNat
  | .inf _ => 254
  | .nan _ => 0

/-- One M16 code (R64): a NaN is written as zero. -/
def convM16 (m : RMode) (x : Num) (e8 : Nat) : Nat :=
  match x with
  | .nan _ => 0
  | .inf neg => b2n neg * 32768 + 32767
  | .fin neg mag e =>
    if mag = 0 ∨ e8 = 0 then 0
    else
      let u : Int := (e8 : Int) - 142
      let (q, r, d) := inUnits mag e u
      let n := min 32767 (if dyLe mag e 32767 u then roundQ m neg q r d else 32767)
      if n = 0 then 0 else b2n neg * 32768 + n

/-- The momentum scale code of R263. -/
def momScale (f : Fmt) (xs : List Num) : Nat :=
  match amaxOf xs with
  | .fin _ 0 _ => 0
  | .fin _ mag e => (max 1 (min 254 (leastExp mag e f.qmax + 127))).toNat
  | .inf _ => 254
  | .nan _ => 0

/-! ## The stochastic rounding generator (R66, R67) -/

def mask32 : Nat := 0xFFFFFFFF

/-- Rotate left in 32 bits. -/
def rotl32 (v n : Nat) : Nat := ((v <<< n) ||| (v >>> (32 - n))) &&& mask32

/-- One round of the mixer. -/
def mixRound (x0 x1 x2 x3 k : Nat) : Nat × Nat × Nat × Nat :=
  let p := x0 * 0xCB1A6E35
  let q := x2 * 0x8F4D2C93
  ((((q >>> 32) + x1) &&& mask32) ^^^ k, rotl32 (q &&& mask32) 7, (((p >>> 32) + x3) &&& mask32) ^^^ rotl32 k 16,
    rotl32 (p &&& mask32) 13)

/-- The generator of R67: 24 bits from a 128-bit counter and the suite seed. -/
def mix (ctr : Nat) (w : Vector Word 4) : Nat :=
  let (a0, a1, a2, a3) := mixRound (ctr % 2 ^ 32) (ctr / 2 ^ 32 % 2 ^ 32) (ctr / 2 ^ 64 % 2 ^ 32) (ctr / 2 ^ 96 % 2 ^ 32)
    (w[0].toNat ^^^ 0x71C42A9D)
  let (b0, b1, b2, b3) := mixRound a0 a1 a2 a3 (w[1].toNat ^^^ 0xB35E0F61)
  let (c0, c1, c2, c3) := mixRound b0 b1 b2 b3 (w[2].toNat ^^^ 0x2D97C8E3)
  let (d0, _, _, _) := mixRound c0 c1 c2 c3 (w[3].toNat ^^^ 0xE60B5A17)
  d0 / 256

/-- The rounding counter of R66. -/
def srCounter (site tensor step idx : Nat) : Nat :=
  site % 256 * 2 ^ 112 + tensor % 65536 * 2 ^ 96 + step % 2 ^ 32 * 2 ^ 64 + idx % 2 ^ 64

/-! ## binary32 (R101, R262) -/

/-- Decode a binary32 pattern. -/
def f32dec (w : Word) : Num :=
  let n := w.toNat
  let neg := bitOf n 31
  let ef := n / 2 ^ 23 % 256
  let m := n % 2 ^ 23
  if ef = 255 then (if m = 0 then .inf neg else .nan neg) else decFloat 23 127 neg ef m

/-- Round a value to binary32 by nearest even or toward +∞, keeping subnormals. -/
def f32enc (m : RMode) (x : Num) : Word :=
  match x with
  | .nan neg => if neg then 0xFFC00000 else 0x7FC00000
  | .inf neg => if neg then 0xFF800000 else 0x7F800000
  | .fin neg mag e =>
    let (n, ulp) := roundFloat m 23 (-126) neg mag e
    let c := packFloat 23 127 n ulp
    let c' := if c < 0x7F800000 then c else if m = .up ∧ neg then 0x7F7FFFFF else 0x7F800000
    BitVec.ofNat 32 (b2n neg * 2 ^ 31 + c')

/-- The NaN an invalid operation or a NaN operand yields: a NaN operand's sign is kept; the sign of a new NaN is free (log 8). -/
def f32nan (a b : Word) : Word :=
  match f32dec a, f32dec b with
  | .nan n, _ => f32enc .rne (.nan n)
  | _, .nan n => f32enc .rne (.nan n)
  | _, _ => f32enc .rne (.nan (Config.nanSign a b))

/-- binary32 addition. -/
def f32add (m : RMode) (a b : Word) : Word :=
  match f32dec a, f32dec b with
  | .fin n1 m1 e1, .fin n2 m2 e2 => f32enc m (finAdd n1 m1 e1 n2 m2 e2)
  | .inf n, .fin .. => f32enc m (.inf n)
  | .fin .., .inf n => f32enc m (.inf n)
  | .inf n, .inf k => if n = k then f32enc m (.inf n) else f32nan a b
  | _, _ => f32nan a b

/-- Negation. -/
def f32neg (a : Word) : Word := a ^^^ 0x80000000

/-- Magnitude. -/
def f32abs (a : Word) : Word := a &&& 0x7FFFFFFF

/-- binary32 subtraction. -/
def f32sub (m : RMode) (a b : Word) : Word :=
  match f32dec b with
  | .nan _ => f32nan a b
  | _ => f32add m a (f32neg b)

/-- binary32 multiplication. -/
def f32mul (m : RMode) (a b : Word) : Word :=
  match f32dec a, f32dec b with
  | .fin n1 m1 e1, .fin n2 m2 e2 => f32enc m (.fin (n1 != n2) (m1 * m2) (e1 + e2))
  | .inf n, .fin k mg _ => if mg = 0 then f32nan a b else f32enc m (.inf (n != k))
  | .fin k mg _, .inf n => if mg = 0 then f32nan a b else f32enc m (.inf (n != k))
  | .inf n, .inf k => f32enc m (.inf (n != k))
  | _, _ => f32nan a b

/-- A quotient with 64 guard bits and a sticky bit, enough for one correct rounding to 24 bits. -/
def divSticky (m1 : Nat) (e1 : Int) (m2 : Nat) (e2 : Int) : Nat × Int :=
  let sh := 64 + Nat.log2 m2
  let n := m1 * 2 ^ sh
  (2 * (n / m2) + (if n % m2 = 0 then 0 else 1), e1 - e2 - sh - 1)

/-- binary32 division. -/
def f32div (m : RMode) (a b : Word) : Word :=
  match f32dec a, f32dec b with
  | .fin n1 m1 e1, .fin n2 m2 e2 =>
    if m2 = 0 then (if m1 = 0 then f32nan a b else f32enc m (.inf (n1 != n2)))
    else let (q, e) := divSticky m1 e1 m2 e2; f32enc m (.fin (n1 != n2) q e)
  | .inf n, .fin k _ _ => f32enc m (.inf (n != k))
  | .fin k _ _, .inf n => f32enc m (.fin (n != k) 0 0)
  | _, _ => f32nan a b

/-- Integer square root, bit by bit from bit `i`. -/
def isqrtGo (n : Nat) : Nat → Nat → Nat
  | 0, r => r
  | i + 1, r => let t := r + 2 ^ i; isqrtGo n i (if t * t ≤ n then t else r)

/-- ⌊√n⌋. -/
def isqrt (n : Nat) : Nat := isqrtGo n (Nat.log2 n / 2 + 1) 0

/-- A square root with enough bits and a sticky bit for one correct rounding to 24 bits. -/
def sqrtSticky (mag : Nat) (e : Int) : Nat × Int :=
  let sh : Nat := if e % 2 = 0 then 64 else 65
  let n := mag * 2 ^ sh
  let r := isqrt n
  (2 * r + (if r * r = n then 0 else 1), (e - sh) / 2 - 1)

/-- binary32 square root. -/
def f32sqrt (m : RMode) (a : Word) : Word :=
  match f32dec a with
  | .fin neg mag e =>
    if mag = 0 then a else if neg then f32nan a a else let (r, x) := sqrtSticky mag e; f32enc m (.fin false r x)
  | .inf false => a
  | _ => f32nan a a

/-- a < b on binary32 (false when either is a NaN). -/
def f32lt (a b : Word) : Bool := (f32dec a).lt (f32dec b)

/-- a > 0. -/
def f32pos (a : Word) : Bool := f32lt 0 a

/-- max of R101: a NaN when either operand is a NaN. -/
def f32max (a b : Word) : Word :=
  if (f32dec a).isNan then f32enc .rne (f32dec a) else if (f32dec b).isNan then f32enc .rne (f32dec b) else if f32lt a b then b else a

/-- min of R101. -/
def f32min (a b : Word) : Word :=
  if (f32dec a).isNan then f32enc .rne (f32dec a) else if (f32dec b).isNan then f32enc .rne (f32dec b) else if f32lt b a then b else a

/-- Fixed-point precision of the elementary functions: 2^−320 (log 11). -/
def expP : Nat := 320

/-- Σ r^i / i! in fixed point, `n` more terms from term index `i`. -/
def expSeries (r : Nat) : Nat → Nat → Nat → Nat → Nat
  | 0, _, _, acc => acc
  | n + 1, i, t, acc => let t' := t * r / 2 ^ expP / i; expSeries r n (i + 1) t' (acc + t')

/-- Repeated squaring in fixed point. -/
def sqTimes : Nat → Nat → Nat
  | 0, v => v
  | n + 1, v => sqTimes n (v * v / 2 ^ expP)

/-- e^x in fixed point, for x ≥ 0 given in fixed point: the series at x/256, squared eight times. -/
def expFix (x : Nat) : Nat := sqTimes 8 (expSeries (x / 256) 80 1 (2 ^ expP) (2 ^ expP))

/-- A magnitude in fixed point. -/
def toFix (mag : Nat) (e : Int) : Nat := (inUnits mag e (-(expP : Int))).1

/-- e^x, correctly rounded to nearest even (R101; 320 bits decide every binary32 argument, log 11). -/
def f32exp (a : Word) : Word :=
  match f32dec a with
  | .nan n => f32enc .rne (.nan n)
  | .inf neg => if neg then 0 else a
  | .fin neg mag e =>
    if mag = 0 then 0x3F800000
    else if dyLe 128 0 mag e then (if neg then 0 else 0x7F800000)
    else
      let E := expFix (toFix mag e)
      if neg then f32enc .rne (.fin false (2 ^ (2 * expP) / E) (-(expP : Int))) else f32enc .rne (.fin false E (-(expP : Int)))

/-- tanh x, correctly rounded to nearest even (R101, log 11). -/
def f32tanh (a : Word) : Word :=
  match f32dec a with
  | .nan n => f32enc .rne (.nan n)
  | .inf neg => if neg then 0xBF800000 else 0x3F800000
  | .fin neg mag e =>
    if mag = 0 then a
    else if dyLe 32 0 mag e then (if neg then 0xBF800000 else 0x3F800000)
    else
      let E := expFix (toFix (2 * mag) e)
      f32enc .rne (.fin neg ((E - 2 ^ expP) * 2 ^ expP / (E + 2 ^ expP)) (-(expP : Int)))

/-- The binary32 of an integer times a power of two, nearest even. -/
def f32ofInt (i : Int) (e : Int) : Word := f32enc .rne (.ofInt i e)

end Sys2Proof.Machine
end

