-- ==== Sys2Proof/Machine/Operands.lean ====
section
/-! DEFINITION. Operand forms: task descriptors (R29, R30), tensor descriptors (R31, R32), view words (R125), the scale exponent of
a tensor (R60), and how each layout places its elements (R107 to R116) with the validation rules of R124. -/

namespace Sys2Proof.Machine

/-! ## Task descriptors -/

/-- Parse the 128 bytes of a task descriptor (R29). -/
def parseTask (bs : List Byte) : TaskDesc :=
  { type := field bs 0 1, mode := field bs 1 1, flags := BitVec.ofNat 16 (field bs 2 2), taskId := field bs 4 4,
    dieMask := BitVec.ofNat 8 (field bs 8 1), prio := BitVec.ofNat 8 (field bs 9 1), phase := field bs 0xA 1,
    gridFix := BitVec.ofNat 32 (field bs 0xC 4), waitCtr := field bs 0x10 2, signalCtr := field bs 0x12 2,
    waitValue := BitVec.ofNat 32 (field bs 0x14 4), signalInc := BitVec.ofNat 32 (field bs 0x18 4), timeout := field bs 0x1C 4,
    tensors := (List.range 8).map fun i => field bs (0x20 + 2 * i) 2,
    shape := (List.range 8).map fun i => field bs (0x30 + 4 * i) 4, args := (bs.drop 0x50).take 44 }

/-- The ARGS bytes that a type and mode name, as (first, last) ranges; every other byte is reserved (R118, R131, R152, R164, R238,
R255, R283, R104, R79 and the tables of 02). `none` for a mode the type does not have. -/
def argRanges (type mode : Nat) : Option (List (Nat × Nat)) :=
  match type, mode with
  | 1, 0 | 1, 1 | 1, 2 => some [(0, 8), (12, 20), (24, 27), (32, 43)]
  | 2, 0 => some [(0, 8), (10, 11), (32, 43)]
  | 2, 1 => some [(0, 8), (10, 11), (16, 20), (24, 27), (32, 43)]
  | 2, 2 => some [(0, 11)]
  | 2, 3 => some [(0, 5)]
  | 2, 4 | 2, 5 => some [(0, 8)]
  | 3, 0 => some [(0, 17), (20, 23)]
  | 3, 1 => some [(0, 3), (20, 23)]
  | 3, 2 => some [(0, 13)]
  | 3, 3 => some [(20, 23)]
  | 3, 4 | 3, 5 => some [(0, 7), (16, 31)]
  | 3, 6 => some []
  | 3, 7 => some [(8, 11)]
  | 4, m => if m ≤ 9 then some [(0, 16), (20, 21)] else none
  | 5, m => if m ≤ 5 then some [(0, 5), (8, 11)] else none
  | 6, m => if m ≤ 2 then some [(0, 4), (8, 11)] else none
  | 7, 0 => some [(0, 5)]
  | 7, 1 => some [(0, 8), (12, 20), (24, 27), (32, 43)]
  | 8, 0 => some [(0, 1), (4, 7)]
  | 9, 0 => some [(0, 14)]
  | 9, 1 => some [(0, 4)]
  | 9, 2 | 9, 3 => some [(0, 8)]
  | 10, 0 => some [(0, 17)]
  | 10, 1 => some []
  | 10, 2 => some [(0, 3)]
  | 10, 3 => some [(0, 16)]
  | _, _ => none

/-- Reserved bits inside named ARGS bytes: (byte, reserved mask) (R100, R118, R131, R152, R238, R79). -/
def argMasks (type mode : Nat) : List (Nat × Nat) :=
  match type, mode with
  | 1, _ => [(8, 0xF8), (33, 0xF0), (0, 0xFF), (2, 0xFF), (4, 0xFF), (6, 0xFF), (3, 0x03), (7, 0x03)]
  | 2, 0 | 2, 1 => [(8, 0xFE), (33, 0xF0), (0, 0xFF), (2, 0xFF), (4, 0xFF), (6, 0xFF), (3, 0x03), (7, 0x03)]
  | 2, 2 | 2, 3 => [(4, 0xFC)]
  | 3, 0 => [(12, 0xFC), (20, 0xFF), (22, 0xFF), (23, 0x03)]
  | 3, 2 => [(12, 0xFC)]
  | 3, 1 | 3, 3 => [(20, 0xFF), (22, 0xFF), (23, 0x03)]
  | 4, _ => [(2, 0xFC), (20, 0xF0)]
  | 7, 1 => [(8, 0xF8), (33, 0xF0), (0, 0xFF), (2, 0xFF), (4, 0xFF), (6, 0xFF), (3, 0x03), (7, 0x03)]
  | 9, 0 => [(5, 0xF8)]
  | _, _ => []

/-- Whether a reserved ARGS bit is set, or the mode is undefined. -/
def argsBad (d : TaskDesc) : Bool :=
  match argRanges d.type d.mode with
  | none => true
  | some rs =>
    ((List.range 44).any fun i => !(rs.any fun r => decide (r.1 ≤ i) && decide (i ≤ r.2)) && (d.args.getD i 0) != 0) ||
    (argMasks d.type d.mode).any fun m => (d.args.getD m.1 0).toNat &&& m.2 != 0

/-- The rejection rule of R30, with R178's rule for DEFERRED and the module's suite dies. DESIGN CHOICE (log 62): a PHASE above 7 and a MODE that
the type does not have are rejected too. -/
def taskRejected (suiteMask : BitVec 8) (bs : List Byte) : Bool :=
  let d := parseTask bs
  crc32 (bs.take 124) != field bs 0x7C 4 || d.type == 0 || decide (d.type > 10) ||
  (d.flags &&& 0xFFF0) != 0 || (d.prio &&& 0xFC) != 0 || decide (d.phase > 7) || field bs 0xB 1 != 0 ||
  (d.gridFix &&& 0x7FFFFF00) != 0 || argsBad d ||
  (d.deferred && !(d.type == 1 && (d.phase == 2 || d.phase == 3))) ||
  d.dieMask == 0 || (d.dieMask &&& ~~~suiteMask) != 0 ||
  !(d.waitCtr == 0xFFFF || decide (d.waitCtr < 1024)) || !(d.signalCtr == 0xFFFF || decide (d.signalCtr < 1024))

/-! ## Tensor descriptors -/

/-- Layouts (R31). -/
inductive Layout where
  | d | m4 | st | bk
  deriving DecidableEq, Repr

/-- LAYOUT code (R31). -/
def Layout.ofCode : Nat → Option Layout
  | 0 => some .d | 1 => some .m4 | 2 => some .st | 3 => some .bk | _ => none

/-- A tensor descriptor (R31), parsed. `at_` is the byte address of its table entry. -/
structure Tensor where
  id : Nat
  fmt : Fmt
  layout : Layout
  rank : Nat
  flags : BitVec 8
  slot : Nat
  size : List Nat
  stride : List Nat
  base : Nat
  index : Nat
  twin : Nat
  skim : Nat
  at_ : Nat
  deriving DecidableEq, Repr

def Tensor.frozen (t : Tensor) : Bool := t.flags.getLsbD 0
def Tensor.bound (t : Tensor) : Bool := t.flags.getLsbD 1
def Tensor.hasSkim (t : Tensor) : Bool := t.flags.getLsbD 2
def Tensor.hasTwin (t : Tensor) : Bool := t.flags.getLsbD 3
def Tensor.retain (t : Tensor) : Bool := t.flags.getLsbD 4

/-- Parse a tensor descriptor at its table entry; `none` where R32 refuses it. -/
def parseTensor (bs : List Byte) (id addr : Nat) : Option Tensor :=
  match Fmt.ofCode (field bs 2 1), Layout.ofCode (field bs 3 1) with
  | some f, some l =>
    let rank := field bs 4 1
    let fl : BitVec 8 := BitVec.ofNat 8 (field bs 5 1)
    if field bs 0 2 ≠ id ∨ rank = 0 ∨ rank > 5 ∨ (fl &&& 0xE0) ≠ 0 then none
    else some
      { id := id, fmt := f, layout := l, rank := rank, flags := fl, slot := field bs 6 2,
        size := (List.range 5).map fun i => field bs (8 + 4 * i) 4, stride := 0 :: (List.range 4).map fun i => field bs (0x1C + 4 * i) 4,
        base := field bs 0x2C 5, index := field bs 0x31 5, twin := field bs 0x36 5, skim := field bs 0x3B 5, at_ := addr }
  | _, _ => none

/-- Extent of dimension i. -/
def Tensor.dim (t : Tensor) (i : Nat) : Nat := t.size.getD i 1

/-- NC and NR of 05. -/
def Tensor.nc (t : Tensor) : Nat := t.dim 0
def Tensor.nr (t : Tensor) : Nat := t.dim 1 * t.dim 2 * t.dim 3 * t.dim 4

/-- Number of elements of the dense shape. -/
def Tensor.elems (t : Tensor) : Nat := t.nc * t.nr

/-- The tensor table in force for the suite's tasks (R412): the RUN in flight, or the most recent RUN. -/
def State.table? (s : State) (k : Fin 8) : Option Nat :=
  s.suites[k].table?

/-- Read a tensor descriptor (R31, R32): none where it is refused. -/
def State.tensor? (s : State) (k : Fin 8) (id : Nat) : Option Tensor :=
  if id = 0xFFFF then none else
  match s.table? k with
  | none => none
  | some u => parseTensor (s.bytes (64 * u + 64 * id) 64) id (64 * u + 64 * id)

/-! ## Scale slots (R60, R70, R72) -/

/-- A 40-bit address in 64-byte units from its two registers. -/
def addr40 (lo hi : Word) : Nat := lo.toNat + (hi.toNat % 256) * 2 ^ 32

/-- Byte address of a scale slot (R72). -/
def Suite.slotAddr (u : Suite) (slot : Nat) : Nat := 64 * addr40 u.sclLo u.sclHi + 128 * slot

/-- Number of scale slots (R70). -/
def Suite.slots (u : Suite) : Nat := u.sclSlots.toNat % 65536

/-- Whether a tensor's SCALE_SLOT may be named (R60). -/
def State.slotOk (s : State) (k : Fin 8) (t : Tensor) : Bool :=
  !t.fmt.narrow || t.slot == 0xFFFF || decide (t.slot < s.suites[k].slots)

/-- The exponent S of a tensor (R60); E8M7, M16 and INT32 ignore SCALE_SLOT. -/
def State.slotS (s : State) (k : Fin 8) (t : Tensor) : Int :=
  if t.slot = 0xFFFF ∨ !t.fmt.narrow then 0 else signed 8 (s.byte (s.suites[k].slotAddr t.slot + 0x30)).toNat

/-- Whether a tensor's conversions use stochastic rounding (R65, slot FLAGS.SR). -/
def State.slotSR (s : State) (k : Fin 8) (t : Tensor) : Bool :=
  t.fmt.narrow && t.slot != 0xFFFF && bitOf (s.byte (s.suites[k].slotAddr t.slot + 0x31)).toNat 1

/-- A saturating 64-bit count in memory. -/
def State.bump64 (s : State) (a n : Nat) : State := if n = 0 then s else s.write a (leBytes 8 (min (2 ^ 64 - 1) (s.le a 8 + n)))

/-- Whether a tensor's conversions are counted (R60, R63): a narrow format with a scale slot. -/
def Tensor.counts (t : Tensor) : Bool := t.fmt.narrow && t.slot != 0xFFFF

/-- What a slot holds while it is unspecified (R81): free values again, whatever has just been written. -/
def State.respoilScale (s : State) (k : Fin 8) (slot : Nat) : State :=
  if s.suites[k].unspecScale.contains slot then s.freeScaleSlot (s.suites[k].slotAddr slot) else s

/-- Count a tensor's conversions in its slot and raise the HIST entry of a step (R63, R73); INVALID also counts in SFN_SCL_INVALID (R70).
`hist` is none where no source was finite. -/
def State.countConvAt (s : State) (k : Fin 8) (t : Tensor) (c : ConvCount) (hist : Option Num) (step : Nat) : State :=
  if !t.counts then s else
  let a := s.suites[k].slotAddr t.slot
  let s1 := (((s.bump64 (a + 0x40) c.conv).bump64 (a + 0x48) c.sat).bump64 (a + 0x50) c.ufl).bump64 (a + 0x58) c.invalid
  let s2 := s1.modSuite k fun u => { u with sclInvalid := u.sclInvalid.satAdd c.invalid }
  let h := a + 2 * (step % 24)
  let old := s2.le h 2
  let s3 := match hist with
    | none => s2
    | some x =>
      let new := convE8M7 .up x.abs
      if old = 0x7FC0 ∨ (decE8M7 old).lt (decE8M7 new) then s2.write h (leBytes 2 new) else s2
  s3.respoilScale k t.slot

/-- Count a tensor's conversions in the present step. -/
def State.countConv (s : State) (k : Fin 8) (t : Tensor) (c : ConvCount) (hist : Option Num) : State :=
  s.countConvAt k t c hist s.suites[k].step.toNat

/-- Count elements read as invalid operands (R57): the INVALID count of the slot and the event. -/
def State.countInvalid (s : State) (k : Fin 8) (t : Tensor) (kind n : Nat) : State :=
  if n = 0 then s else (s.countConv k t ⟨0, 0, 0, n⟩ none).invalidEvent k t.id kind n

/-! ## Layout D -/

/-- Scale area and value area sizes of a D row record (R107). -/
def dScale (f : Fmt) (nc : Nat) : Nat := up64 (cdiv nc 32 * f.sw)
def dValue (f : Fmt) (nc : Nat) : Nat := up64 (cdiv nc 32 * 32 * f.bits / 8)

/-- Row record size of a D tensor (R107). -/
def dRecord (f : Fmt) (nc : Nat) : Nat := dScale f nc + dValue f nc

/-- Extent of a D tensor in bytes up to dimension k (R108). -/
def Tensor.extent (t : Tensor) : Nat → Nat
  | 0 => dRecord t.fmt t.nc
  | k + 1 => if t.dim (k + 1) ≤ 1 then t.extent k else 64 * t.stride.getD (k + 1) 0 * (t.dim (k + 1) - 1) + t.extent k

/-- Validity of a D tensor (R108) and of a sparse one's strides (R124); HAS_TWIN only on ST. -/
def Tensor.valid (t : Tensor) : Bool :=
  (match t.layout with
   | .d => (List.range 4).all fun k => decide (t.dim (k + 1) ≤ 1) || decide (t.extent k ≤ 64 * t.stride.getD (k + 1) 0)
   | _ => t.stride.all (· == 0)) && (!t.hasTwin || t.layout == .st)

/-- Split a flattened outer index into (i1, i2, i3, i4) (R66, 05). -/
def Tensor.outer (t : Tensor) (r : Nat) : List Nat :=
  [r % t.dim 1, r / t.dim 1 % t.dim 2, r / t.dim 1 / t.dim 2 % t.dim 3, r / t.dim 1 / t.dim 2 / t.dim 3]

/-- Byte address of a D tensor's row record (R107). -/
def Tensor.rowAddr (t : Tensor) (idx : List Nat) : Nat :=
  64 * (t.base + (idx.zipIdx.foldl (fun a x => a + x.1 * t.stride.getD (x.2 + 1) 0) 0))

/-- Where an element is stored: its row and column in the dense shape, the address of its scale (0 where the format has none), the
base and index of its packed value, and its scale group's number. -/
structure Place where
  row : Nat
  col : Nat
  scaleAt : Nat
  valAt : Nat
  idx : Nat
  group : Nat
  deriving DecidableEq, Repr

/-- Place of element (row r, column c) of a D tensor (R107). -/
def Tensor.dPlace (t : Tensor) (r c : Nat) : Place :=
  let a := t.rowAddr (t.outer r)
  { row := r, col := c, scaleAt := a + c / 32 * t.fmt.sw, valAt := a + dScale t.fmt t.nc, idx := c, group := r * cdiv t.nc 32 + c / 32 }

/-- Read the code at index i of a packed run (R56). -/
def State.code (s : State) (f : Fmt) (base i : Nat) : Nat :=
  match f.bits with
  | 2 => (s.byte (base + i / 4)).toNat / 4 ^ (i % 4) % 4
  | 4 => (s.byte (base + i / 2)).toNat / 16 ^ (i % 2) % 16
  | w => s.le (base + i * (w / 8)) (w / 8)

/-- Write the code at index i of a packed run (R56). -/
def State.putCode (s : State) (f : Fmt) (base i c : Nat) : State :=
  match f.bits with
  | 2 => let a := base + i / 4; let b := (s.byte a).toNat; let sh := 4 ^ (i % 4)
         s.write a [BitVec.ofNat 8 (b - b / sh % 4 * sh + c % 4 * sh)]
  | 4 => let a := base + i / 2; let b := (s.byte a).toNat; let sh := 16 ^ (i % 2)
         s.write a [BitVec.ofNat 8 (b - b / sh % 16 * sh + c % 16 * sh)]
  | w => s.write (base + i * (w / 8)) (leBytes (w / 8) c)

/-- Byte range of the code at index i: the address of its line. -/
def codeLine (f : Fmt) (base i : Nat) : Nat := (base + i * f.bits / 8) / 64

/-- An element as read: place, stored code, block code, value, invalid kind, whether a line it lies in is poisoned (read as zero,
R201), and its block exponent b = e − 127 + S when the block code is in 0x01–0xFE. -/
structure Ent where
  row : Nat
  col : Nat
  code : Nat
  e8 : Nat
  q : Num
  v : Num
  bad : Option Nat
  pois : Bool
  b : Option Int
  deriving DecidableEq, Repr

/-- Read the element at a place (R57 to R60, R201). -/
def State.readAt (s : State) (f : Fmt) (S : Int) (p : Place) : Ent :=
  let c := s.code f p.valAt p.idx
  let e8 := if f.sw = 0 then 127 else (s.byte p.scaleAt).toNat
  let pois := s.poisoned (codeLine f p.valAt p.idx) || (f.sw != 0 && s.poisoned (p.scaleAt / 64))
  let el := eltValue f c e8 S
  { row := p.row, col := p.col, code := c, e8 := e8, q := if pois then .zero else (if f.narrow then (decNarrow f c).v else el.v),
    v := if pois then .zero else el.v, bad := if pois then none else el.bad, pois := pois,
    b := if e8 = 0 ∨ e8 = 255 then none else some ((e8 : Int) - 127 + S) }

/-! ## Sparse structures (R109 to R116, R124) -/

/-- A strip (R111): its number, row and window, the columns of the slots that exist, its COUNT field, and whether it passes its check. -/
structure Strip where
  no : Nat
  row : Nat
  window : Nat
  cols : List Nat
  cnt : Nat
  ok : Bool
  deriving DecidableEq, Repr

/-- A lane of the lane table (R114): its row, its first strip and its strips. -/
structure Lane where
  row : Nat
  first : Nat
  strips : Nat
  deriving DecidableEq, Repr

/-- A structure as read: places of the stored positions in storage order, the number of failing strips or groups, the strips of an ST
tensor, and its header's fields; `nStrips` counts the strips of ST or the stored blocks of BK;
`lanes` is the lane table in order. -/
structure Struct where
  places : List Place
  bad : Nat
  strips : List Strip
  onehot : Bool
  laneStrips : Nat
  epoch : Nat
  nStrips : Nat
  lanes : List Lane
  deriving DecidableEq, Repr

/-- Why a structure stops its task (R124). -/
inductive Refuse where
  | denied
  | format
  deriving DecidableEq, Repr

/-- An ST header (R110). -/
structure StHdr where
  strips : Nat
  rows : Nat
  nnz : Nat
  lanes : Nat
  laneStrips : Nat
  flags : Nat
  dirOff : Nat
  laneOff : Nat
  stripOff : Nat
  epoch : Nat
  ok : Bool
  deriving DecidableEq, Repr

/-- Read an ST header at a byte address (R110). -/
def State.stHdr (s : State) (a : Nat) : StHdr :=
  let bs := s.bytes a 64
  { strips := field bs 0 4, rows := field bs 4 4, nnz := field bs 8 8, lanes := field bs 0x10 4, laneStrips := field bs 0x14 1,
    flags := field bs 0x15 1, dirOff := field bs 0x18 4, laneOff := field bs 0x1C 4, stripOff := field bs 0x20 4,
    epoch := field bs 0x24 4,
    ok := crc32 (bs.take 60) == field bs 0x3C 4 }

/-- Disjoint unit ranges, each from unit 1 (R110). -/
def disjoint3 (a an b bn c cn : Nat) : Bool :=
  let dj := fun (x xn y yn : Nat) => xn == 0 || yn == 0 || decide (x + xn ≤ y) || decide (y + yn ≤ x)
  decide (1 ≤ a) && decide (1 ≤ b) && decide (1 ≤ c) && dj a an b bn && dj a an c cn && dj b bn c cn

/-- Units a byte count takes. -/
def units (n : Nat) : Nat := up64 n / 64

/-- The row of strip j by the directory. -/
def dirRow (dir : List Nat) (j : Nat) : Nat := (dir.filter fun x => decide (x ≤ j)).length - 1

/-- Non-decreasing list. -/
def nondec : List Nat → Bool
  | a :: b :: l => decide (a ≤ b) && nondec (b :: l)
  | _ => true

/-- Strictly ascending list. -/
def ascending : List Nat → Bool
  | a :: b :: l => decide (a < b) && ascending (b :: l)
  | _ => true

/-- Read a strip record (R111) and check it (R124). -/
def State.strip (s : State) (a j nc : Nat) (dir : List Nat) : Strip :=
  let bs := s.bytes a 64
  let cv := field bs 0 48
  let wc := field bs 0x34 4
  let cnt := wc / 2 ^ 20 % 64
  let win := wc % 2 ^ 20
  let all := (List.range 32).map fun i => cv / 2 ^ (12 * i) % 4096
  let offs := all.take cnt
  let cols := offs.map (win * 4096 + ·)
  { no := j, row := field bs 0x30 4, window := win, cols := cols, cnt := cnt,
    ok := decide (1 ≤ cnt) && decide (cnt ≤ 32) && ascending offs && cols.all (fun c => decide (c < nc)) &&
          field bs 0x30 4 == dirRow dir j && (all.drop cnt).all (· == 0) && decide (wc < 2 ^ 26) && field bs 0x38 8 == 0 }

/-- Sum of a list. -/
def sumL (l : List Nat) : Nat := l.foldl (· + ·) 0

/-- Read and validate an ST structure (R110 to R114, R124). -/
def State.stStruct (s : State) (k : Fin 8) (t : Tensor) : Except Refuse Struct :=
  let a := 64 * t.index
  if !s.regionOk k t.index 1 then .error .denied else
  let h := s.stHdr a
  let dirU := units (4 * (t.nr + 1))
  let laneU := units (8 * h.lanes)
  if !h.ok || h.rows != t.nr || h.laneStrips == 0 || decide (h.laneStrips > 8) ||
     !disjoint3 h.dirOff dirU h.laneOff laneU h.stripOff h.strips then .error .format
  else if !(s.regionOk k (t.index + h.dirOff) dirU && s.regionOk k (t.index + h.laneOff) laneU &&
     s.regionOk k (t.index + h.stripOff) h.strips &&
     s.regionOk k t.base (units (h.strips * t.fmt.sw) + units (h.strips * 32 * t.fmt.bits / 8))) then .error .denied
  else
    let dir := (List.range (t.nr + 1)).map fun r => s.le (a + 64 * h.dirOff + 4 * r) 4
    let strips := (List.range h.strips).map fun j => s.strip (a + 64 * (h.stripOff + j)) j t.nc dir
    let lanes := (List.range h.lanes).map fun i => s.bytes (a + 64 * h.laneOff + 8 * i) 8
    let laneOk := lanes.all fun l =>
      let f := field l 0 4; let n := field l 6 1
      decide (1 ≤ n) && decide (n ≤ h.laneStrips) && decide (f + n ≤ h.strips) && dirRow dir f == dirRow dir (f + n - 1) &&
      field l 4 2 == sumL (((strips.drop f).take n).map (·.cnt))
    let cover := lanes.flatMap fun l => (List.range (field l 6 1)).map (field l 0 4 + ·)
    if !nondec dir || dir.getLastD 0 != h.strips || !laneOk || cover.length != h.strips ||
       !((List.range h.strips).all fun j => cover.contains j) then .error .format
    else
      let plane := 64 * t.base + up64 (h.strips * t.fmt.sw)
      let good := strips.filter (·.ok)
      .ok { places := good.flatMap fun p => p.cols.zipIdx.map fun (c, i) =>
              { row := p.row, col := c, scaleAt := 64 * t.base + p.no * t.fmt.sw, valAt := plane + 32 * p.no * t.fmt.bits / 8,
                idx := i, group := p.no },
            bad := strips.length - good.length, strips := strips, onehot := h.flags % 2 == 1, laneStrips := h.laneStrips,
            epoch := h.epoch, nStrips := h.strips,
            lanes := lanes.map fun l => ⟨dirRow dir (field l 0 4), field l 0 4, field l 6 1⟩ }

/-- Sizes of an M4 row's regions (R109). -/
def m4A (f : Fmt) (nc : Nat) : Nat := up64 (cdiv nc 32 * f.sw)
def m4V (f : Fmt) (nc : Nat) : Nat := up64 (cdiv nc 16 * 4 * f.bits / 8)

/-- Set bits of a 16-bit bitmap, ascending. -/
def bits16 (v : Nat) : List Nat := (List.range 16).filter fun i => v.testBit i

/-- Read an M4 structure (R109, R124): a failing group reads as zero. -/
def State.m4Struct (s : State) (k : Fin 8) (t : Tensor) : Except Refuse Struct :=
  let ng := cdiv t.nc 16
  let rec64 := m4A t.fmt t.nc + m4V t.fmt t.nc
  if !(s.regionOk k t.index (units (t.nr * up64 (2 * ng))) && s.regionOk k t.base (units (t.nr * rec64))) then .error .denied
  else
    let groups := (List.range t.nr).flatMap fun r => (List.range ng).map fun g =>
      (r, g, bits16 (s.le (64 * t.index + r * up64 (2 * ng) + 2 * g) 2))
    let good := groups.filter fun (_, g, bs) => decide (bs.length ≤ 4) && bs.all fun b => decide (16 * g + b < t.nc)
    .ok { places := good.flatMap fun (r, g, bs) => bs.zipIdx.map fun (b, i) =>
            { row := r, col := 16 * g + b, scaleAt := 64 * t.base + r * rec64 + g / 2 * t.fmt.sw,
              valAt := 64 * t.base + r * rec64 + m4A t.fmt t.nc, idx := 4 * g + i, group := r * cdiv t.nc 32 + g / 2 },
          bad := groups.length - good.length, strips := [], onehot := false, laneStrips := 0, epoch := 0, nStrips := 0, lanes := [] }

/-- Read and validate a BK structure (R116, R124). -/
def State.bkStruct (s : State) (k : Fin 8) (t : Tensor) : Except Refuse Struct :=
  let nbr := cdiv t.nr 16
  let nbc := cdiv t.nc 16
  let bmAt := up64 (4 * (nbr + 1))
  let bmSz := up64 (cdiv nbc 8)
  if !s.regionOk k t.index (units (bmAt + nbr * bmSz)) then .error .denied
  else
    let dir := (List.range (nbr + 1)).map fun i => s.le (64 * t.index + 4 * i) 4
    let maps := (List.range nbr).map fun i => (List.range nbc).filter fun c =>
      bitOf (s.byte (64 * t.index + bmAt + i * bmSz + c / 8)).toNat (c % 8)
    let scaleRow := up64 (cdiv t.nc 32 * t.fmt.sw)
    let plane := 64 * t.base + up64 (t.nr * scaleRow)
    if !nondec dir || !((List.range nbr).all fun i => dir.getD (i + 1) 0 - dir.getD i 0 == (maps.getD i []).length) then .error .format
    else if !s.regionOk k t.base (units (up64 (t.nr * scaleRow) + 256 * dir.getLastD 0 * t.fmt.bits / 8)) then .error .denied
    else
      .ok { places := (List.range nbr).flatMap fun i => (maps.getD i []).zipIdx.flatMap fun (c, n) =>
              (List.range 256).filterMap fun e =>
                let r := 16 * i + e / 16; let col := 16 * c + e % 16
                if r < t.nr ∧ col < t.nc then
                  some { row := r, col := col, scaleAt := 64 * t.base + r * scaleRow + col / 32 * t.fmt.sw,
                         valAt := plane, idx := 256 * (dir.getD i 0 + n) + e, group := r * cdiv t.nc 32 + col / 32 }
                else none,
            bad := 0, strips := [], onehot := false, laneStrips := 0, epoch := 0, nStrips := dir.getLastD 0, lanes := [] }

/-- The structure of a D tensor: every element, row-major. -/
def Tensor.dStruct (t : Tensor) : Struct :=
  { places := (List.range t.nr).flatMap fun r => (List.range t.nc).map fun c => t.dPlace r c,
    bad := 0, strips := [], onehot := false, laneStrips := 0, epoch := 0, nStrips := 0, lanes := [] }

/-- The structure of a tensor in any layout, validated (R124). -/
def State.struct (s : State) (k : Fin 8) (t : Tensor) : Except Refuse Struct :=
  if !t.valid then .error .format
  else match t.layout with
  | .d => if s.regionOk k t.base (units (t.extent 4)) then .ok t.dStruct else .error .denied
  | .m4 => s.m4Struct k t
  | .st => s.stStruct k t
  | .bk => s.bkStruct k t

/-- FORMAT_ERROR kind of a failing structure read (R129). -/
def Layout.badKind : Layout → Nat
  | .m4 => 3 | _ => 4

/-- Structure lines of a sparse tensor, as byte ranges (for poison, R201). -/
def State.structPoison (s : State) (t : Tensor) : Bool :=
  match t.layout with
  | .d => false
  | .st => s.poisonIn (64 * t.index) 64 || s.poisonIn (64 * (t.index + (s.stHdr (64 * t.index)).stripOff)) (64 * (s.stHdr (64 * t.index)).strips) ||
           s.poisonIn (64 * (t.index + (s.stHdr (64 * t.index)).dirOff)) (4 * (t.nr + 1)) ||
           s.poisonIn (64 * (t.index + (s.stHdr (64 * t.index)).laneOff)) (8 * (s.stHdr (64 * t.index)).lanes)
  | .m4 => s.poisonIn (64 * t.index) (t.nr * up64 (2 * cdiv t.nc 16))
  | .bk => s.poisonIn (64 * t.index) (up64 (4 * (cdiv t.nr 16 + 1)) + cdiv t.nr 16 * up64 (cdiv (cdiv t.nc 16) 8))

/-! ## Views (R125) -/

/-- A view: permutation p_0..p_3 and broadcast bits. -/
structure View where
  perm : List Nat
  bcast : List Bool
  identity : Bool
  deriving DecidableEq, Repr

/-- Parse a view word (R125); none where it is malformed. -/
def parseView (w : Nat) : Option View :=
  if w = 0 then some { perm := [0, 1, 2, 3, 4], bcast := List.replicate 5 false, identity := true }
  else if !bitOf w 31 then none
  else
    let ps := (List.range 4).map fun i => w / 2 ^ (8 + 2 * i) % 4
    if (List.range 4).all fun p => ps.contains p then
      some { perm := ps ++ [4], bcast := (List.range 5).map fun i => bitOf w (26 + i),
             identity := ps == [0, 1, 2, 3] && (w / 2 ^ 26 % 32 == 0) }
    else none

/-- Extent of view dimension i: the source dimension's, or the task's for a broadcast one (R125). -/
def Tensor.viewDim (t : Tensor) (v : View) (task : List Nat) (i : Nat) : Nat :=
  if v.bcast.getD i false then task.getD i 1 else t.dim (v.perm.getD i i)

/-- Whether each broadcast dimension's source has extent 1. -/
def Tensor.viewOk (t : Tensor) (v : View) : Bool :=
  (List.range 5).all fun i => !v.bcast.getD i false || t.dim (v.perm.getD i i) == 1

/-- Place of the element at a view index (R125): view dimension i reads source dimension p_i. -/
def Tensor.viewPlace (t : Tensor) (v : View) (ix : List Nat) : Place :=
  let src := (List.range 5).map fun d =>
    match (List.range 5).find? fun i => v.perm.getD i i == d with
    | some i => if v.bcast.getD i false then 0 else ix.getD i 0
    | none => 0
  let r := src.getD 1 0 + t.dim 1 * (src.getD 2 0 + t.dim 2 * (src.getD 3 0 + t.dim 3 * src.getD 4 0))
  t.dPlace r (src.getD 0 0)

end Sys2Proof.Machine
end

