-- ==== Sys2Proof/Machine/Retire.lean ====
section
/-! DEFINITION. Retirement of resources (R382 to R389, R396): the policy test, the RETIRED event, panel retirement with its spare,
pseudo-channel and lane-group retirement; the C0 token buckets, whose rate a retirement changes (R208). -/

namespace Sys2Proof.Machine

/-! ## C0 token buckets (R208) -/

/-- One token, in the unit of a bucket's fill. -/
def tokenUnit : Nat := 102400

/-- A full bucket: 16 tokens. -/
def bucketMax : Nat := 16 * tokenUnit

/-- The fill of a bucket after a time at a rate of units per TCLK. -/
def refill (fill at_ now rate : Nat) : Nat := min bucketMax (fill + (now - at_) * rate)

/-- Token units a pseudo-channel gains per TCLK: one token for every 16 line slots of 2 ns, at 0.96 of the rate while refresh is
doubled (R190, R192, R208). -/
def Stack.tokenRate (x : Stack) : Nat := if x.refresh2x then 3072 else 3200

/-- Token units one direction of an edge gains per TCLK: 250 GB/s for each lane group (R204, R208). -/
def Edge.tokenRate (x : Edge) : Nat := 25000 * popcount x.groups.toNat 16

/-! ## Policy, events, records -/

/-- The fused initial frequency of a panel's ring oscillator (R395). -/
def State.roBase (s : State) (d : Fin 8) (p : Fin 104) : Nat := s.fuses.roBase.getD (104 * d.val + p.val) 0

/-- Panels of a die in a role. -/
def State.roleCount (s : State) (d : Fin 8) (r : Role) : Nat := (s.dies[d].panels.toList.filter fun p => p.role == r).length

/-- Pseudo-channels in service of a stack (R190, R214). -/
def Stack.pcs (x : Stack) : Nat := 64 - popcount x.pcRetired.toNat 64

/-- Whether retirement is allowed (R388): POLICY allow bit [5] and HLT_CTRL.RETIRE_EN. -/
def State.retireAllowed (s : State) : Bool := s.allows 5 && s.hlt.ctrl.getLsbD 31

/-- Log RETIRED in the management log and in the log of the suite that owns the resource (R396). -/
def State.logRetired (s : State) (e : RetEntry) (flags left : Nat) : State :=
  let d := fin8 e.die
  let data := fun step => pack [(1, e.kind), (1, e.die), (2, e.index), (1, e.reason), (1, flags), (2, 0), (4, left), (4, step)]
  match s.owner d with
  | some k =>
    let st := s.suites[k].step.toNat
    (s.mgtEvent 0x1B0 e.die 0 (data st)).suiteEvent k 0x1B0 e.die 0 (data st)
  | none => s.mgtEvent 0x1B0 e.die 0 (data 0xFFFFFFFF)

/-- Whether two entries name one resource and reason. -/
def RetEntry.same (a b : RetEntry) : Bool := a.kind == b.kind && a.die == b.die && a.index == b.index && a.reason == b.reason

/-- A withheld retirement (R388): RETIRED with WITHHELD = 1, logged at most once per hour (3.6 × 10^12 TCLK) while it persists. -/
def State.withholdRet (s : State) (e : RetEntry) (left : Nat) : State :=
  match s.hlt.withheld.find? fun x => x.1.same e with
  | some x =>
    if s.clk.time < x.2 + 3600000000000 then s
    else
      let u := s.logRetired e 1 left
      { u with hlt := { u.hlt with withheld := (e, s.clk.time) :: u.hlt.withheld.filter fun y => !y.1.same e } }
  | none =>
    let u := s.logRetired e 1 left
    { u with hlt := { u.hlt with withheld := (e, s.clk.time) :: u.hlt.withheld } }

/-- Queue the record write of a committed retirement (R389). -/
def State.recordRet (s : State) (e : RetEntry) : State := { s with hlt := { s.hlt with pendingRecs := s.hlt.pendingRecs ++ [e] } }

/-- Offset of a die block in management space (R373). -/
def dieOff (d : Nat) : Nat := 0x100000 + d * 0x200000

/-- A reset of the registers of a function from an offset on: the HI halves that earlier reads latched there are gone (R47, R105). -/
def State.unlatch (s : State) (fn lo n : Nat) : State :=
  { s with latch := s.latch.filter fun (x : Nat × Nat × Word) => !(x.1 == fn && decide (lo ≤ x.2.1) && decide (x.2.1 < lo + n)) }

/-- A panel's registers, banks and threads after a panel reset (R404, R376); role, reason and state stay. -/
def Panel.cleared (x : Panel) : Panel := { Panel.reset with fn := x.fn, role := x.role, reason := x.reason }

/-- Reset a panel (R404) and change what stays. -/
def State.resetPanel (s : State) (d : Fin 8) (p : Fin 104) (f : Panel → Panel) : State :=
  (s.unlatch 0 (dieOff d + 0x40000 + p.val * 0x400) 0x400).modPanel d p fun x => f x.cleared

/-! ## Request entries and speculative reads (R166, R205, R206) -/

/-- Request entries that speculative reads may hold in one panel of a die (R166, R168). -/
def Skim.depth (x : Skim) : Nat := min 128 x.raDepth.toNat

/-- Request entries of a panel that speculative reads hold (R166, R206). -/
def Panel.specHeld (x : Panel) : Nat := (x.spec.filter fun y => !y.came).length

/-- Request entries of a die in use (R206, R216). -/
def Die.entriesUsed (x : Die) : Nat := 16384 - x.trw.rqtFree + sumL (x.panels.toList.map Panel.specHeld)

/-- Count run-ahead reads of a die (R168). -/
def State.countAhead (s : State) (d : Fin 8) (issued used cancelled : Nat) : State :=
  s.modDie d fun z => { z with skm := { z.skm with issued := z.skm.issued.satAdd issued, used := z.skm.used.satAdd used,
                                                    cancelled := z.skm.cancelled.satAdd cancelled } }

/-- Cancel the speculative reads of a panel that `on` names (R167). -/
def State.cancelSpec (s : State) (d : Fin 8) (p : Fin 104) (on : SpecRead → Bool) : State :=
  let n := sumL (((s.panel d p).spec.filter on).map (·.lines))
  if n = 0 then s else (s.countAhead d 0 0 n).modPanel d p fun x => { x with spec := x.spec.filter fun y => !on y }

/-! ## Panels -/

/-- The lowest-numbered panel of a die that can take work, other than `p`. -/
def State.otherPanel (s : State) (d : Fin 8) (p : Fin 104) : Option (Fin 104) :=
  (List.finRange 104).find? fun q => decide (q ≠ p) && (s.panel d q).role == .enabled && (s.panel d q).fn.st == .running

/-- Tiles that no panel of their die will run: their task's part there ends with a status (R53, R274). -/
def State.tilesGone (s : State) (ths : List Thread) (st : Status) : State :=
  ths.foldl (fun u (x : Thread) => u.modTask (fin8 x.tile.k) x.tile.h fun y =>
    { y with status := y.status.worse st, tilesOff := x.tile :: y.tilesOff }) s

/-- Send the tiles of a panel to another panel of the die that can take work (R53); where there is none, the die's part of each
task completes DISABLED. Its speculative reads are cancelled (R167). -/
def State.moveTiles (s : State) (d : Fin 8) (p : Fin 104) : State :=
  let ths := (s.panel d p).threads
  let fresh := ths.map fun (t : Thread) => { t with started := false, saved := none }
  let t := (s.cancelSpec d p fun _ => true).modPanel d p fun x => { x with threads := [], owner := none, bankA := .free, bankB := .free }
  match s.otherPanel d p with
  | some q => t.modPanel d q fun x => { x with threads := x.threads ++ fresh }
  | none => t.tilesGone ths .disabled

/-- The lowest-numbered spare of a die that no self-test holds. -/
def State.freeSpare (s : State) (d : Fin 8) : Option (Fin 104) :=
  (List.finRange 104).find? fun q => (s.panel d q).role == .spare && !(s.panel d q).selfTest

/-- Start the self-test of the lowest-numbered spare (R385). -/
def State.startSpare (s : State) (d : Fin 8) : State :=
  match s.freeSpare d with
  | some q => s.modPanel d q fun x => { x with selfTest := true }
  | none => s

/-- Retire a panel (R385, R388, R389): withheld where policy forbids it; otherwise its tiles move, the lowest spare starts its
self-test, and the record entry is queued. -/
def State.retirePanel (s : State) (d : Fin 8) (p : Fin 104) (reason : Nat) : State :=
  let e : RetEntry := { kind := 0, die := d, index := p, reason := reason, time := s.clk.time }
  if (s.panel d p).role = .retired ∨ (s.panel d p).role = .fusedOff then s
  else if !s.retireAllowed then s.withholdRet e (s.roleCount d .spare)
  else
    let used := (s.freeSpare d).isSome && (s.panel d p).role == .enabled
    let left := s.roleCount d .spare - (if used ∨ (s.panel d p).role = .spare then 1 else 0)
    let s1 := s.logRetired e (2 * b2n used) left
    let s2 := (s1.modPanel d p fun x => { x with role := .retired, reason := reason, fn := .stopped, selfTest := false }).moveTiles d p
    (if used then s2.startSpare d else s2).recordRet e

/-- Mark a pseudo-channel failing (R382, R196): withheld where policy forbids it; otherwise it waits for its move and commit. -/
def State.failPc (s : State) (d : Fin 8) (i : Fin 12) (pc reason : Nat) : State :=
  let x := s.stack d i
  let e : RetEntry := { kind := 1, die := d, index := 64 * i.val + pc, reason := reason, time := s.clk.time }
  if x.pcRetired.getLsbD pc ∨ (x.pcPending.any fun q => q.1 == pc) then s
  else if !s.retireAllowed then s.withholdRet e x.pcs
  else s.modStack d i fun y => { y with pcPending := y.pcPending ++ [(pc, reason)] }

/-- Bring the C0 buckets of a stack up to date at the present rate (R208). -/
def Stack.settleC0 (x : Stack) (now : Nat) : Stack :=
  { x with c0 := x.c0.map fun (y : Nat × Nat × Nat) => (y.1, refill y.2.1 y.2.2 now x.tokenRate, now) }

/-- Bring the C0 bucket of an edge direction up to date at the present rate (R208). -/
def Edge.settleC0 (x : Edge) (now : Nat) : Edge := { x with c0 := (refill x.c0.1 x.c0.2 now x.tokenRate, now) }

/-- Retire a lane group of an edge (R383). -/
def State.retireGroup (s : State) (d : Fin 8) (e : Fin 3) (g reason : Nat) : State :=
  let x := s.dies[d].edges[e]
  let r : RetEntry := { kind := 2, die := d, index := 16 * e.val + g, reason := reason, time := s.clk.time }
  if !x.groups.getLsbD g then s
  else if !s.retireAllowed then s.withholdRet r (popcount x.groups.toNat 16)
  else
    let s1 := s.logRetired r 0 (popcount x.groups.toNat 16 - 1)
    (s1.modEdge d e fun y => { y.settleC0 s.clk.time with groups := y.groups &&& ~~~((1 : BitVec 16) <<< g) }).recordRet r

/-- Visible capacity of a suite in MiB (R24): 16,384 units each. -/
def State.capacityMiB (s : State) (k : Fin 8) : Nat :=
  sumL ((s.liveDies k).map fun d => sumL ((s.dies[d].stks.toList).map fun x => x.cap / 16384))

/-- Commit one pending pseudo-channel retirement of a stack (R196): STK_CAP falls by 0x00FC_0000, the discarded lines read as never
written, the map and the record are updated. -/
def State.commitPc (s : State) (d : Fin 8) (i : Fin 12) (pc reason : Nat) : State :=
  let x := s.stack d i
  let cap := x.cap - 0xFC0000
  let w := (12 * d.val + i.val) * 2 ^ 30
  let e : RetEntry := { kind := 1, die := d, index := 64 * i.val + pc, reason := reason, time := s.clk.time }
  let s1 := s.logRetired e 0 (x.pcs - 1)
  let gone := fun u : Nat => decide (w + cap ≤ u) && decide (u < w + 2 ^ 30)
  let s2 := s1.modStack d i fun y => { y with cap := cap, pcRetired := y.pcRetired ||| ((1 : BitVec 64) <<< pc),
                                              pcPending := y.pcPending.filter fun q => q.1 != pc, pcPoison := y.pcPoison.filter fun q => q.1 != pc }
  { s2 with mem := s2.mem.filter fun c => !gone (c.1 / 64), poison := s2.poison.filter fun u => !gone u }.recordRet e

/-- Commit every pending pseudo-channel retirement of a stack and log one CAPACITY_CHANGED (R196, R217, R390). -/
def State.commitStack (s : State) (d : Fin 8) (i : Fin 12) (step : Nat) : State :=
  let ps := (s.stack d i).pcPending
  if ps.isEmpty then s
  else
    let t := ps.foldl (fun u p => u.commitPc d i p.1 p.2) s
    let x := t.stack d i
    (t.dieEvent d 0x151 i (pack [(1, 12 * d.val + i.val), (1, x.pcs), (2, 0), (4, x.cap), (4, x.moveLost), (4, step)])).modStack d i fun y =>
      { y with moveLost := 0 }

end Sys2Proof.Machine
end

