-- ==== Sys2Proof/Machine/Convert.lean ====
section
/-! DEFINITION. Writing converted elements into the layouts (R61 to R64, R107 to R116), the skim copy and norm area (R148, R149),
reading whole tensors, the twin index (R115), and the poisoning of output lines (R201). -/

namespace Sys2Proof.Machine

/-! ## Reading -/

/-- Linear element index of a place (R66). -/
def Tensor.lin (t : Tensor) (row col : Nat) : Nat := col + t.nc * row

/-- Elements of a tensor at the places of a structure, as values under R60. -/
def State.readAll (s : State) (k : Fin 8) (t : Tensor) (st : Struct) : List Ent :=
  st.places.map (s.readAt t.fmt (s.slotS k t))

/-- Count and report the invalid elements among those read, kind by kind (R57). DESIGN CHOICE (log 62): where one tensor's read meets invalid
elements of several kinds, its one INVALID_INPUT event of the step gives the first kind of the order T2 0b10, NaN or infinity, scale 0xFF,
and the number of that kind; the slot's INVALID count takes all of them. -/
def State.reportInvalid (s : State) (k : Fin 8) (t : Tensor) (es : List Ent) : State :=
  [0, 1, 2].foldl (fun u kind => u.countInvalid k t kind (es.filter fun e => e.bad == some kind).length) s

/-- Number of invalid elements among those read. -/
def invalidOf (es : List Ent) : Nat := (es.filter fun e => e.bad.isSome).length

/-! ## Writing one scale group -/

/-- One element to write: its place, its source, and whether its conversion is counted (R63, R143). -/
structure Put where
  place : Place
  src : Src
  counted : Bool := true
  deriving DecidableEq, Repr

/-- Slots of the scale group that holds packed index `i` (R107, R109, R113): those with no element are written as zero.
BK groups spread over blocks, whose padding is written by the compressor. -/
def Tensor.groupSlots (t : Tensor) (i : Nat) : List Nat :=
  match t.layout with
  | .d => (List.range 32).map (32 * (i / 32) + ·)
  | .st => List.range 32
  | .m4 => ((List.range 8).map (8 * (i / 8) + ·)).filter fun x => decide (x < 4 * cdiv t.nc 16)
  | .bk => []

/-- Write codes at indices of one packed run. -/
def State.putCodes (s : State) (f : Fmt) (l : List (Nat × Nat × Nat)) : State :=
  l.foldl (fun u x => u.putCode f x.1 x.2.1 x.2.2) s

/-- What converting one scale group gives: the bytes of its scale, the codes in order, the counters and the maximum for HIST, none where no
source is finite. -/
def convGroup (f : Fmt) (S : Int) (tag : Nat) (xs : List Src) : List Byte × List Nat × ConvCount × Option Num :=
  match f with
  | .e8m7 => ([], xs.map fun x => if x.marked then 0x7FC0 else convE8M7 x.mode x.v, .zero, none)
  | .m16 =>
    let e8 := m16Scale (xs.map Src.forScale)
    (leBytes 4 (e8 + 256 * (tag % 2 ^ 24)), xs.map fun x => convM16 x.mode x.v e8, .zero, none)
  | .int32 => ([], xs.map fun _ => 0, .zero, none)
  | _ => let b := convBlock f S xs; (leBytes 1 b.e8, b.codes, b.cnt, b.histMax)

/-- Convert and write one scale group (R61, R64): scale, codes, zeros in the unused slots of the group, and the counts of R63 and
R73 when `count` is set. -/
def State.putGroup (s : State) (k : Fin 8) (t : Tensor) (tag : Nat) (count : Bool) (ps : List Put) : State :=
  match ps with
  | [] => s
  | p :: _ =>
    let (sc, codes, cnt, hist) := convGroup t.fmt (s.slotS k t) tag (ps.map (·.src))
    let used := ps.map (·.place.idx)
    let pads := ((t.groupSlots p.place.idx).filter fun i => !used.contains i).map fun i => (p.place.valAt, i, 0)
    let s1 := if sc.isEmpty then s else s.write p.place.scaleAt sc
    let s2 := s1.putCodes t.fmt ((ps.zip codes).map fun x => (x.1.place.valAt, x.1.place.idx, x.2))
    let s3 := s2.putCodes t.fmt pads
    if count then s3.countConv k t { cnt with conv := cnt.conv - (ps.filter fun x => !x.counted).length } hist else s3

/-- The groups of a list of elements to write, in order of first appearance. -/
def groupsOf (ps : List Put) : List (List Put) :=
  (ps.map (·.place.group)).eraseDups.map fun g => ps.filter fun p => p.place.group == g

/-- Number of NaN sources that a conversion into a tensor reports (R63, R64): a narrow tensor's without a scale slot and an E8M7 tensor's are
not counted. -/
def nanSources (t : Tensor) (xs : List Src) : Nat :=
  if t.counts ∨ t.fmt = .m16 then (xs.filter fun x => x.v.isNan && !x.marked).length else 0

/-- Convert and write elements group by group. `tagOf` gives the step tag of an M16 group from its number (R258). -/
def State.putAll (s : State) (k : Fin 8) (t : Tensor) (tagOf : Nat → Nat) (count : Bool) (ps : List Put) : State :=
  (groupsOf ps).foldl (fun u g => u.putGroup k t (tagOf ((g.head?.map (·.place.group)).getD 0)) count g) s

/-- Pad a byte string to whole 64-byte units with zeros. -/
def padTo64 (bs : List Byte) : List Byte := bs ++ List.replicate (up64 bs.length - bs.length) 0

/-- Clear the markers of the lines of `[a, a + n)` that the range holds whole (R197). -/
def State.unpoison (s : State) (a n : Nat) : State :=
  { s with poison := s.poison.filter fun u => !(decide (a ≤ 64 * u) && decide (64 * u + 64 ≤ a + n)) }

/-- Clear the marker of each value or scale line of a tensor whose stored elements are all among those written: a whole-line write
of valid data (R197, R201). -/
def State.settle (s : State) (t : Tensor) (st : Struct) (ws : List Place) : State :=
  let vs := (ws.map fun (p : Place) => codeLine t.fmt p.valAt p.idx).eraseDups
  let okV := vs.filter fun u => (st.places.filter fun (p : Place) => codeLine t.fmt p.valAt p.idx == u).all ws.contains
  let ss := if t.fmt.sw = 0 then [] else (ws.map fun (p : Place) => p.scaleAt / 64).eraseDups
  let okS := ss.filter fun u => (st.places.filter fun (p : Place) => p.scaleAt / 64 == u).all fun (p : Place) =>
    ws.any fun (q : Place) => q.group == p.group
  if s.poison.isEmpty then s else { s with poison := s.poison.filter fun u => !(okV.contains u || okS.contains u) }

/-- Report the NaN sources of a conversion: INVALID_INPUT of kind 3 and COUNT (R63, R413). A NaN bound for M16 also makes the task
FORMAT_ERROR (R64). -/
def State.reportNan (s : State) (k : Fin 8) (h : Nat) (t : Tensor) (n : Nat) : State :=
  if n = 0 then s
  else
    let u := (s.invalidEvent k t.id 3 n).addCount k h n
    if t.fmt = .m16 then u.worsen k h .formatError else u

/-- The rounding mode of a conversion (R65, R66). -/
def State.rmode (s : State) (k : Fin 8) (t : Tensor) (sr : Bool) (site idx : Nat) : RMode :=
  if sr then .sr (mix (srCounter site t.id s.suites[k].step.toNat idx) s.suites[k].seed) else .rne

/-! ## Skim copy and norm area -/

/-- The skim copy of a tensor as a tensor of its own (R117, R148): format T2, base SKIM, no slot, D rows packed. -/
def Tensor.skimView (t : Tensor) : Tensor :=
  let r := dRecord .t2 t.nc / 64
  { t with fmt := .t2, base := t.skim, slot := 0xFFFF,
           stride := if t.layout = .d then [0, r, r * t.dim 1, r * t.dim 1 * t.dim 2, r * t.dim 1 * t.dim 2 * t.dim 3] else t.stride }

/-- Size in bytes of a tensor's BASE region by its layout, structure given (R107, R109, R113, R116). -/
def Tensor.baseSize (t : Tensor) (st : Struct) : Nat :=
  match t.layout with
  | .d => t.extent 4
  | .m4 => t.nr * (m4A t.fmt t.nc + m4V t.fmt t.nc)
  | .st => up64 (st.nStrips * t.fmt.sw) + st.nStrips * 32 * t.fmt.bits / 8
  | .bk => up64 (t.nr * up64 (cdiv t.nc 32 * t.fmt.sw)) + st.nStrips * 256 * t.fmt.bits / 8

/-- The byte address of the norm area (R148). -/
def Tensor.normAt (t : Tensor) (st : Struct) : Nat := 64 * t.skim + up64 (t.skimView.baseSize st)

/-- Size in bytes of the SKIM region: skim copy and norm area (R117, R148). -/
def Tensor.skimSize (t : Tensor) (st : Struct) : Nat := up64 (t.skimView.baseSize st) + up64 (8 * t.nr) + up64 (8 * t.nc)

/-- Places of the skim copy's elements, in the order of the structure (R117, R148). -/
def Tensor.skimPlaces (t : Tensor) (st : Struct) : List Place :=
  match t.layout with
  | .d => t.skimView.dStruct.places
  | .st => st.places.map fun (p : Place) => { p with scaleAt := 64 * t.skim + p.group, valAt := 64 * t.skim + up64 st.nStrips + 8 * p.group }
  | .m4 => st.places.map fun (p : Place) =>
      let a := 64 * t.skim + p.row * (m4A .t2 t.nc + m4V .t2 t.nc)
      { p with scaleAt := a + p.col / 32, valAt := a + m4A .t2 t.nc }
  | .bk => st.places.map fun (p : Place) =>
      let sr := up64 (cdiv t.nc 32)
      { p with scaleAt := 64 * t.skim + p.row * sr + p.col / 32, valAt := 64 * t.skim + up64 (t.nr * sr) }

/-- The square of a value in binary32, rounded toward +∞ (R149). -/
def sqUp (x : Num) : Word :=
  match x with
  | .fin _ m e => f32enc .up (.fin false (m * m) (2 * e))
  | .inf _ => f32enc .up (.inf false)
  | .nan n => f32enc .up (.nan n)

/-- Exact difference of two finite values. -/
def Num.sub (a b : Num) : Num :=
  match a, b with
  | .fin n1 m1 e1, .fin n2 m2 e2 => finAdd n1 m1 e1 (!n2) m2 e2
  | x, _ => x

/-- A norm from the squares of its terms in order (R149). -/
def sumUp (xs : List Word) : Word := xs.foldl (f32add .up) 0

/-- A row norm: terms in ascending column order. -/
def rowNorm (xs : List Num) : Word := f32sqrt .up (sumUp (xs.map sqUp))

/-- A column norm: terms of each 64-row tile in ascending row order, tiles merged in ascending order. -/
def colNorm (nTiles : Nat) (xs : List (Nat × Num)) : Word :=
  f32sqrt .up (sumUp ((List.range nTiles).map fun i =>
    sumUp ((xs.filter fun x => x.1 / 64 == i).map fun x => sqUp x.2)))

/-- Insertion of a pair by key, in front of the pairs of equal key. -/
def insKey {β : Type} (x : Nat × β) : List (Nat × β) → List (Nat × β)
  | [] => [x]
  | y :: l => if x.1 ≤ y.1 then x :: y :: l else y :: insKey x l

/-- Stable sort by a numeric key, ascending: pairs of equal key keep their order. -/
def sortKey {β : Type} (l : List (Nat × β)) : List (Nat × β) := l.foldr insKey []

/-- Convert the skim copy's elements at the places that `on` names from the tensor's stored values (R148, R149). -/
def State.writeSkimAt (s : State) (k : Fin 8) (t : Tensor) (st : Struct) (on : Place → Bool) : State :=
  let xs := (st.places.zip (t.skimPlaces st)).filter fun (x : Place × Place) => on x.1
  s.putAll k t.skimView (fun _ => 0) false (xs.map fun (x : Place × Place) =>
    ({ place := x.2, src := ⟨(s.readAt t.fmt (s.slotS k t) x.1).v, false, .rne⟩ } : Put))

/-- Write the norm area from the stored values and the skim copy (R148, R149). -/
def State.writeNorms (s : State) (k : Fin 8) (t : Tensor) (st : Struct) : State :=
  let xs := (s.readAll k t st).zip ((t.skimPlaces st).map (s.readAt .t2 0))
  let na := t.normAt st
  let rows := (List.range t.nr).flatMap fun r =>
    let l := (sortKey ((xs.filter fun x => x.1.row == r).map fun x => (x.1.col, x))).map (·.2)
    leBytes 4 (rowNorm (l.map fun x => x.1.v.sub x.2.v)).toNat ++ leBytes 4 (rowNorm (l.map fun x => x.2.v)).toNat
  let nt := cdiv t.nr 64
  let cols := (List.range t.nc).flatMap fun c =>
    let l := sortKey ((xs.filter fun x => x.1.col == c).map fun x => (x.1.row, x))
    leBytes 4 (colNorm nt (l.map fun x => (x.1, x.2.1.v))).toNat ++
    leBytes 4 (colNorm nt (l.map fun x => (x.1, x.2.1.v.sub x.2.2.v))).toNat
  (s.write na (padTo64 rows)).write (na + up64 (8 * t.nr)) (padTo64 cols)

/-- Write the skim copy and the norm area of a HAS_SKIM tensor from its stored values (R148, R149). -/
def State.writeSkim (s : State) (k : Fin 8) (t : Tensor) (st : Struct) : State :=
  if !t.hasSkim then s
  else ((s.unpoison (64 * t.skim) (t.skimSize st)).writeSkimAt k t st fun _ => true).writeNorms k t st

/-! ## The twin index (R115, R124) -/

/-- A twin directory entry with its list of strips. -/
structure TwinList where
  window : Nat
  tile : Nat
  list : List Nat
  nnz : Nat
  deriving DecidableEq, Repr

/-- The twin index of an ST tensor: none when its header check fails (task does not run). -/
def State.twin (s : State) (k : Fin 8) (t : Tensor) (st : Struct) : Except Refuse (List TwinList) :=
  let a := 64 * t.twin
  if !s.regionOk k t.twin 1 then .error .denied else
  let bs := s.bytes a 64
  let W := field bs 0 4
  let E := field bs 4 4
  if crc32 (bs.take 60) ≠ field bs 0x3C 4 ∨ W ≠ cdiv t.nc 4096 ∨ field bs 8 4 ≠ st.nStrips ∨ field bs 0xC 4 ≠ st.epoch then
    .error .format
  else if !s.regionOk k t.twin (units (64 + 1024 * W + 4 * E)) then .error .denied
  else
    let dir := (List.range (64 * W)).map fun i => s.bytes (a + 64 + 16 * i) 16
    if dir.any fun d => decide (field d 0 4 + field d 4 4 > E) then .error .format
    else .ok (dir.zipIdx.map fun (d, i) =>
      { window := i / 64, tile := i % 64, nnz := field d 8 4,
        list := (List.range (field d 4 4)).map fun j => s.le (a + 64 + 1024 * W + 4 * (field d 0 4 + j)) 4 })

/-- Columns of a strip that lie in a twin tile. -/
def Strip.inTile (p : Strip) (w c : Nat) : List Nat := if p.window = w then p.cols.filter fun x => x / 64 == 64 * w + c else []

/-- Whether a twin list is consistent (R115, R124): ascending, each good strip touching the tile, and the slots read equal to NNZ
unless the list names a failing strip. -/
def TwinList.ok (l : TwinList) (strips : List Strip) : Bool :=
  let ps := l.list.map fun j => strips[j]?
  let bad := ps.any fun p => match p with | some q => !q.ok | none => false
  ascending l.list && ps.all (fun p => match p with
    | some q => !q.ok || !(q.inTile l.window l.tile).isEmpty
    | none => false) &&
  (bad || sumL (ps.map fun p => match p with | some q => (q.inTile l.window l.tile).length | none => 0) == l.nnz)

/-! ## Poisoning output lines (R201) -/

/-- Poison the lines of a D tensor that hold columns `c0 ≤ c < c1` of a row and their scales. -/
def State.poisonCols (s : State) (t : Tensor) (row c0 c1 : Nat) : State :=
  if c0 < c1 then
    let a := t.rowAddr (t.outer row)
    let s1 := if t.fmt.sw = 0 then s else s.poisonRange (a + c0 / 32 * t.fmt.sw) ((c1 - 1) / 32 * t.fmt.sw + t.fmt.sw - c0 / 32 * t.fmt.sw)
    s1.poisonRange (a + dScale t.fmt t.nc + c0 * t.fmt.bits / 8) (cdiv (c1 * t.fmt.bits) 8 - c0 * t.fmt.bits / 8)
  else s

/-- Poison the line of one packed value and of its scale. -/
def State.poisonPlace (s : State) (f : Fmt) (p : Place) : State :=
  let s1 := if f.sw = 0 then s else s.poisonLine (p.scaleAt / 64)
  s1.poisonLine (codeLine f p.valAt p.idx)

/-- Poison what the skim region derives from the elements of `bad` places (R201). -/
def State.poisonSkimOf (s : State) (t : Tensor) (st : Struct) (bad : Place → Bool) : State :=
  if !t.hasSkim then s else
  let xs := st.places.zip (t.skimPlaces st)
  let gs := ((xs.filter fun (x : Place × Place) => bad x.1).map fun (x : Place × Place) => x.2.group).eraseDups
  let hit := xs.filter fun (x : Place × Place) => gs.contains x.2.group
  let na := t.normAt st
  let s1 := hit.foldl (fun u x => u.poisonPlace .t2 x.2) s
  let s2 := ((hit.map fun (x : Place × Place) => x.1.row).eraseDups).foldl (fun u r => u.poisonLine ((na + 8 * r) / 64)) s1
  ((hit.map fun (x : Place × Place) => x.1.col).eraseDups).foldl (fun u c => u.poisonLine ((na + up64 (8 * t.nr) + 8 * c) / 64)) s2

end Sys2Proof.Machine
end

