-- ==== Sys2Proof/Machine/Regions.lean ====
section
/-! DEFINITION. Regions of tensors (R126), operand lookup, and the refusals and access reports shared by the task families (R124, R129,
R195, R201). -/

namespace Sys2Proof.Machine

/-! ## Regions (R126) -/

/-- Bytes of the grid record of an INT32 tensor (R91). -/
def Tensor.gridBytes (t : Tensor) : Nat := cdiv (t.dim 1) 64 * cdiv (t.dim 0) 64 * t.dim 2 * t.dim 3 * t.dim 4

/-- The INDEX region of a tensor in units, as sized by its header and directories (R126). -/
def State.indexUnits (s : State) (t : Tensor) (st : Struct) : Nat :=
  match t.layout with
  | .d => if t.fmt = .int32 then units t.gridBytes else 0
  | .m4 => units (t.nr * up64 (2 * cdiv t.nc 16))
  | .bk => units (up64 (4 * (cdiv t.nr 16 + 1)) + cdiv t.nr 16 * up64 (cdiv (cdiv t.nc 16) 8))
  | .st =>
    let h := s.stHdr (64 * t.index)
    max (h.dirOff + units (4 * (t.nr + 1))) (max (h.laneOff + units (8 * h.lanes)) (h.stripOff + st.nStrips))

/-- The TWIN region in units, by its header (R115); of a header that fails its check, the header alone. -/
def State.twinUnits (s : State) (t : Tensor) : Nat :=
  let bs := s.bytes (64 * t.twin) 64
  if !t.hasTwin then 0
  else if crc32 (bs.take 60) = field bs 0x3C 4 ∧ field bs 0 4 = cdiv t.nc 4096 then units (64 + 1024 * field bs 0 4 + 4 * field bs 4 4)
  else 1

/-- The regions of a tensor: (unit, units) of BASE, INDEX, TWIN, SKIM. -/
def State.regions (s : State) (t : Tensor) (st : Struct) : List (Nat × Nat) :=
  [(t.base, units (t.baseSize st)), (t.index, s.indexUnits t st), (t.twin, s.twinUnits t),
   (t.skim, if t.hasSkim then units (t.skimSize st) else 0)]

/-- Whether two unit ranges overlap. -/
def rangesMeet (a b : Nat × Nat) : Bool := a.2 != 0 && b.2 != 0 && decide (a.1 < b.1 + b.2) && decide (b.1 < a.1 + a.2)

/-- Whether any range of one list overlaps one of the other. -/
def anyMeet (xs ys : List (Nat × Nat)) : Bool := xs.any fun x => ys.any (rangesMeet x)

/-! ## Operands and refusals -/

/-- Whether a tensor has the dense shape (n, m, b) in layout D. -/
def Tensor.isD (t : Tensor) (n m b : Nat) : Bool :=
  t.layout == .d && t.dim 0 == n && t.dim 1 == m && t.dim 2 == b && t.dim 3 == 1 && t.dim 4 == 1 && t.valid

/-- A structure with nothing stored. -/
def Struct.empty : Struct :=
  { places := [], bad := 0, strips := [], onehot := false, laneStrips := 0, epoch := 0, nStrips := 0, lanes := [] }

/-- The structure of an operand of a panel task. A D operand outside the suite's memory is read as zeros (R195), so only its
validity is checked; a sparse one is checked whole (R124). A poisoned structure reads as empty (R201). -/
def State.opStruct (s : State) (k : Fin 8) (t : Tensor) : Except Refuse Struct :=
  match t.layout with
  | .d => if t.valid then .ok t.dStruct else .error .format
  | _ =>
    match s.struct k t with
    | .ok st => if s.structPoison t then .ok .empty else .ok st
    | .error e => if s.poisonIn (64 * t.index) 64 then .ok .empty else .error e

/-- Look a tensor id up, refusing FORMAT_ERROR (R32). -/
def State.need (s : State) (k : Fin 8) (id : Nat) : Except Status Tensor :=
  match s.tensor? k id with
  | some t => .ok t
  | none => .error .formatError

/-- Map a refusal of R124 to a status. -/
def Refuse.status : Refuse → Status
  | .denied => .accessDenied
  | .format => .formatError

/-- The structure of an operand, as a status on refusal. -/
def State.needStruct (s : State) (k : Fin 8) (t : Tensor) : Except Status Struct :=
  match s.opStruct k t with
  | .ok st => .ok st
  | .error e => .error e.status

/-- Refuse unless a condition holds. -/
def orElse (c : Bool) (st : Status) : Except Status Unit := if c then .ok () else .error st

/-- An optional tensor. -/
def State.needOpt (s : State) (k : Fin 8) (id : Nat) : Except Status (Option Tensor) :=
  if id = 0xFFFF then .ok none else (s.need k id).map some

/-- Whether the structure of a tensor, or its twin when asked, fails a check that stops its task (R124, kind 7 of R129). -/
def State.structFault (s : State) (k : Fin 8) (twin : Bool) (id : Nat) : Bool :=
  match s.tensor? k id with
  | none => false
  | some x =>
    x.valid && x.layout != .d &&
    match s.opStruct k x with
    | .error .format => true
    | .error .denied => false
    | .ok st => twin && x.layout == .st && x.hasTwin && (match s.twin k x st with | .error .format => true | _ => false)

/-- Finish a task that does not run, and in which no die takes part: with the MEM_ERROR event of an ACCESS_DENIED (R195), or the FORMAT_ERROR event of kind 7 for the
first of its tensors whose structure failed (R124, R129). -/
def State.refuse (s : State) (k : Fin 8) (t : Task) (twin : Bool) (ids : List Nat) (st : Status) : State :=
  let s1 :=
    if st = .formatError then
      match ids.find? (s.structFault k twin) with
      | some id => s.formatEvent k t id 7 0 1
      | none => s
    else if st = .accessDenied then s.taskMemError k t ((ids.findSome? fun id => (s.tensor? k id).map (·.index)).getD 0) 2 2
    else s
  (s1.finish k t.h st).modTask k t.h fun x => { x with took := 0 }

/-- Report poison and unmapped accesses of a task (R195, R201). -/
def State.reportAccess (s : State) (k : Fin 8) (t : Task) (pois : Option Nat) (denied : Option Nat) : State :=
  let s1 := match pois with
    | none => s
    | some u => (s.taskMemError k t u 1 2).worsen k t.h .poisoned
  match denied with
  | none => s1
  | some u => (s1.taskMemError k t u 2 2).worsen k t.h .accessDenied

/-- Run `f` for a task whose ARGS 0-4 name a record of `n` units (R260, R281), unless the record cannot be read: a line the suite may not
request (R195), or a poisoned one (R201). -/
def State.withRecord (s : State) (k : Fin 8) (t : Task) (n : Nat) (f : State → State) : State :=
  let u := t.desc.arg 0 5
  match s.firstBad k u n with
  | some b => (s.taskMemError k t b 2 2).finish k t.h .accessDenied
  | none =>
    match s.poison.find? fun x => decide (u ≤ x) && decide (x < u + n) with
    | some b => (s.taskMemError k t b 1 2).finish k t.h .poisoned
    | none => f s

/-! ## The tensor set (R412) -/

/-- The tensor set of a program in suite memory (R412): ids in TENSOR fields, and MOMENTUM and COPY of the mask records named. The set of the
RUN in flight, or of the most recent one, stands in the suite (`Suite.tensSet`). -/
def State.programTensors (s : State) (prog count : Nat) : List Nat :=
  (List.range count).flatMap fun i =>
    let d := parseTask (s.bytes (64 * prog + 128 * i) 128)
    (d.tensors ++ (if d.type = 6 then [s.le (64 * d.arg 0 5 + 2) 2, s.le (64 * d.arg 0 5 + 4) 2] else [])).filter (· != 0xFFFF)

/-- The regions of the tensors that a task names in its TENSOR fields, read or written by it. -/
def State.taskRegions (s : State) (k : Fin 8) (d : TaskDesc) : List (Nat × Nat) :=
  (d.tensors.filter (· != 0xFFFF)).flatMap fun id => match s.tensor? k id with
    | none => []
    | some x => s.regions x (match s.opStruct k x with | .ok y => y | .error _ => .empty)

/-! ## Bound regions -/

/-- The binding set of the first bound range that one of `rs` (unit ranges) overlaps (R316). -/
def Suite.boundSet (u : Suite) (rs : List (Nat × Nat)) : Option (List Byte) :=
  (u.bound.find? fun b => rs.any fun r => rangesMeet r (b.lo, b.hi - b.lo)).map (·.set)

/-- The bound-region table after `rs` become bound under `set` (R316): a range already covered by one entry is not entered again. -/
def boundWith (bs : List BoundRange) (rs : List (Nat × Nat)) (set : List Byte) : List BoundRange :=
  rs.foldl (fun a r =>
    if r.2 = 0 ∨ a.any fun b => decide (b.lo ≤ r.1) && decide (r.1 + r.2 ≤ b.hi) && b.set == set then a
    else a ++ [{ lo := r.1, hi := r.1 + r.2, set := set }]) bs

/-- Log BOUND_REFUSED: path 0 host, 1 exchange, 2 table full. -/
def State.boundRefused (s : State) (k : Fin 8) (t : Task) (tensor path : Nat) : State :=
  s.suiteEvent k 0x194 0xFF 0 (pack [(4, t.desc.taskId), (2, tensor), (1, path), (1, 0), (4, s.suites[k].step.toNat)])

/-- Propagate binding from the regions read to the regions written (R316): none when the table would need a 1,025th range. -/
def State.bindTo (s : State) (k : Fin 8) (reads writes : List (Nat × Nat)) (dsts : List Tensor) : Option State :=
  match s.suites[k].boundSet reads with
  | none => some s
  | some set =>
    let bs := boundWith s.suites[k].bound writes set
    if 1024 < bs.length then none
    else some ((dsts.foldl (fun u t => u.setEntryFlag t.at_ 1 true) s).modSuite k fun u => { u with bound := bs })

/-- Tile number of an element of a raw-partial tensor in its grid record (R91). -/
def Tensor.tileNo (t : Tensor) (row col : Nat) : Nat :=
  let o := t.outer row
  let m := o.getD 1 0 + t.dim 2 * (o.getD 2 0 + t.dim 3 * o.getD 3 0)
  (m * cdiv (t.dim 1) 64 + o.getD 0 0 / 64) * cdiv (t.dim 0) 64 + col / 64

/-- The g of a tile by the grid record of a raw-partial tensor (R91). -/
def State.gridByte (s : State) (t : Tensor) (no : Nat) : Int := signed 8 (s.byte (64 * t.index + no)).toNat

end Sys2Proof.Machine
end

