-- ==== Sys2Proof/Machine/Groups.lean ====
section
/-! DEFINITION. Collective groups (R238), this module's place in the torus (R227), and the extremes of grid groups (R85, R243). -/

namespace Sys2Proof.Machine

/-- A group of a suite by id (R238). -/
def Suite.group? (u : Suite) (id : Nat) : Option Group := u.groups.find? fun g => g.id == id

/-- This module's coordinate and torus sizes (R227, R334); dimensions default to size 1. -/
def State.coord (s : State) (i : Nat) : Nat := ((s.primer.bind (·.topology)).map fun t => t.coord.getD i 0).getD 0
def State.torus (s : State) (i : Nat) : Nat := ((s.primer.bind (·.topology)).map fun t => t.sizes.getD i 1).getD 1

/-- The coordinates of a group's members, this module's among them (R238): those that differ only in the group's dimensions. -/
def State.memberCoords (s : State) (g : Group) : List (List Nat) :=
  (List.range 4).foldl (fun acc i =>
    if g.dims.getLsbD i then acc.flatMap fun c => (List.range (s.torus i)).map fun x => c ++ [x] else acc.map fun c => c ++ [s.coord i]) [[]]

/-- This module's coordinate. -/
def State.ownCoord (s : State) : List Nat := (List.range 4).map s.coord

/-- The members of a group other than this module (R238). -/
def State.others (s : State) (g : Group) : List (List Nat) := (s.memberCoords g).filter (· != s.ownCoord)

/-- Combine an extreme that a part of a grid group reports for a tile by maximum and minimum (R85, R243). -/
def Suite.addExtreme (u : Suite) (e : Extreme) : Suite :=
  let same := fun (x : Extreme) => x.h == e.h && x.tile == e.tile && x.src == e.src
  match u.extremes.find? same with
  | some x => { u with extremes := { e with hi := max x.hi e.hi, lo := min x.lo e.lo } :: u.extremes.filter fun y => !same y }
  | none => { u with extremes := e :: u.extremes }

/-- The extremes that the parts of a grid group reported for a tile of a task (R85, R243). -/
def Suite.extremesOf (u : Suite) (h tile : Nat) : List (Int × Int) :=
  (u.extremes.filter fun x => x.h == h && x.tile == tile).map fun x => (x.hi, x.lo)

/-- Whether the extremes of a tile are complete (R243): every other member of the task's grid group has reported. -/
def State.extremesIn (s : State) (k : Fin 8) (grp h tile : Nat) : Bool :=
  match s.suites[k].group? grp with
  | none => true
  | some g => (s.others g).all fun c => s.suites[k].extremes.any fun x => x.h == h && x.tile == tile && x.src == c

end Sys2Proof.Machine
end

