-- ==== Sys2Proof/Machine/Drain.lean ====
section
/-! DEFINITION. The grid and the exact accumulator (R84 to R92), the epilogue of the drain (R100, R101), derivatives (R170, R173),
row statistics (R102) and the top-k order (R103). -/

namespace Sys2Proof.Machine

/-! ## Grid and accumulator -/

/-- Exact pair (R84). -/
def exactPair (fa fb : Fmt) : Bool := fa.lsb?.isSome && fb.lsb?.isSome

/-- ⌈log2(QMAX_a × QMAX_b / 32767)⌉ for a floating pair (R85). -/
def floatShift (fa fb : Fmt) : Int :=
  leastExp (fa.qmax * fb.qmax) 0 32767

/-- The pre-pass of R85 over the per-K pairs (largest sum, smallest sum): the g before clamping, bmax and bmin; none when no pair
has valid block codes. -/
def gridRaw (fa fb : Fmt) (sums : List (Int × Int)) : Option (Int × Int × Int) :=
  match sums with
  | [] => none
  | x :: l =>
    let bmax := l.foldl (fun a y => max a y.1) x.1
    let bmin := l.foldl (fun a y => min a y.2) x.2
    let g := if exactPair fa fb then max bmin (bmax - 6) + fa.lsb?.getD 0 + fb.lsb?.getD 0 else bmax + floatShift fa fb
    some (g, bmax, bmin)

/-- The grid of a tile: g in force, g before the clamp of R86, and the spread. -/
structure Grid where
  g : Int
  raw : Int
  spread : Nat
  fixed : Bool
  group : Bool
  deriving DecidableEq, Repr

/-- Clamp of R86. -/
def clampG (g : Int) : Int := min 127 (max (-128) g)

/-- The grid of a tile from its own sums, the extremes other parts of its grid group reported, and GRID_FIX (R85, R86). -/
def gridOf (fa fb : Fmt) (fix : Word) (grp : Bool) (others : List (Int × Int)) (sums : List (Int × Int)) : Grid :=
  match gridRaw fa fb (if grp then sums ++ others else sums) with
  | some (g, hi, lo) =>
    if fix.getLsbD 31 then ⟨signed 8 fix.toNat, signed 8 fix.toNat, (hi - lo).toNat, true, false⟩
    else ⟨clampG g, g, (hi - lo).toNat, false, grp⟩
  | none => if fix.getLsbD 31 then ⟨signed 8 fix.toNat, signed 8 fix.toNat, 0, true, false⟩ else ⟨0, 0, 0, false, grp⟩

/-- The per-K sums of a tile: for every K position, the largest and the smallest block exponents of the rows that store it and of the
columns (R85). `rows` are the tile's rows with their stored (k, entry) pairs, `cols k` the B entries of the tile at k. -/
def tileSums (rows : List (List (Nat × Ent))) (cols : Nat → List Ent) : List (Int × Int) :=
  let ks := (rows.flatMap fun r => r.map (·.1)).eraseDups
  ks.filterMap fun k =>
    let as := rows.flatMap fun r => (r.filter fun x => x.1 == k).filterMap fun x => x.2.b
    let bs := (cols k).filterMap (·.b)
    match as, bs with
    | a :: as, b :: bs => some (as.foldl max a + bs.foldl max b, as.foldl min a + bs.foldl min b)
    | _, _ => none

/-- An accumulator (R84, R89): the exact sum in grid units, the sticky saturation flag, and the off-grid products. -/
structure Acc where
  v : Int
  sat : Bool
  nOff : Nat
  deriving DecidableEq, Repr

/-- The bound of an accumulator (R89). -/
def accMax : Int := 2147483647

/-- Exact product of two finite values. -/
def Num.mul (a b : Num) : Num :=
  match a, b with
  | .fin n1 m1 e1, .fin n2 m2 e2 => .fin (n1 != n2) (m1 * m2) (e1 + e2)
  | _, _ => .zero

/-- The count of grid units of a product, and whether it was off-grid (R84). -/
def gridCount (x : Num) (g : Int) : Int × Bool :=
  match x with
  | .fin neg m e =>
    let (q, r, d) := inUnits m e g
    let n := roundQ .rne neg q r d
    (if neg then -(n : Int) else n, r != 0)
  | _ => (0, false)

/-- Add one product into an accumulator (R84, R86, R89): a sum that would leave the range, or a count that itself lies outside it, clamps with
its sign. -/
def Acc.add (a : Acc) (p : Int) (off : Bool) : Acc :=
  let s := a.v + p
  let n := a.nOff + b2n off
  if s > accMax ∨ p > accMax then ⟨accMax, true, n⟩ else if s < -accMax ∨ p < -accMax then ⟨-accMax, true, n⟩ else ⟨s, a.sat, n⟩

/-- Accumulate the pairs of one output element in ascending K order. -/
def Acc.run (init : Acc) (g : Int) (l : List (Num × Num)) : Acc :=
  l.foldl (fun a x => let (p, off) := gridCount (x.1.mul x.2) g; a.add p off) init

/-- The accumulator of a bank's cell. -/
def Cell.acc (c : Cell) : Acc := ⟨c.v, c.sticky, c.nOff⟩

/-- Accumulate pairs in a bank's cell, in ascending K order. -/
def Cell.run (c : Cell) (l : List (Num × Num)) : Cell :=
  let a := c.acc.run c.g l
  ⟨c.g, a.v, a.sat, a.nOff⟩

/-- Exact sum of two values m × 2^e. -/
def exAdd (a b : Int × Int) : Int × Int :=
  let e := min a.2 b.2
  (a.1 * 2 ^ (a.2 - e).toNat + b.1 * 2 ^ (b.2 - e).toNat, e)

/-- A finite value as m × 2^e. -/
def Num.exact (x : Num) : Int × Int :=
  match x with
  | .fin neg m e => (if neg then -(m : Int) else m, e)
  | _ => (0, 0)

/-- The checker cell of a row after the products of one K span, from what it held (R96): the exact sum of A[i, k] × B[k, j]. -/
def chkRun (c : Int × Int) (l : List (Num × Num)) : Int × Int := l.foldl (fun a x => exAdd a (x.1.mul x.2).exact) c

/-- Whether a row passes its check (R96): the checker equals the exact sum of the row's accumulators, or differs from it by at most
n_row × 2^(g − 1). A row that holds a saturated element is not checked. -/
def rowPasses (cells : List Cell) (chk : Int × Int) : Bool :=
  let sum := cells.foldl (fun a c => exAdd a (c.v, c.g)) (0, chk.2)
  let d := exAdd chk (-sum.1, sum.2)
  let tol := cells.foldl (fun a c => exAdd a (c.nOff, c.g - 1)) (0, d.2)
  let x := exAdd tol (-(d.1.natAbs : Int), d.2)
  cells.any (·.sticky) || decide (0 ≤ x.1)

/-- The INT32 mark of a saturated element (R90). -/
def rawMark : Nat := 0x80000000

/-- Raw partial of an accumulator (R90). -/
def Acc.raw (a : Acc) : Nat := if a.sat then rawMark else unsigned 32 a.v

/-- Exact two's-complement addition of raw partials (R92). -/
def rawAdd (a b : Nat) : Nat :=
  let s := signed 32 a + signed 32 b
  if a = rawMark ∨ b = rawMark ∨ s > accMax ∨ s < -accMax then rawMark else unsigned 32 s

/-- The raw code of a part's sum: the mark where it lies outside the accumulator's range (R89, R90). -/
def partRaw (i : Int) : Nat := if i > accMax ∨ i < -accMax then rawMark else unsigned 32 i

/-- The exact value of an accumulator. -/
def Acc.value (a : Acc) (g : Int) : Num := .ofInt a.v g

/-! ## The epilogue -/

/-- The epilogue of R100. -/
structure Epi where
  colscaleEn : Bool
  biasEn : Bool
  deriv : Bool
  func : Nat
  groupEn : Bool
  satmap : Bool
  rowstat : Bool
  raw : Bool
  p0 : Nat
  p1 : Nat
  bias : Nat
  colscale : Nat
  group : Nat
  rawBad : Bool
  deriving DecidableEq, Repr

/-- Parse ARGS bytes 32–43 (R100). -/
def TaskDesc.epi (d : TaskDesc) : Epi :=
  let b0 := d.arg 32 1
  let b1 := d.arg 33 1
  { colscaleEn := bitOf b0 7, biasEn := bitOf b0 6, deriv := bitOf b0 5, func := b0 % 32, groupEn := bitOf b1 3,
    satmap := bitOf b1 2, rowstat := bitOf b1 1, raw := bitOf b1 0, p0 := d.arg 34 2, p1 := d.arg 36 2, bias := d.arg 38 2,
    colscale := d.arg 40 2, group := d.arg 42 2, rawBad := bitOf b1 0 && (b0 != 0 || d.arg 34 8 != 0) }

/-- An E8M7 code as a binary32 pattern. -/
def e8m7w (c : Nat) : Word := BitVec.ofNat 32 (c % 65536 * 65536)

/-- Whether an E8M7 vector serves the output's N columns (R100). -/
def State.vecOk (s : State) (k : Fin 8) (id N : Nat) : Bool :=
  match s.tensor? k id with
  | none => false
  | some t => t.fmt == .e8m7 && t.layout == .d && t.dim 0 == N && (List.range 4).all fun i => t.dim (i + 1) == 1

/-- Whether the epilogue is refused (R100). -/
def State.epiBad (s : State) (k : Fin 8) (e : Epi) (N : Nat) : Bool :=
  decide (e.func > 8) ||
  (e.func == 3 && ((decE8M7 e.p0).isNan || (decE8M7 e.p1).isNan || (decE8M7 e.p1).lt (decE8M7 e.p0))) ||
  (e.func == 2 && (decE8M7 e.p0).isNan) || e.rawBad ||
  (e.biasEn && !s.vecOk k e.bias N) || (e.colscaleEn && !s.vecOk k e.colscale N)

/-- Element j of an enabled E8M7 vector as binary32 (R57, R100). -/
def State.vec (s : State) (k : Fin 8) (id j : Nat) : Word :=
  match s.tensor? k id with
  | none => 0
  | some t => f32enc .rne (s.readAt t.fmt 0 (t.dPlace 0 j)).v

/-- 1 / (1 + e^−v) (R100, R101). -/
def sigmoid (v : Word) : Word := f32div .rne 0x3F800000 (f32add .rne 0x3F800000 (f32exp (f32neg v)))

/-- tanh(0.797884561 (v + 0.044715 v³)) (R100, R101). -/
def geluT (v : Word) : Word :=
  f32tanh (f32mul .rne 0x3F4C422A (f32add .rne v (f32mul .rne 0x3D372713 (f32mul .rne (f32mul .rne v v) v))))

/-- v ≥ 0 on binary32. -/
def f32nonneg (v : Word) : Bool := !(f32dec v).isNan && !f32lt v 0

/-- The function codes of R100 in binary32. -/
def epiFunc (f : Nat) (p0 p1 v : Word) : Word :=
  match f with
  | 1 => f32max v 0
  | 2 => if f32nonneg v then v else f32mul .rne v p0
  | 3 => f32min (f32max v p0) p1
  | 4 => let m := f32max v 0; f32mul .rne m m
  | 5 => f32mul .rne (f32mul .rne 0x3F000000 v) (f32add .rne 0x3F800000 (geluT v))
  | 6 => sigmoid v
  | 7 => f32mul .rne v (sigmoid v)
  | 8 => f32tanh v
  | _ => v

/-- What a derivative source keeps for a function (R170). -/
inductive DKind where
  | none | bit | pre | post
  deriving DecidableEq, Repr

/-- The kind of source of a function (R170). -/
def dKind : Nat → DKind
  | 1 => .bit | 2 => .bit | 3 => .bit | 4 => .pre | 5 => .pre | 6 => .post | 7 => .pre | 8 => .post | _ => .none

/-- The derivative d from a value source (R170). -/
def derivOf (f : Nat) (z : Word) : Word :=
  match f with
  | 4 => f32mul .rne 0x40000000 (f32max z 0)
  | 5 =>
    let t := geluT z
    f32add .rne (f32mul .rne 0x3F000000 (f32add .rne 0x3F800000 t))
      (f32mul .rne (f32mul .rne (f32mul .rne (f32mul .rne 0x3F000000 z) (f32sub .rne 0x3F800000 (f32mul .rne t t))) 0x3F4C422A)
        (f32add .rne 0x3F800000 (f32mul .rne 0x3E095D4F (f32mul .rne z z))))
  | 6 => f32mul .rne z (f32sub .rne 0x3F800000 z)
  | 7 => let s := sigmoid z; f32mul .rne s (f32add .rne 0x3F800000 (f32mul .rne z (f32sub .rne 0x3F800000 s)))
  | 8 => f32sub .rne 0x3F800000 (f32mul .rne z z)
  | _ => 0x3F800000

/-- What the drain makes of one element: the value to convert, the binary32 value for statistics and top-k, the value entering
step 4 and the value leaving it. -/
structure Drained where
  val : Num
  stat : Word
  pre : Word
  post : Word
  deriving DecidableEq, Repr

/-- Steps 1 to 4 of R101 with R170 and R173. `cs` and `bi` are the enabled vector elements, `bit` and `src` the derivative source. -/
def drainSteps (e : Epi) (x : Num) (cs bi : Word) (bit : Bool) (src : Word) : Drained :=
  let v0 := f32enc .rne x
  let v1 := if e.colscaleEn then f32mul .rne v0 cs else v0
  let v2 := if e.biasEn then f32add .rne v1 bi else v1
  let plain := !e.colscaleEn && !e.biasEn
  if e.deriv then
    match dKind e.func with
    | .none => ⟨if plain then x else f32dec v2, v2, v2, v2⟩
    | .bit =>
      if e.func = 2 then
        let v3 := f32mul .rne v2 (if bit then 0x3F800000 else e8m7w e.p0)
        ⟨f32dec v3, v3, v2, v3⟩
      else if bit then ⟨if plain then x else f32dec v2, v2, v2, v2⟩
      else ⟨.zero, 0, v2, 0⟩
    | _ => let v3 := f32mul .rne v2 (derivOf e.func src); ⟨f32dec v3, v3, v2, v3⟩
  else if e.func = 0 then ⟨if plain then x else f32dec v2, v2, v2, v2⟩
  else let v3 := epiFunc e.func (e8m7w e.p0) (e8m7w e.p1) v2; ⟨f32dec v3, v3, v2, v3⟩

/-- The bit a forward drain keeps (R170): v > 0, or strictly between the bounds for HARDCLIP; 0 for a NaN. -/
def Epi.dBit (e : Epi) (pre : Word) : Bool :=
  if e.func = 3 then f32lt (e8m7w e.p0) pre && f32lt pre (e8m7w e.p1) else f32pos pre

/-! ## Row statistics (R102) -/

/-- −∞ in binary32. -/
def f32ninf : Word := 0xFF800000

/-- m_t and s_t of one row of one column tile. -/
def tileStat (vs : List Word) : Word × Word :=
  let m := vs.foldl f32max f32ninf
  (m, vs.foldl (fun a v => f32add .rne a (f32exp (f32sub .rne v m))) 0)

/-- Merge of R102. -/
def mergeStat (a t : Word × Word) : Word × Word :=
  let mn := f32max a.1 t.1
  (mn, f32add .rne (f32mul .rne a.2 (f32exp (f32sub .rne a.1 mn))) (f32mul .rne t.2 (f32exp (f32sub .rne t.1 mn))))

/-- The statistics of a row from its computed column tiles in ascending order. -/
def rowStat (tiles : List (List Word)) : Word × Word :=
  (tiles.filter (!·.isEmpty)).foldl (fun a vs => mergeStat a (tileStat vs)) (f32ninf, 0)

/-! ## Top-k (R103) -/

/-- An entry of the top-k unit. -/
structure TopEnt where
  pos : Nat
  v : Num
  deriving DecidableEq, Repr

/-- Ranking magnitude: a NaN ranks as zero. -/
def TopEnt.mag (e : TopEnt) : Num := if e.v.isNan then .zero else e.v.abs

/-- Strictly before in the order of R103. -/
def TopEnt.before (a b : TopEnt) : Bool := b.mag.lt a.mag || (!a.mag.lt b.mag && decide (a.pos < b.pos))

/-- Insert in order. -/
def topIns (x : TopEnt) : List TopEnt → List TopEnt
  | [] => [x]
  | y :: l => if x.before y then x :: y :: l else y :: topIns x l

/-- The k entries of a segment. -/
def topK (k : Nat) (l : List TopEnt) : List TopEnt := (l.foldl (fun a x => topIns x a) []).take k

/-- Write the k entries of segment i (R103, R104): values as E8M7 at site 0, positions as INT32; missing entries have position
0xFFFF_FFFF and value 0. `put` gives the address of element n of each tensor. -/
def topCodes (k : Nat) (l : List TopEnt) : List (Nat × Nat) :=
  let es := (topK k l).map fun e => (if e.v.isNan then 0x7FC0 else convE8M7 .rne e.v, e.pos)
  es ++ List.replicate (k - es.length) (0, 0xFFFFFFFF)

end Sys2Proof.Machine
end

