-- ==== Sys2Proof/Machine/Update.lean ====
section
/-! DEFINITION. Parameter update at the stacks (R253 to R279, R416): the update record, the arithmetic of one block, opening and ending an
APPLY, arriving gradients, statistics and their fold, rendering, VERIFY, REPLAY, FREEZE and THAW. -/

namespace Sys2Proof.Machine

/-! ## The update record (R259, R260) -/

/-- Whether a binary32 is finite. -/
def f32fin (w : Word) : Bool := w.toNat / 2 ^ 23 % 256 != 255

/-- Parse and check an update record (R259, R260); none where CHECK, a reserved code or bit, or a range fails. -/
def parseUpd (bs : List Byte) : Option UpdRec :=
  let w := fun o : Nat => (BitVec.ofNat 32 (field bs o 4) : Word)
  let rule := field bs 0 1
  let fl := field bs 1 1
  if crc32 (bs.take 60) ≠ field bs 0x3C 4 ∨ rule > 3 ∨ fl ≥ 32 ∨ !((bs.drop 0x2E).take 14).all (· == 0) then none
  else if !(f32nonneg (w 4) && f32lt (w 4) 0x3F800000 && f32nonneg (w 8) && f32lt (w 8) 0x3F800000 && f32pos (w 0xC) &&
      f32nonneg (w 0x10) && (!bitOf fl 3 || f32pos (w 0x14)) && (!bitOf fl 4 || f32pos (w 0x18)) && f32fin (w 0x1C) &&
      !(f32dec (w 0x1C)).isZero) then none
  else some
    { rule := rule, nesterov := bitOf fl 0, factMom := bitOf fl 1, masterSr := bitOf fl 2, rowClipEn := bitOf fl 3,
      globalClipEn := bitOf fl 4, lrSlot := field bs 2 2, beta1 := w 4, beta2 := w 8, eps := w 0xC, wd := w 0x10, rowClip := w 0x14,
      globalClip := w 0x18, gradScale := w 0x1C, stateAddr := field bs 0x20 5, retainAddr := field bs 0x25 5, stage := field bs 0x2A 4 }

/-- Whether the rule keeps a momentum tensor (R260). -/
def UpdRec.hasMom (r : UpdRec) : Bool := r.rule == 1 || r.rule == 2 || (r.rule == 3 && r.factMom)

/-- Whether the applied elements enter the scratch records (R266). -/
def UpdRec.sums (r : UpdRec) : Bool := r.rule == 3 || r.rowClipEn

/-- Byte address of a learning-rate entry (R259). -/
def Suite.lrAddr (u : Suite) (i : Nat) : Nat := 64 * addr40 u.lrLo u.lrHi + 4 * i

/-- The learning rate of a record (R260): none where the slot or the entry is refused. -/
def State.lrOf (s : State) (k : Fin 8) (r : UpdRec) : Option Word :=
  let w : Word := BitVec.ofNat 32 (s.le (s.suites[k].lrAddr r.lrSlot) 4)
  if decide (r.lrSlot < s.suites[k].lrSlots.toNat % 65536) && f32fin w && f32nonneg w then some w else none

/-! ## Blocks (R255, R258) -/

/-- Number of M16 blocks of a master, B of R275. -/
def Tensor.nBlocks (t : Tensor) (st : Struct) : Nat := if t.layout = .st then st.nStrips else t.nr * cdiv t.nc 32

/-- Byte address of a block's scale or header (R107, R109, R113, R116). -/
def Tensor.blockAt (t : Tensor) (g : Nat) : Nat :=
  let n := cdiv t.nc 32
  match t.layout with
  | .d => t.rowAddr (t.outer (g / n)) + g % n * t.fmt.sw
  | .st => 64 * t.base + g * t.fmt.sw
  | .m4 => 64 * t.base + g / n * (m4A t.fmt t.nc + m4V t.fmt t.nc) + g % n * t.fmt.sw
  | .bk => 64 * t.base + g / n * up64 (n * t.fmt.sw) + g % n * t.fmt.sw

/-- The slot of an element in its block's retention (R275). -/
def Place.slot (t : Tensor) (p : Place) : Nat :=
  match t.layout with
  | .st => p.idx | .m4 => p.idx % 8 | _ => p.col % 32

/-- The step tag of a block (R258). -/
def State.tagOf (s : State) (t : Tensor) (g : Nat) : Nat := s.le (t.blockAt g + 1) 3

/-- Elements of a block: (number p of R255, place). -/
def blockEls (st : Struct) (g : Nat) : List (Nat × Place) :=
  (st.places.zipIdx.filter fun x => x.1.group == g).map fun x => (x.2, x.1)

/-! ## The update state area and the retention area (R267, R275) -/

def UpdRec.rowAt (r : UpdRec) (i : Nat) : Nat := 64 * r.stateAddr + 64 + 4 * i
def UpdRec.colAt (r : UpdRec) (nr i : Nat) : Nat := 64 * r.stateAddr + 64 + up64 (4 * nr) + 2 * i
def UpdRec.rowSum (r : UpdRec) (nr nc i : Nat) : Nat := 64 * r.stateAddr + 64 + up64 (4 * nr) + up64 (2 * nc) + 16 * i
def UpdRec.colSum (r : UpdRec) (nr nc i : Nat) : Nat := r.rowSum nr nc nr + 16 * i

/-- Bytes of the update state area. -/
def UpdRec.stateSize (r : UpdRec) (nr nc : Nat) : Nat := 64 + up64 (4 * nr) + up64 (2 * nc) + 16 * nr + 16 * nc + 256 * r.stage

/-- Retention: the tag word of a block, and its values. -/
def UpdRec.retTag (r : UpdRec) (g : Nat) : Nat := 64 * r.retainAddr + 64 + 4 * g
def UpdRec.retVal (r : UpdRec) (nb g slot : Nat) : Nat := 64 * r.retainAddr + 64 + up64 (4 * nb) + 128 * g + 4 * slot

/-- Bytes of the retention area. -/
def retainSize (nb : Nat) : Nat := 64 + up64 (4 * nb) + 128 * nb

/-- Add one square to a scratch record: 96-bit sum in units of 2^−64, 32-bit count (R266). Returns whether the sum saturated. -/
def State.addScratch (s : State) (a sq : Nat) : State × Bool :=
  let v := s.le a 12 + sq
  let sat := decide (2 ^ 96 ≤ v)
  ((s.write a (leBytes 12 (if sat then 2 ^ 96 - 1 else v))).write (a + 12) (leBytes 4 (s.le (a + 12) 4 + 1)), sat)

/-- gr × gr truncated to a multiple of 2^−64 (R266). -/
def sqGrid (gr : Word) : Nat :=
  match f32dec gr with
  | .fin _ m e => (inUnits (m * m) (2 * e) (-64)).1
  | .inf _ => 2 ^ 96
  | .nan _ => 0

/-! ## Checking a task (R254, R260) -/

/-- What an update task works on. -/
structure UpdCtx where
  d : Fin 8
  i : Fin 12
  m : Tensor
  st : Struct
  mom : Option (Tensor × Struct)
  copy : Option (Tensor × Struct)
  deriving DecidableEq, Repr

/-- Same shape, layout and index as the master (R253, R255). -/
def sharesIndex (m t : Tensor) : Bool := t.layout == m.layout && t.index == m.index && t.size == m.size && t.valid

/-- Whether unit ranges lie in the window of one stack (R254). -/
def inStack (d : Fin 8) (i : Fin 12) (rs : List (Nat × Nat)) : Bool :=
  rs.all fun r => r.2 == 0 || (homeOf r.1 == some (d, i) && homeOf (r.1 + r.2 - 1) == some (d, i))

/-- An optional member tensor with its structure. -/
def State.member (s : State) (k : Fin 8) (id : Nat) (ok : Tensor → Bool) : Except Status (Option (Tensor × Struct)) :=
  if id = 0xFFFF then .ok none
  else match s.tensor? k id with
    | none => .error .formatError
    | some t =>
      if !ok t then .error .formatError
      else match s.struct k t with
        | .ok st => .ok (some (t, st))
        | .error e => .error e.status

/-- Operand and placement checks shared by the modes (R254, R255, R260). `areas` are the state and retention areas. -/
def State.updCtx (s : State) (k : Fin 8) (t : Task) (areas : Nat → Nat → Nat → List (Nat × Nat)) : Except Status UpdCtx := do
  let d := t.desc
  match s.tensor? k (d.tensor 0) with
  | none => .error .formatError
  | some m =>
    orElse (m.fmt == .m16 && m.valid) .formatError
    let st ← (match s.struct k m with | .ok x => Except.ok x | .error e => .error e.status)
    let mom ← s.member k (d.tensor 1) fun x => (x.fmt == .int8 || x.fmt == .e4m3) && x.slot == 0xFFFF && sharesIndex m x
    let copy ← s.member k (d.tensor 2) fun x => x.fmt.narrow && s.slotOk k x && sharesIndex m x
    match homeOf m.base with
    | none => .error .formatError
    | some (dd, ii) =>
      let rs := s.regions m st ++ (match mom with | some x => s.regions x.1 x.2 | none => []) ++
        (match copy with | some x => s.regions x.1 x.2 | none => []) ++ areas m.nr m.nc (m.nBlocks st)
      orElse (inStack dd ii rs && d.dieMask == dieMaskOf [dd]) .formatError
      orElse (rs.all fun r => s.regionOk k r.1 r.2) .accessDenied
      orElse (st.bad == 0) .formatError
      orElse (!s.structPoison m) .poisoned
      pure { d := dd, i := ii, m := m, st := st, mom := mom, copy := copy }

/-- Refuse an update task: its events (R124, R129, R195, R201), then the status. -/
def State.updRefuse (s : State) (k : Fin 8) (t : Task) (e : Status) : State :=
  match s.tensor? k (t.desc.tensor 0) with
  | none => s.finish k t.h e
  | some m =>
    if e = .poisoned then (s.taskMemError k t m.index 1 2).finish k t.h e
    else match e, s.struct k m with
      | .formatError, .ok st =>
        if st.bad = 0 then s.refuse k t false [] e else (s.formatEvent k t m.id m.layout.badKind 0 st.bad).finish k t.h e
      | _, _ => s.refuse k t false [m.id] e

/-- Check an APPLY, REPLAY or RENDER with its record (R254, R257, R260): context, record and learning rate. -/
def State.updCheck (s : State) (k : Fin 8) (t : Task) : Except Status (UpdCtx × UpdRec × Word) := do
  let d := t.desc
  match parseUpd (s.bytes (64 * d.arg 0 5) 64) with
  | none => .error .formatError
  | some r =>
    let c ← s.updCtx k t fun nr nc nb => [(r.stateAddr, units (r.stateSize nr nc))] ++
      (if r.retainAddr = 0 then [] else [(r.retainAddr, units (retainSize nb))])
    match s.lrOf k r with
    | none => .error .formatError
    | some lr =>
      orElse (c.mom.isSome == r.hasMom && (c.m.retain == (r.retainAddr != 0))) .formatError
      let src := d.arg 5 1
      let g := s.tensor? k (d.tensor 3)
      let p := c.st.places.length
      orElse (decide (src ≤ 2) && (match src with
        | 0 => d.tensor 3 == 0xFFFF
        | 1 => (match g with | some x => x.fmt == .int32 | none => false)
        | _ => (match g with | some x => x.fmt == .int32 && x.isD p 1 1 | none => false))) .formatError
      orElse (d.mode != 0 || decide (cdiv p 64 + 1 ≤ r.stage)) .formatError
      pure (c, r, lr)

/-! ## One block (R262 to R268, R271, R275) -/

/-- The per-task constants of R262. -/
structure UpdConst where
  lr : Word
  cg : Word
  wdk : Word
  omb1 : Word
  omb2 : Word
  deriving DecidableEq, Repr

/-- Constants rounded once per task (R262). -/
def updConst (r : UpdRec) (lr cg : Word) : UpdConst :=
  { lr := lr, cg := cg, wdk := f32sub .rne 0x3F800000 (f32mul .rne lr r.wd), omb1 := f32sub .rne 0x3F800000 r.beta1,
    omb2 := f32sub .rne 0x3F800000 r.beta2 }

/-- The statistics in force for an element (R262, R265): cr of its row, and the factored v when FOLDED and RMEAN > 0. -/
structure UpdStat where
  cr : Word
  v : Option Word
  deriving DecidableEq, Repr

/-- New master and momentum of one element (R262). -/
def updElem (r : UpdRec) (c : UpdConst) (x : UpdStat) (gr w m : Word) : Word × Word :=
  let mul := f32mul .rne
  let add := f32add .rne
  let gc := mul (mul gr c.cg) x.cr
  let (d, m') : Word × Word :=
    match r.rule with
    | 0 => (gc, m)
    | 1 =>
      let m1 := add (mul r.beta1 m) gc
      (if r.nesterov then add gc (mul r.beta1 m1) else m1, m1)
    | 2 =>
      let s := add (mul r.beta1 m) (mul c.omb1 gc)
      (if f32pos s then 0x3F800000 else if f32lt s 0 then 0xBF800000 else 0, add (mul r.beta2 m) (mul c.omb2 gc))
    | _ =>
      let v := x.v.getD (mul gc gc)
      let u := f32div .rne gc (add (f32sqrt .rne v) r.eps)
      if r.factMom then (let m1 := add (mul r.beta1 m) (mul c.omb1 u); (m1, m1)) else (u, m)
  (f32sub .rne (mul w c.wdk) (mul c.lr d), m')

/-- The statistics of an element at (row, col) of a master with `nr` rows. -/
def State.updStat (s : State) (r : UpdRec) (nr row col : Nat) : UpdStat :=
  let norm := s.le (r.rowAt row + 2) 2
  let rmean := e8m7w (s.le (64 * r.stateAddr) 2)
  let folded := bitOf (s.byte (64 * r.stateAddr + 2)).toNat 0
  { cr := if r.rowClipEn ∧ !(decE8M7 norm).isZero then f32min 0x3F800000 (f32div .rne r.rowClip (e8m7w norm)) else 0x3F800000,
    v := if folded && f32pos rmean then
        some (f32div .rne (f32mul .rne (e8m7w (s.le (r.rowAt row) 2)) (e8m7w (s.le (r.colAt nr col) 2))) rmean)
      else none }

/-- gr of an arrived total (R262): none for a marked element. -/
def Arrived.gr (a : Arrived) (r : UpdRec) : Option Word := if a.marked then none else some (f32mul .rne (f32ofInt a.s a.g) r.gradScale)

/-- Rounding mode of an update site for a given step (R66). -/
def updMode (seed : Vector Word 4) (sr : Bool) (site tensor step idx : Nat) : RMode :=
  if sr then .sr (mix (srCounter site tensor step idx) seed) else .rne

/-- Write a momentum block (R263): scale code, codes. -/
def State.putMom (s : State) (t : Tensor) (step : Nat) (seed : Vector Word 4) (xs : List (Place × Num)) : State :=
  match xs with
  | [] => s
  | x :: _ =>
    let e8 := momScale t.fmt (xs.map (·.2))
    let ue : Int := (e8 : Int) - 127
    let codes := xs.map fun (p, v) =>
      (p.valAt, p.idx, if e8 = 0 then 0 else (convNarrow t.fmt (updMode seed true 4 t.id step (t.lin p.row p.col)) v ue).1)
    let used := xs.map (·.1.idx)
    let pads := ((t.groupSlots x.1.idx).filter fun i => !used.contains i).map fun i => (x.1.valAt, i, 0)
    ((s.write x.1.scaleAt [BitVec.ofNat 8 e8]).putCodes t.fmt codes).putCodes t.fmt pads

/-- Write a master block (R59, R64, R258): header with its tag, values. -/
def State.putMaster (s : State) (t : Tensor) (g tag step : Nat) (sr : Bool) (seed : Vector Word 4) (xs : List (Place × Num)) : State :=
  let e8 := m16Scale (xs.map (·.2))
  let codes := xs.map fun (p, v) => (p.valAt, p.idx, convM16 (updMode seed sr 3 t.id step (t.lin p.row p.col)) v e8)
  let used := xs.map (·.1.idx)
  let pads := match xs with
    | [] => []
    | x :: _ => ((t.groupSlots x.1.idx).filter fun i => !used.contains i).map fun i => (x.1.valAt, i, 0)
  ((s.putCodes .m16 codes).putCodes .m16 pads).write (t.blockAt g) (leBytes 4 (e8 + 256 * (tag % 2 ^ 24)))

/-- Render a block of the compute copy and its skim copy from the master's stored values (R268). -/
def State.renderBlock (s : State) (k : Fin 8) (c : UpdCtx) (g : Nat) (step : Nat) (count : Bool) : State :=
  match c.copy with
  | none => s
  | some (t, st) =>
    let sr := s.slotSR k t
    let seed := s.suites[k].seed
    let src := (c.st.places.filter fun (p : Place) => p.group == g).map fun p => s.readAt .m16 0 p
    let dst := st.places.filter fun (p : Place) => p.group == g
    let puts := (dst.zip src).map fun (x : Place × Ent) =>
      ({ place := x.1, src := ⟨x.2.v, false, updMode seed sr 1 t.id step (t.lin x.1.row x.1.col)⟩ } : Put)
    let s1 := s.putGroup k t 0 count puts
    if t.hasSkim then s1.writeSkimAt k t st fun (p : Place) => p.group == g else s1

/-- Whether any line of a block's elements is poisoned. -/
def State.blockPoison (s : State) (t : Tensor) (st : Struct) (g : Nat) : Bool :=
  (st.places.filter fun (p : Place) => p.group == g).any fun p => (s.readAt t.fmt 0 p).pois

/-- Poison what a block wrote (R201). -/
def State.poisonBlock (s : State) (t : Tensor) (st : Struct) (g : Nat) : State :=
  ((st.places.filter fun (p : Place) => p.group == g).foldl (fun u p => u.poisonPlace t.fmt p) s).poisonSkimOf t st fun p => p.group == g

/-- A block in which an element was kept: R264 or R416. -/
structure BlockOut where
  s : State
  kept : Nat
  sumSat : Bool

/-- Apply one block (R262 to R268, R271): master, momentum, copies, scratch sums, and the tag written with the group. `grs` gives gr of
each element by its number; none for a marked one. -/
def State.applyBlock (s : State) (k : Fin 8) (c : UpdCtx) (r : UpdRec) (kc : UpdConst) (step : Nat) (count sums : Bool) (g : Nat)
    (grs : List (Nat × Option Word)) : BlockOut :=
  let seed := s.suites[k].seed
  let els := blockEls c.st g
  let look := fun p : Nat => ((grs.find? fun x => x.1 == p).map (·.2)).getD none
  let momAt := fun p : Nat => c.mom.bind fun x => x.2.places[p]?.map fun q => (x.1, q)
  let outs := els.map fun (p, pl) =>
    let w := (s.readAt .m16 0 pl).v
    let m := match momAt p with | some (t, q) => (s.readAt t.fmt 0 q).v | none => Num.zero
    match look p with
    | none => (pl, w, m, true, none)
    | some gr =>
      let (w1, m1) := updElem r kc (s.updStat r c.m.nr pl.row pl.col) gr (f32enc .rne w) (f32enc .rne m)
      if f32fin w1 && (!r.hasMom || f32fin m1) then (pl, f32dec w1, f32dec m1, false, some gr) else (pl, w, m, true, some gr)
  let s1 := s.putMaster c.m g step step r.masterSr seed (outs.map fun o => (o.1, o.2.1))
  let s2 := match c.mom with
    | none => s1
    | some (t, st) =>
      s1.putMom t step seed (((st.places.filter fun (p : Place) => p.group == g).zip outs).map
        fun (x : Place × Place × Num × Num × Bool × Option Word) => (x.1, x.2.2.2.1))
  let s3 := s2.renderBlock k c g step count
  let (s4, sat) := outs.foldl (fun (acc : State × Bool) o =>
    match o.2.2.2.2 with
    | some gr =>
      if r.sums && sums then
        let (a, x) := acc.1.addScratch (r.rowSum c.m.nr c.m.nc o.1.row) (sqGrid gr)
        let (b, y) := a.addScratch (r.colSum c.m.nr c.m.nc o.1.col) (sqGrid gr)
        (b, acc.2 || x || y)
      else acc
    | none => acc) (s3, false)
  { s := s4, kept := (outs.filter fun o => o.2.2.2.1).length, sumSat := sat }

/-- Whether a line that a block's write group would read is poisoned: of the master, of the momentum, or of the statistics that its elements
take (R262). DEDUCED, log 66: such a block is left untouched. -/
def State.updPoison (s : State) (c : UpdCtx) (r : UpdRec) (g : Nat) : Bool :=
  s.blockPoison c.m c.st g || (match c.mom with | some (t, st) => s.blockPoison t st g | none => false) ||
    ((r.rule == 3 || r.rowClipEn) && (blockEls c.st g).any fun x => s.poisonIn (r.rowAt x.2.row) 4 ||
      (r.rule == 3 && (s.poisonIn (r.colAt c.m.nr x.2.col) 2 || s.poisonIn (64 * r.stateAddr) 3)))

/-! ## Units and open applies (R253, R257) -/

/-- Update a stack's update unit. -/
def State.modUpd (s : State) (d : Fin 8) (i : Fin 12) (f : UpdUnit → UpdUnit) : State :=
  s.modStack d i fun x => { x with upd := f x.upd }

/-- Update an open APPLY. -/
def State.modApply (s : State) (d : Fin 8) (i : Fin 12) (k : Fin 8) (h : Nat) (f : OpenApply → OpenApply) : State :=
  s.modUpd d i fun u => { u with opened := u.opened.map fun o => if o.k == k.val && o.h == h then f o else o }

/-- An open APPLY of a task. -/
def UpdUnit.open? (u : UpdUnit) (k : Fin 8) (h : Nat) : Option OpenApply := u.opened.find? fun o => o.k == k.val && o.h == h

/-- The context of an open APPLY's task. -/
def State.openCtx (s : State) (k : Fin 8) (o : OpenApply) : Option (Task × UpdCtx) :=
  match s.task? k o.h with
  | none => none
  | some t =>
    match s.updCtx k t fun _ _ _ => [] with
    | .ok c => some (t, c)
    | .error _ => none

/-- Write the norm area once every block has been written (R268). -/
def State.finishCopy (s : State) (k : Fin 8) (c : UpdCtx) : State :=
  match c.copy with
  | some (t, st) => if t.hasSkim then s.writeNorms k t st else s
  | none => s

/-- Close an open APPLY: log the frozen drops, note the tensor for the fold (R267, R270), and finish the task. -/
def State.closeApply (s : State) (d : Fin 8) (i : Fin 12) (k : Fin 8) (t : Task) (c : UpdCtx) (o : OpenApply) (st : Status) : State :=
  let step := s.suites[k].step.toNat
  let s1 := s.modUpd d i fun u => { u with opened := u.opened.filter fun x => !(x.k == k.val && x.h == o.h) }
  let s2 := if o.frozen && o.dropped != 0 then
      s1.oncePerStep k 0x170 c.m.id fun z => z.suiteEvent k 0x170 d (12 * d.val + i.val) (pack [(2, c.m.id), (2, 0), (4, o.dropped), (4, step), (4, 0)])
    else s1
  let final := ((t.status.worse st).worse (if o.sat then .saturated else .done)).worse (if o.dup then .formatError else .done)
  let s3 := if o.frozen then s2 else s2.modSuite k fun u =>
    { u with folds := (c.m.id, o.rcd, final == .done || final == .saturated) :: u.folds.filter fun x => x.1 != c.m.id }
  s3.finish k t.h final

/-- Finish an APPLY all of whose blocks are done. -/
def State.tryComplete (s : State) (d : Fin 8) (i : Fin 12) (k : Fin 8) (h : Nat) : State :=
  match (s.stack d i).upd.open? k h with
  | none => s
  | some o =>
    match s.openCtx k o with
    | none => s
    | some (t, c) =>
      let full := if o.frozen then decide (c.st.places.length ≤ o.arrived.length) else decide (c.m.nBlocks c.st ≤ o.blocksDone.length)
      if full then ((if o.frozen then s else s.finishCopy k c).closeApply d i k t c o .done) else s

/-- Process one block of an open APPLY that has all its elements (R257, R258); a block with a poisoned input is left untouched (R272, log 66). -/
def State.applyReady (s : State) (d : Fin 8) (i : Fin 12) (k : Fin 8) (h g : Nat) : State :=
  match (s.stack d i).upd.open? k h with
  | none => s
  | some o =>
    match s.openCtx k o with
    | none => s
    | some (t, c) =>
      let step := s.suites[k].step.toNat
      let mine := (blockEls c.st g).map (·.1)
      let got := o.arrived.filter fun a => mine.contains a.p
      if o.frozen || o.blocksDone.contains g || decide (got.length < mine.length) then s
      else
        let s0 := s.modApply d i k h fun x => { x with blocksDone := g :: x.blocksDone }
        if s.tagOf c.m g = step % 2 ^ 24 then s0.modUpd d i fun u => { u with tagSkip := u.tagSkip.satAdd 1 }
        else if s.updPoison c o.rcd g then (s0.taskMemError k t (c.m.blockAt g / 64) 1 2).worsen k h .poisoned
        else
          let s1 := if o.rcd.retainAddr = 0 then s0 else
            let pad := (List.range 32).filter fun j => !((blockEls c.st g).any fun x => x.2.slot c.m == j)
            (pad.foldl (fun u j => u.write (o.rcd.retVal (c.m.nBlocks c.st) g j) (leBytes 4 0)) s0).write (o.rcd.retTag g)
              (leBytes 4 (2 ^ 31 + step % 2 ^ 24))
          let b := s1.applyBlock k c o.rcd (updConst o.rcd o.lr o.cg) step (!t.recompute) true g (got.map fun a => (a.p, a.gr o.rcd))
          let s2 := b.s.modUpd d i fun u => { u with blocks := u.blocks.satAdd 1, satSkip := u.satSkip.satAdd b.kept }
          let s3 := if b.kept = 0 then s2 else s2.modApply d i k h fun x => { x with sat := true }
          if b.sumSat then s3.modSuite k fun u => { u with sumSat := c.m.id :: u.sumSat } else s3

/-- One value arrives at an open APPLY (R256, R257, R264, R270, R275). -/
def State.arrive (s : State) (d : Fin 8) (i : Fin 12) (k : Fin 8) (h : Nat) (a : Arrived) : State :=
  match (s.stack d i).upd.open? k h with
  | none => s
  | some o =>
    match s.openCtx k o with
    | none => s
    | some (_, c) =>
      let nP := c.st.places.length
      if decide (nP ≤ a.p) || o.arrived.any fun x => x.p == a.p then
        (s.modUpd d i fun u => { u with dup := u.dup.satAdd 1 }).modApply d i k h fun x => { x with dup := true }
      else
        let s1 := s.modApply d i k h fun x => { x with arrived := x.arrived ++ [a] }
        if o.frozen then
          (s1.modUpd d i fun u => { u with frozenDrop := u.frozenDrop.satAdd 1 }).modApply d i k h fun x => { x with dropped := x.dropped + 1 }
        else match c.st.places[a.p]? with
          | none => s1
          | some pl =>
            let skip := s.tagOf c.m pl.group == s.suites[k].step.toNat % 2 ^ 24
            let s2 := if o.rcd.retainAddr = 0 || skip then s1
              else s1.write (o.rcd.retVal (c.m.nBlocks c.st) pl.group (pl.slot c.m)) (leBytes 4 ((a.gr o.rcd).getD 0x7FC00000).toNat)
            s2.applyReady d i k h pl.group

/-- Values arrive in order, then the APPLY completes when nothing is missing. -/
def State.arriveAll (s : State) (d : Fin 8) (i : Fin 12) (k : Fin 8) (h : Nat) (l : List Arrived) : State :=
  (l.foldl (fun u a => u.arrive d i k h a) s).tryComplete d i k h

/-- The global clipping factor (R265), and whether the norm of step t − 1 is missing. -/
def State.clipFactor (s : State) (k : Fin 8) (r : UpdRec) : Word × Bool :=
  let u := s.suites[k]
  if !r.globalClipEn then (0x3F800000, false)
  else if u.gnormStep = u.step - 1 ∧ u.gnormFlags.getLsbD 0 then
    (if u.gnormFlags.getLsbD 1 then 0 else f32min 0x3F800000 (f32div .rne r.globalClip (f32mul .rne u.gnorm (f32abs r.gradScale))), false)
  else (0x3F800000, true)

/-- The elements of a MEMORY source, read once with the g of the grid record (R255), and the elements whose line is poisoned. -/
def State.memGrad (s : State) (t : Tensor) : List Arrived × List Nat :=
  let es := (List.range t.nc).map fun p =>
    let e := s.readAt .int32 0 (t.dPlace 0 p)
    let c := if e.pois then 0 else e.code
    let v := if c = 0x80000000 then 0 else signed 32 c
    (({ p := p, s := v, g := signed 8 (s.byte (64 * t.index + p / 64)).toNat, marked := c == 0x80000000 } : Arrived), e.pois || s.poisonIn (64 * t.index + p / 64) 1)
  (es.map (·.1), (es.filter (·.2)).map (·.1.p))

/-- Open an APPLY on its unit (R253, R257, R261, R265, R275): the record, the learning rate and cg are read once; the retention header is
written; blocks with no element are applied; a MEMORY source is consumed. A block of which a gradient line is poisoned is left untouched
(R272, log 66). -/
def State.openApply (s : State) (k : Fin 8) (t : Task) (c : UpdCtx) (r : UpdRec) (lr : Word) : State :=
  let step := s.suites[k].step.toNat
  let (cg, miss) := s.clipFactor k r
  let s0 := if miss then s.oncePerStep k 0x173 c.m.id fun z =>
      z.suiteEvent k 0x173 c.d (12 * c.d.val + c.i.val) (pack [(2, c.m.id),
        (1, b2n (!s.suites[k].gnormFlags.getLsbD 0) + 2 * b2n (s.suites[k].gnormFlags.getLsbD 1)), (1, 0), (4, step), (8, 0)])
    else s
  let o : OpenApply :=
    { k := k.val, h := t.h, master := c.m.id, rcd := r, lr := lr, cg := cg, arrived := [], blocksDone := [],
      dup := false, sat := false, dropped := 0, frozen := c.m.frozen }
  let s1 := s0.modUpd c.d c.i fun u => { u with opened := u.opened ++ [o] }
  let s2 := if r.retainAddr = 0 || o.frozen then s1
    else s1.write (64 * r.retainAddr) (leBytes 4 step ++ leBytes 4 cg.toNat ++ leBytes 4 lr.toNat)
  let s3 := if o.frozen then s2 else s2.modSuite k fun u =>
    { u with applied := (c.m.id, r.retainAddr) :: u.applied.filter fun x => x.1 != c.m.id }
  let empty := (List.range (c.m.nBlocks c.st)).filter fun g => (blockEls c.st g).isEmpty
  let s4 := empty.foldl (fun u g => u.applyReady c.d c.i k t.h g) s3
  match t.desc.arg 5 1, s.tensor? k (t.desc.tensor 3) with
  | 2, some g =>
    let (l, bad) := s.memGrad g
    let s5 := if bad.isEmpty then s4 else
      ((s4.taskMemError k t g.base 1 2).worsen k t.h .poisoned).modApply c.d c.i k t.h fun x =>
        { x with blocksDone := ((bad.filterMap fun p => c.st.places[p]?.map (·.group)) ++ x.blocksDone).eraseDups }
    s5.arriveAll c.d c.i k t.h l
  | _, _ => s4.arriveAll c.d c.i k t.h []

/-- The open APPLY of a master, if one is open (R256). -/
def UpdUnit.applyOf (u : UpdUnit) (k : Fin 8) (master : Nat) : Option OpenApply := u.opened.find? fun o => o.k == k.val && o.master == master

/-- Whether a value for a master must wait for its APPLY to open (R256). -/
def State.mustWait (s : State) (d : Fin 8) (i : Fin 12) (k : Fin 8) (master : Nat) : Bool := ((s.stack d i).upd.applyOf k master).isNone

/-- Values for a master reach its open APPLY (R256); with none open they stay where they are. -/
def State.deliver (s : State) (d : Fin 8) (i : Fin 12) (k : Fin 8) (master : Nat) (a : List Arrived) : State :=
  match (s.stack d i).upd.applyOf k master with
  | some o => s.arriveAll d i k o.h a
  | none => s

/-- End the wait of an APPLY or REPLAY early (R46, R52, R257, R272, R273): complete blocks stay applied, staged elements are discarded,
UPD_INCOMPLETE gives the blocks not applied. -/
def State.endApply (s : State) (k : Fin 8) (h reason : Nat) (st : Status) : State :=
  match s.task? k h with
  | none => s
  | some t =>
    match s.updCtx k t fun _ _ _ => [] with
    | .error _ => s.finish k h st
    | .ok c =>
      let ev := fun (u : State) (n : Nat) => u.suiteEvent k 0x171 c.d (12 * c.d.val + c.i.val)
        (pack [(4, t.desc.taskId), (2, c.m.id), (1, reason), (1, 0), (4, n), (4, s.suites[k].step.toNat)])
      let nb := c.m.nBlocks c.st
      match (s.stack c.d c.i).upd.open? k h with
      | some o => (ev s (nb - o.blocksDone.length)).closeApply c.d c.i k t c o st
      | none => ((ev s nb).modUpd c.d c.i fun u => { u with waiting := u.waiting.filter fun x => x != (k.val, h) }).finish k h st

/-- The master and its unit that drained values of a raw tensor go to (R255, SOURCE 1): an APPLY of the suite names it as TENSOR[3], the latest where
several do. -/
def State.drainTarget (s : State) (k : Fin 8) (c : Nat) : Option (Nat × Fin 8 × Fin 12) :=
  match s.suites[k].tasks.reverse.find? fun t => t.desc.type == 5 && t.desc.mode == 0 && t.desc.arg 5 1 == 1 && t.desc.tensor 3 == c with
  | none => none
  | some t =>
    match s.tensor? k (t.desc.tensor 0) with
    | none => none
    | some m => (homeOf m.base).map fun x => (m.id, x.1, x.2)

/-! ## Fold (R267) -/

/-- A scratch record as (sum, count). -/
def State.scratch (s : State) (a : Nat) : Nat × Nat := (s.le a 12, s.le (a + 12) 4)

/-- f32(sum) of a scratch sum. -/
def sumF32 (sum : Nat) : Word := f32enc .rne (.fin false sum (-64))

/-- The folded statistic of a row or column (R267). -/
def foldStat (r : UpdRec) (folded : Bool) (old sum count : Nat) : Nat :=
  let mean := f32div .rne (sumF32 sum) (f32ofInt count 0)
  let v := if folded then f32add .rne (f32mul .rne r.beta2 (e8m7w old)) (f32mul .rne (f32sub .rne 0x3F800000 r.beta2) mean) else mean
  convE8M7 .rne (f32dec v)

/-- Fold a tensor's scratch into its statistics (R267), for step `step`; `sat` tells whether a sum saturated. -/
def State.foldTensor (s : State) (r : UpdRec) (nr nc step : Nat) (sat : Bool) : State :=
  let a := 64 * r.stateAddr
  let folded := bitOf (s.byte (a + 2)).toNat 0
  let s1 := (List.range nr).foldl (fun u i =>
    let (sum, cnt) := s.scratch (r.rowSum nr nc i)
    if cnt = 0 then u
    else u.write (r.rowAt i) (leBytes 2 (foldStat r folded (s.le (r.rowAt i) 2) sum cnt) ++
      leBytes 2 (convE8M7 .up (f32dec (f32sqrt .rne (sumF32 sum)))))) s
  let s2 := (List.range nc).foldl (fun u i =>
    let (sum, cnt) := s.scratch (r.colSum nr nc i)
    if cnt = 0 then u else u.write (r.colAt nr i) (leBytes 2 (foldStat r folded (s.le (r.colAt nr i) 2) sum cnt))) s1
  let total := (List.range nr).foldl (fun acc i => f32add .rne acc (e8m7w (s2.le (r.rowAt i) 2))) 0
  let rmean := convE8M7 .rne (f32dec (f32div .rne total (f32ofInt nr 0)))
  s2.write a (leBytes 2 rmean ++ leBytes 1 (1 + 2 * b2n sat) ++ [0] ++ leBytes 4 step)

/-- Clear a tensor's scratch. -/
def State.clearScratch (s : State) (r : UpdRec) (nr nc : Nat) : State :=
  s.write (r.rowSum nr nc 0) (List.replicate (16 * nr + 16 * nc) 0)

/-! ## The modes -/

/-- Binding passes from a bound master to what the unit writes (R316): none when the bound-region table would overflow. -/
def State.bindUpdate (s : State) (k : Fin 8) (c : UpdCtx) (areas : List (Nat × Nat)) : Option State :=
  let outs := (match c.mom with | some x => [x] | none => []) ++ (match c.copy with | some x => [x] | none => [])
  s.bindTo k (s.regions c.m c.st) ((outs.flatMap fun x => s.regions x.1 x.2) ++ areas) (outs.map (·.1))

/-- Run `f` with the binding propagated, or refuse the task (R316). -/
def State.withBinding (s : State) (k : Fin 8) (t : Task) (c : UpdCtx) (areas : List (Nat × Nat)) (f : State → State) : State :=
  match s.bindUpdate k c areas with
  | none => (s.boundRefused k t c.m.id 2).finish k t.h .accessDenied
  | some u => f u

/-- The state and retention areas of a record. -/
def UpdRec.areas (r : UpdRec) (c : UpdCtx) : List (Nat × Nat) :=
  (r.stateAddr, units (r.stateSize c.m.nr c.m.nc)) ::
    (if r.retainAddr = 0 then [] else [(r.retainAddr, units (retainSize (c.m.nBlocks c.st)))])

/-- Put a task in a unit's waiting line, in dispatch order (R253). -/
def waitIns (x : Nat × Nat) : List (Nat × Nat) → List (Nat × Nat)
  | [] => [x]
  | y :: l => if x.2 < y.2 then x :: y :: l else y :: waitIns x l

/-- Start an APPLY or REPLAY that may open now, else let it wait (R253, R258): with 64 open, or with others waiting before it. `next` tells that
the task is the one that APPLY_OPEN takes from the line. -/
def State.startUpdate (s : State) (k : Fin 8) (t : Task) (c : UpdCtx) (next : Bool) (f : State → State) : State :=
  let u := (s.stack c.d c.i).upd
  if (u.open? k t.h).isSome || u.waiting.contains (k.val, t.h) then s
  else if u.opened.any fun o => o.k == k.val && o.master == c.m.id then s.finish k t.h .busy
  else if !next && (decide (64 ≤ u.opened.length) || !u.waiting.isEmpty) then
    s.modUpd c.d c.i fun x => { x with waiting := waitIns (k.val, t.h) x.waiting }
  else f s

/-- Run the body of an APPLY. -/
def State.runApply (s : State) (k : Fin 8) (t : Task) (next : Bool := false) : State :=
  match s.updCheck k t with
  | .error e => s.updRefuse k t e
  | .ok (c, r, lr) =>
    if (s.stack c.d c.i).upd.fn.st ≠ .running then s.finish k t.h .disabled
    else s.withBinding k t c (r.areas c) fun v => v.startUpdate k t c next fun u => u.openApply k t c r lr

/-- Blocks of a master whose tag differs from a step. -/
def State.otherTags (s : State) (c : UpdCtx) (step : Nat) : List Nat :=
  (List.range (c.m.nBlocks c.st)).filter fun g => s.tagOf c.m g != step % 2 ^ 24

/-- Blocks without valid retention of a step (R276). -/
def State.noRetention (s : State) (c : UpdCtx) (r : UpdRec) (step : Nat) : List Nat :=
  (List.range (c.m.nBlocks c.st)).filter fun g => s.le (r.retTag g) 4 / 2 ^ 31 != 1 || s.le (r.retTag g) 4 % 2 ^ 24 != step % 2 ^ 24

/-- Log UPD_VERIFY. -/
def State.verifyEvent (s : State) (k : Fin 8) (t : Task) (c : UpdCtx) (a b : Nat) : State :=
  s.suiteEvent k 0x172 c.d (12 * c.d.val + c.i.val) (pack [(4, t.desc.taskId), (2, c.m.id), (2, 0), (4, a), (4, b)])

/-- A retained gr (R275): the mark is a NaN. -/
def State.retained (s : State) (c : UpdCtx) (r : UpdRec) (g : Nat) : List (Nat × Option Word) :=
  (blockEls c.st g).map fun (p, pl) =>
    let w : Word := BitVec.ofNat 32 (s.le (r.retVal (c.m.nBlocks c.st) g (pl.slot c.m)) 4)
    (p, if w = 0x7FC00000 then none else some w)

/-- Whether a line of a block's retention, or the header of the retention area, is poisoned. -/
def State.retPoison (s : State) (c : UpdCtx) (r : UpdRec) (g : Nat) : Bool :=
  s.poisonIn (64 * r.retainAddr) 12 || s.poisonIn (r.retTag g) 4 || s.poisonIn (r.retVal (c.m.nBlocks c.st) g 0) 128

/-- The blocks whose retained values a REPLAY of a step lacks (R277). -/
def State.replayBad (s : State) (c : UpdCtx) (r : UpdRec) (step : Nat) : List Nat :=
  if r.retainAddr = 0 then List.range (c.m.nBlocks c.st) else s.noRetention c r step

/-- Whether a REPLAY lacks retained values that it needs (R277): of any block where the step's sums are folded, else of a block to be applied. -/
def State.replayShort (s : State) (c : UpdCtx) (r : UpdRec) (step : Nat) : Bool :=
  let bad := s.replayBad c r step
  if r.sums then !bad.isEmpty else (s.otherTags c step).any bad.contains

/-- What a REPLAY does with the retained values (R277): the blocks whose tag differs are applied, and the tensor is folded. A block with a poisoned
input is left untouched, and a tensor with one is not folded (R272, log 66). -/
def State.replayRun (s : State) (k : Fin 8) (t : Task) (c : UpdCtx) (r : UpdRec) : State :=
  let step := t.desc.arg 8 4
  let todo := s.otherTags c step
  let cg : Word := BitVec.ofNat 32 (s.le (64 * r.retainAddr + 4) 4)
  let lr : Word := BitVec.ofNat 32 (s.le (64 * r.retainAddr + 8) 4)
  let bad := fun g => s.updPoison c r g || s.retPoison c r g
  let pois := todo.any bad || (r.sums && (List.range (c.m.nBlocks c.st)).any (s.retPoison c r))
  let run := todo.filter fun g => !bad g
  let (s1, kept) := run.foldl (fun (acc : State × Nat) g =>
    let b := acc.1.applyBlock k c r (updConst r lr cg) step false false g (s.retained c r g)
    (b.s, acc.2 + b.kept)) (s, 0)
  let s2 := (s1.modUpd c.d c.i fun u => { u with replayed := u.replayed.satAdd run.length, satSkip := u.satSkip.satAdd kept })
  let s3 := if todo.isEmpty then s2 else s2.finishCopy k c
  let s4 := s3.clearScratch r c.m.nr c.m.nc
  let (s5, sat) := if r.sums && !pois then
      (List.range (c.m.nBlocks c.st)).foldl (fun (acc : State × Bool) g =>
        ((s.retained c r g).zip (blockEls c.st g)).foldl (fun (a : State × Bool) x =>
          match x.1.2 with
          | none => a
          | some gr =>
            let (y, p) := a.1.addScratch (r.rowSum c.m.nr c.m.nc x.2.2.row) (sqGrid gr)
            let (z, q) := y.addScratch (r.colSum c.m.nr c.m.nc x.2.2.col) (sqGrid gr)
            (z, a.2 || p || q)) acc) (s4, false)
    else (s4, false)
  let s6 := (if pois then s5 else s5.foldTensor r c.m.nr c.m.nc step sat).clearScratch r c.m.nr c.m.nc
  let s7 := s6.modSuite k fun u =>
    let others := u.applied.filter fun x => x.1 != c.m.id
    { u with applied := (c.m.id, r.retainAddr) :: others, sumSat := u.sumSat.filter (· != c.m.id) }
  let s8 := if pois then (s7.taskMemError k t c.m.base 1 2).worsen k t.h .poisoned else s7
  s8.finish k t.h (if kept = 0 then .done else .saturated)

/-- Run the body of a REPLAY (R277). -/
def State.runReplay (s : State) (k : Fin 8) (t : Task) (next : Bool := false) : State :=
  match s.updCheck k t with
  | .error e => s.updRefuse k t e
  | .ok (c, r, _) =>
    if (s.stack c.d c.i).upd.fn.st ≠ .running then s.finish k t.h .disabled
    else if c.m.frozen then s.finish k t.h .frozen
    else s.withBinding k t c (r.areas c) fun v => v.startUpdate k t c next fun s =>
      let step := t.desc.arg 8 4
      if s.replayShort c r step then (s.verifyEvent k t c (s.otherTags c step).length (s.replayBad c r step).length).finish k t.h .formatError
      else s.replayRun k t c r

/-- UPDATE APPLY (R253 to R268): opens on its unit, or waits; completes when every block has been applied or skipped. -/
def execUpdateApply (k : Fin 8) (h : Nat) (s : State) : Out :=
  .next <| s.runTask k h 5 0 fun u t => u.withRecord k t 1 fun v => v.runApply k t

/-- UPDATE REPLAY (R277). -/
def execUpdateReplay (k : Fin 8) (h : Nat) (s : State) : Out :=
  .next <| s.runTask k h 5 4 fun u t => u.withRecord k t 1 fun v => v.runReplay k t

/-- APPLY_OPEN (R253): the task that has waited longest opens when fewer than 64 are open. -/
def execApplyOpen (d : Fin 8) (i : Fin 12) (s : State) : Out :=
  .next <|
    let u := (s.stack d i).upd
    match u.waiting with
    | [] => s
    | (kk, h) :: rest =>
      if 64 ≤ u.opened.length then s
      else
        let s1 := s.modUpd d i fun x => { x with waiting := rest }
        s1.onRunning (fin8 kk) h fun t =>
          s1.confine (fin8 kk) fun v => if t.desc.mode = 4 then v.runReplay (fin8 kk) t true else v.runApply (fin8 kk) t true

/-- GRADIENT_ARRIVAL (R256, R257, R271): one total or drained value reaches the APPLY of task `h`. While that APPLY is not open the value waits
where it is, and the command changes nothing. -/
def execGradientArrival (d : Fin 8) (i : Fin 12) (h elem : Nat) (total grid : Int) (marked : Bool) (s : State) : Out :=
  .next <|
    match s.owner d with
    | none => s
    | some k =>
      match s.task? k h with
      | none => s
      | some t =>
        if t.desc.type = 5 ∧ t.desc.mode = 0 ∧ t.state ≠ .finished then
          s.confine k fun u => u.deliver d i k (t.desc.tensor 0) [{ p := elem, s := total, g := grid, marked := marked }]
        else s

/-- The tensors that FREEZE and THAW mark (R270): table entries of the master, of TENSOR[1] and TENSOR[2], and of every tensor of the
tensor set with the master's nonzero INDEX. -/
def State.frozenGroup (s : State) (k : Fin 8) (d : TaskDesc) : List Nat :=
  match s.tensor? k (d.tensor 0), s.table? k with
  | some m, some _ =>
    let named := [d.tensor 0, d.tensor 1, d.tensor 2].filterMap fun id => (s.tensor? k id).map (·.at_)
    let same := if m.index = 0 then [] else s.suites[k].tensSet.eraseDups.filterMap fun id => match s.tensor? k id with
      | some x => if x.index = m.index then some x.at_ else none
      | none => none
    (named ++ same).eraseDups
  | _, _ => []

/-- Apply a FREEZE or THAW to its entries. -/
def State.setFrozen (s : State) (at_ : List Nat) (v : Bool) : State := at_.foldl (fun u a => u.setEntryFlag a 0 v) s

/-- FREEZE and THAW (R270): at the next step boundary while a RUN is in flight, else at once. -/
def State.runFreeze (s : State) (k : Fin 8) (t : Task) (v : Bool) : State :=
  if (s.tensor? k (t.desc.tensor 0)).isNone ||
     [t.desc.tensor 1, t.desc.tensor 2].any (fun id => id != 0xFFFF && (s.tensor? k id).isNone) then s.finish k t.h .formatError
  else
    let g := s.frozenGroup k t.desc
    let s1 := if s.suites[k].run.isSome then s.modSuite k fun u => { u with frozenPend := u.frozenPend ++ g.map fun a => (a, v) }
      else s.setFrozen g v
    s1.finish k t.h .done

/-- UPDATE FREEZE (R270). -/
def execUpdateFreeze (k : Fin 8) (h : Nat) (s : State) : Out :=
  .next <| s.runTask k h 5 1 fun u t => u.runFreeze k t true

/-- UPDATE THAW (R270). -/
def execUpdateThaw (k : Fin 8) (h : Nat) (s : State) : Out :=
  .next <| s.runTask k h 5 2 fun u t => u.runFreeze k t false

/-- UPDATE VERIFY (R276). -/
def State.updateVerify (s : State) (k : Fin 8) (t : Task) : State :=
  s.withRecord k t (if t.desc.arg 0 5 = 0 then 0 else 1) fun s =>
  let a := t.desc.arg 0 5
  let bs := s.bytes (64 * a) 64
  let ret := field bs 0x25 5
  match s.updCtx k t fun nr nc nb => if a = 0 then [] else
      (field bs 0x20 5, units (64 + up64 (4 * nr) + up64 (2 * nc) + 16 * nr + 16 * nc + 256 * field bs 0x2A 4)) ::
        (if ret = 0 then [] else [(ret, units (retainSize nb))]) with
  | .error e => s.updRefuse k t e
  | .ok c =>
    if a ≠ 0 ∧ (crc32 (bs.take 60) ≠ field bs 0x3C 4 ∨ (ret ≠ 0) ≠ c.m.retain) then s.finish k t.h .formatError
    else
      let step := t.desc.arg 8 4
      let x := (s.otherTags c step).length
      let y := if a = 0 ∨ ret = 0 then 0
        else ((List.range (c.m.nBlocks c.st)).filter fun g =>
          let w := s.le (64 * ret + 64 + 4 * g) 4
          w / 2 ^ 31 != 1 || w % 2 ^ 24 != step % 2 ^ 24).length
      ((s.verifyEvent k t c x y).modTask k t.h fun z => { z with count := min 65535 x }).finish k t.h .done

/-- UPDATE VERIFY as a command: its effect on a started task (R276). -/
def execUpdateVerify (k : Fin 8) (h : Nat) (s : State) : Out :=
  .next (s.runTask k h 5 3 fun u t => u.updateVerify k t)

/-- Render every block of a copy (R268, R269). -/
def State.renderAll (s : State) (k : Fin 8) (c : UpdCtx) (step : Nat) (count : Bool) : State :=
  let s1 := (List.range (c.m.nBlocks c.st)).foldl (fun u g =>
    let v := u.renderBlock k c g step count
    if s.blockPoison c.m c.st g then (match c.copy with | some (t, st) => v.poisonBlock t st g | none => v) else v) s
  let s2 := match c.copy with | some (t, st) => s1.settle t st (st.places.filter fun (p : Place) => !s.blockPoison c.m c.st p.group) | none => s1
  s2.finishCopy k c

/-- UPDATE RENDER (R269): the copies and the norm area from the master. -/
def State.updateRender (s : State) (k : Fin 8) (t : Task) : State :=
  s.withRecord k t 1 fun s =>
  match s.updCheck k t with
  | .error e => s.updRefuse k t e
  | .ok (c, _, _) =>
    if (s.stack c.d c.i).upd.fn.st ≠ .running then s.finish k t.h .disabled
    else s.withBinding k t c [] fun s =>
      let pois := (List.range (c.m.nBlocks c.st)).any (s.blockPoison c.m c.st)
      let s1 := s.renderAll k c s.suites[k].step.toNat (!t.recompute)
      (if pois then (s1.taskMemError k t c.m.base 1 2).worsen k t.h .poisoned else s1).finish k t.h .done

/-- UPDATE RENDER as a command: its effect on a started task (R269). -/
def execUpdateRender (k : Fin 8) (h : Nat) (s : State) : Out :=
  .next (s.runTask k h 5 5 fun u t => u.updateRender k t)

end Sys2Proof.Machine
end

