-- ==== Sys2Proof/Machine/Product.lean ====
section
/-! DEFINITION. PRODUCT, the product under SKIM FUSED and TOPK PRODUCT_SCAN: what a task asks, when it does not run (R132, R153, R174),
its tiles (R85, R133 to R147), and what its drain writes (R90, R91, R101, R102, R141 to R143, R171, R172). -/

namespace Sys2Proof.Machine

/-! ## What a product task asks -/

/-- The request of a product (R131, R152, R104). -/
structure ProdReq where
  mode : Nat
  a : Nat
  b : Nat
  c : Nat
  mask : Nat
  map : Nat
  dsrc : Nat
  accIn : Nat
  rowT : Nat
  satT : Nat
  va : Nat
  vb : Nat
  skipEmpty : Bool
  partNnz : Nat
  merge : Nat
  mergeCap : Nat
  needAcc : Bool
  needMap : Bool
  epi : Epi
  scan : Bool
  skim : Bool
  predict : Bool
  deriving DecidableEq, Repr

/-- The request of a PRODUCT (R131). -/
def TaskDesc.prodReq (d : TaskDesc) : ProdReq :=
  let fl := d.arg 8 1
  { mode := d.mode, a := d.tensor 0, b := d.tensor 1, c := d.tensor 2, mask := if d.mode = 2 then d.tensor 3 else 0xFFFF,
    map := if d.mode ≠ 2 ∧ bitOf fl 2 then d.tensor 3 else 0xFFFF, dsrc := d.tensor 4,
    accIn := if bitOf fl 1 then d.tensor 5 else 0xFFFF, rowT := d.tensor 6, satT := d.tensor 7, va := d.arg 0 4, vb := d.arg 4 4,
    skipEmpty := bitOf fl 0, partNnz := d.arg 12 4, merge := d.arg 16 5, mergeCap := d.arg 24 4,
    needAcc := bitOf fl 1, needMap := decide (d.mode ≠ 2) && bitOf fl 2, epi := d.epi, scan := false, skim := false, predict := false }

/-- The request of a TOPK PRODUCT_SCAN (R104): a PLAIN product whose C is not written. -/
def TaskDesc.scanReq (d : TaskDesc) : ProdReq :=
  { d.prodReq with mode := 0, mask := 0xFFFF, map := if bitOf (d.arg 8 1) 2 then d.tensor 3 else 0xFFFF,
                   needMap := bitOf (d.arg 8 1) 2, c := 0xFFFF, scan := true, epi := d.epi }

/-- The request of a SKIM PREDICT or FUSED, for its equivalent PLAIN product (R152). -/
def TaskDesc.skimReq (d : TaskDesc) : ProdReq :=
  { d.prodReq with mode := 0, c := d.tensor 3, mask := 0xFFFF, map := d.tensor 2, dsrc := 0xFFFF, accIn := 0xFFFF, needAcc := false,
                   needMap := true, skipEmpty := false, partNnz := 0, skim := true, predict := d.mode == 0 }

/-- The request of a task that runs on the panels, by its TYPE: a TOPK PRODUCT_SCAN, a SKIM, or a PRODUCT. -/
def TaskDesc.panelReq (d : TaskDesc) : ProdReq := if d.type = 7 then d.scanReq else if d.type = 2 then d.skimReq else d.prodReq

/-- A derivative source: its (possibly synthetic) tensor, whether it holds bits, and the stack frame it lies in. -/
structure DSource where
  t : Tensor
  bit : Bool
  frame : Option AstFrame
  deriving DecidableEq, Repr

/-- A checked product. -/
structure Prod where
  r : ProdReq
  M : Nat
  N : Nat
  K : Nat
  batch : Nat
  A : Tensor
  B : Tensor
  va : View
  vb : View
  aSt : Struct
  twin : List TwinList
  mask : Option (Tensor × Struct)
  map : Option Tensor
  C : Option Tensor
  cSt : Struct
  dsrc : Option DSource
  accIn : Option Tensor
  rowT : Option Tensor
  satT : Option Tensor
  splitRows : List Nat
  cutTiles : List Nat
  deriving DecidableEq, Repr

/-- Cut the listed strips of a twin entry, each with its slots in the tile, into parts: each part is the longest run of strips whose slots
number at most `lim` (R144). `cur` is the part under way with its slots. -/
def cutParts (lim : Nat) : List Nat → Nat → List (Nat × Nat) → List (List Nat)
  | cur, _, [] => if cur.isEmpty then [] else [cur]
  | cur, acc, (j, n) :: l =>
    if !cur.isEmpty && decide (lim < acc + n) then cur :: cutParts lim [j] n l else cutParts lim (cur ++ [j]) (acc + n) l

/-- Slots of each listed strip in the tile. -/
def TwinList.slots (l : TwinList) (strips : List Strip) : List Nat :=
  l.list.map fun j => match strips[j]? with | some p => if p.ok then (p.inTile l.window l.tile).length else 0 | none => 0

/-- The parts of a twin entry's list (R144). -/
def TwinList.parts (l : TwinList) (partNnz : Nat) (strips : List Strip) : List (List Nat) :=
  cutParts (if partNnz = 0 then 2048 else partNnz) [] 0 (l.list.zip (l.slots strips))

/-- The parts of the twin entry of output row tile `i` (R144). -/
def Prod.parts (p : Prod) (i : Nat) : List (List Nat) :=
  match p.twin.find? fun l => 64 * l.window + l.tile == i with
  | none => []
  | some l => l.parts p.r.partNnz p.aSt.strips

/-- Whether a tensor id denotes the activation stack (08, R180). -/
def Suite.isAst (u : Suite) (id : Nat) : Bool := u.ast.ctrl.getLsbD 31 && decide (u.ast.ctrl.toNat % 65536 = id)

/-- Size of a bit source or map row: T2 with SIZE[0] = ⌈N/2⌉ (R171). -/
def Tensor.isBits (t : Tensor) (n m b : Nat) : Bool := t.fmt == .t2 && t.slot == 0xFFFF && t.isD ((n + 1) / 2) m b

/-- Formats of a value source (R171). -/
def valueSourceFmt (f : Fmt) : Bool := f == .int8 || f == .e4m3 || f == .e5m2 || f == .e8m7

/-- The source rows of a stack frame as a tensor (R181). -/
def frameTensor (desc : Tensor) (addr n m b : Nat) (bit : Bool) : Tensor :=
  let f := if bit then .t2 else desc.fmt
  let nc := if bit then (n + 1) / 2 else n
  let rec64 := dRecord f nc / 64
  { desc with fmt := f, layout := .d, rank := 5, flags := 0, slot := if bit then 0xFFFF else desc.slot, size := [nc, m, b, 1, 1],
              stride := [0, rec64, rec64 * m, 0, 0], base := addr + 1, index := 0, twin := 0, skim := 0 }

/-- Units of a frame (R181). -/
def frameUnits (f : Fmt) (n m b : Nat) (bit : Bool) : Nat :=
  1 + m * b * dRecord (if bit then .t2 else f) (if bit then (n + 1) / 2 else n) / 64

/-- Unit address of the activation stack region. -/
def Suite.astBase (u : Suite) : Nat := addr40 u.ast.baseLo u.ast.baseHi

/-- The frame a task pushes or pops (R180). -/
def Suite.frameOf (u : Suite) (h : Nat) (pop : Bool) : Option AstFrame :=
  u.ast.frames.find? fun f => if pop then f.popTask == some h else f.pushTask == h

/-- The derivative source of a product (R170, R171, R174, R180): none when the task names none; an error where R174 refuses it. A
task of a recompute segment ignores a TENSOR[4] that denotes the stack, as if it named none (R187). -/
def State.dSource (s : State) (k : Fin 8) (t : Task) (r : ProdReq) (n m b : Nat) : Except Status (Option DSource) :=
  let kind := dKind r.epi.func
  let id := if s.suites[k].isAst r.dsrc && t.recompute then 0xFFFF else r.dsrc
  if id = 0xFFFF then (if r.epi.deriv ∧ kind ≠ .none then .error .formatError else .ok none)
  else if kind = .none then .error .formatError
  else match s.tensor? k id with
    | none => .error .formatError
    | some d =>
      if s.suites[k].isAst id then
        (if kind ≠ .bit ∧ !valueSourceFmt d.fmt then .error .formatError
         else match s.suites[k].frameOf t.h r.epi.deriv with
           | none => .error .formatError
           | some f => .ok (some { t := frameTensor d (s.suites[k].astBase + f.start) n m b (kind == .bit), bit := kind == .bit, frame := some f }))
      else if kind = .bit then (if d.isBits n m b then .ok (some ⟨d, true, none⟩) else .error .formatError)
      else if valueSourceFmt d.fmt ∧ d.isD n m b then .ok (some ⟨d, false, none⟩) else .error .formatError

/-- Operand checks of a product: formats, layouts, views, extents (R83, R125, R130, R132). -/
def operandsOk (r : ProdReq) (A B : Tensor) (va vb : View) (M N K batch : Nat) : Bool :=
  let aDims := if r.mode = 1 then [M, K, batch, 1, 1] else [K, M, batch, 1, 1]
  let bDims := if r.mode = 2 then [K, N, 1, 1, 1] else [N, K, batch, 1, 1]
  let aOk := match A.layout with
    | .d => A.viewOk va && (List.range 5).all fun i =>
        A.viewDim va aDims i == aDims.getD i 1 || (i == 2 && A.viewDim va aDims 2 == 1)
    | _ => r.mode != 2 && va.identity && A.nc == aDims.getD 0 1 && A.nr == aDims.getD 1 1 && A.valid &&
           (r.mode == 0 || A.layout != .st || A.hasTwin)
  A.fmt.narrow && B.fmt.narrow && B.layout == .d && B.viewOk vb && aOk && A.valid && B.valid &&
  (List.range 5).all fun i => B.viewDim vb bDims i == bDims.getD i 1

/-- Check a product before it runs (R132, R153, R174). -/
def State.prodCheck (s : State) (k : Fin 8) (t : Task) (r : ProdReq) : Except Status Prod := do
  let d := t.desc
  let M := d.dim 0
  let N := d.dim 1
  let K := d.dim 2
  let batch := d.dim 3
  let e := r.epi
  orElse (decide (d.dim 5 = 0) && decide (d.dim 6 = 0) && decide (d.dim 7 = 0) && decide (d.dim 4 ≤ 2) && decide (1 ≤ batch)) .formatError
  orElse (!(r.needAcc && r.accIn == 0xFFFF) && !(r.needMap && r.map == 0xFFFF)) .formatError
  orElse (r.partNnz == 0 || (decide (256 ≤ r.partNnz) && decide (r.partNnz ≤ 65536))) .formatError
  let A ← s.need k r.a
  let B ← s.need k r.b
  match parseView r.va, parseView r.vb with
  | some va, some vb =>
    orElse (operandsOk r A B va vb M N K batch) .formatError
    orElse (!s.epiBad k e N) .formatError
    orElse (r.mode != 2 || (batch == 1 && !e.deriv && r.dsrc == 0xFFFF)) .formatError
    let aSt ← s.needStruct k A
    let twin ← (if r.mode = 1 ∧ A.layout = .st then
        match s.twin k A aSt with
        | .ok l => .ok l
        | .error x => .error x.status
      else .ok [])
    let mask ← (if r.mode = 2 then do
        let m ← s.need k r.mask
        orElse (m.layout != .d && m.nc == N && m.nr == M) .formatError
        let st ← s.needStruct k m
        pure (some (m, st))
      else pure none)
    let P := match mask with | some (_, st) => st.places.length | none => 0
    let C ← s.needOpt k r.c
    orElse (r.scan || r.c != 0xFFFF || r.skim) .formatError
    let cOk := match C with
      | none => true
      | some c =>
        (c.fmt == .int32) == e.raw && c.fmt != .m16 &&
        (match mask with
         | none => c.isD N M batch
         | some (m, _) =>
           if e.raw then c.isD P 1 1 && d.gridFix.getLsbD 31
           else c.layout == m.layout && c.index == m.index && c.nc == N && c.nr == M && c.valid)
    orElse cOk .formatError
    let cSt ← (match C, mask with
      | some c, some (_, mst) => if e.raw then pure c.dStruct else do
          let st ← s.needStruct k c
          orElse (st.places.length == mst.places.length) .formatError
          pure st
      | some c, none => pure c.dStruct
      | none, _ => pure .empty)
    let map ← s.needOpt k r.map
    orElse (match map with
      | none => true
      | some m => m.fmt == .t2 && m.isD N M batch && (!r.skim || m.slot == 0xFFFF)) .formatError
    let accIn ← s.needOpt k r.accIn
    orElse (match accIn with | none => true | some x => x.fmt == .int32 && x.isD N M batch) .formatError
    let rowT ← (if e.rowstat ∧ !r.scan then do
        let x ← s.need k r.rowT
        orElse (x.fmt == .int32 && x.layout == .d && x.dim 1 == 2 && decide (x.dim 0 ≥ M * batch) && x.valid) .formatError
        pure (some x)
      else pure none)
    let satT ← (if e.satmap ∧ !r.scan then do
        let x ← s.need k r.satT
        orElse (if r.mode = 2 ∧ e.raw then x.isBits P 1 1 else x.isBits N M batch) .formatError
        pure (some x)
      else pure none)
    let dsrc ← s.dSource k t r N M batch
    let splitRows := if A.layout = .st ∧ r.mode = 0 then
        (List.range M).filter fun m => decide (1 < (aSt.lanes.filter fun l => l.row == m).length) else []
    let cutTiles := twin.filterMap fun l =>
      if 64 * l.window + l.tile < cdiv M 64 ∧ 1 < (l.parts r.partNnz aSt.strips).length then some (64 * l.window + l.tile) else none
    let needRows := if r.predict then 0 else (splitRows.length + 64 * cutTiles.length) * cdiv N 64 * batch
    orElse (needRows == 0 || (r.merge != 0 && decide (needRows ≤ r.mergeCap))) .formatError
    let cReg := match C with
      | none => []
      | some c =>
        if r.mode = 2 ∧ !e.raw then [(c.base, units (c.baseSize cSt)), (c.skim, if c.hasSkim then units (c.skimSize cSt) else 0)]
        else s.regions c cSt
    let mergeReg := if needRows = 0 then [] else [(r.merge, 4 * r.mergeCap)]
    let reads := s.regions A aSt ++ s.regions B B.dStruct ++
      (match mask with | some (m, st) => [(m.index, s.indexUnits m st)] | none => []) ++
      (match map with | some m => s.regions m m.dStruct | none => [])
    orElse (!anyMeet (cReg ++ mergeReg) reads) .formatError
    pure { r := r, M := M, N := N, K := K, batch := batch, A := A, B := B, va := va, vb := vb, aSt := aSt, twin := twin, mask := mask,
           map := map, C := C, cSt := cSt, dsrc := dsrc, accIn := accIn, rowT := rowT, satT := satT, splitRows := splitRows,
           cutTiles := cutTiles }
  | _, _ => .error .formatError

/-! ## Operands as the array reads them -/

/-- Entry of a D operand through its view; a batched task reads an operand of batch extent 1 in every batch. -/
def State.viewEnt (s : State) (k : Fin 8) (t : Tensor) (v : View) (i0 i1 b : Nat) : Ent :=
  let b' := if t.viewDim v [0, 0, 0, 0, 0] 2 = 1 ∧ !v.bcast.getD 2 false then 0 else b
  s.readAt t.fmt (s.slotS k t) (t.viewPlace v [i0, i1, b', 0, 0])

/-- The stored (k, entry) pairs of an ST operand that output row m takes from the strips that `on` names (R134, R144). -/
def State.stRow (s : State) (k : Fin 8) (p : Prod) (m : Nat) (on : Nat → Bool) : List (Nat × Ent) :=
  let S := s.slotS k p.A
  if p.r.mode = 1 then (p.aSt.places.filter fun x => x.col == m && on x.group).map fun x => (x.row, s.readAt p.A.fmt S x)
  else (p.aSt.places.filter fun x => x.row == m && on x.group).map fun x => (x.col, s.readAt p.A.fmt S x)

/-- The stored (k, entry) pairs that array row m takes, in ascending K (R133, R134, R138, R144, R145). -/
def State.aRow (s : State) (k : Fin 8) (p : Prod) (b m : Nat) : List (Nat × Ent) :=
  let S := s.slotS k p.A
  match p.A.layout with
  | .d => (List.range p.K).map fun i => (i, if p.r.mode = 1 then s.viewEnt k p.A p.va m i b else s.viewEnt k p.A p.va i m b)
  | .st =>
    if p.r.mode = 1 then
      match p.twin.find? fun l => l.window == m / 4096 && l.tile == m % 4096 / 64 with
      | none => []
      | some l => s.stRow k p m l.list.contains
    else s.stRow k p m fun _ => true
  | _ =>
    if p.r.mode = 1 then sortKey ((p.aSt.places.filter fun x => x.col == m).map fun x => (x.row, s.readAt p.A.fmt S x))
    else sortKey ((p.aSt.places.filter fun x => x.row == m).map fun x => (x.col, s.readAt p.A.fmt S x))

/-- The B entry at K position i for output column n. -/
def State.bEnt (s : State) (k : Fin 8) (p : Prod) (b i n : Nat) : Ent :=
  if p.r.mode = 2 then s.viewEnt k p.B p.vb i n b else s.viewEnt k p.B p.vb n i b

/-- The activity code of an output element (R143, R155): active without a map. -/
def State.mapCode (s : State) (p : Prod) (b m n : Nat) : Nat :=
  match p.map with
  | none => 1
  | some t =>
    let pl := t.dPlace (m + t.dim 1 * b) n
    if s.poisoned (codeLine .t2 pl.valAt pl.idx) then 0 else s.code .t2 pl.valAt pl.idx

/-! ## Units and their array rows -/

/-- An output element that a drain takes: position, accumulator, grid, map code, whether it was computed, whether it is written as zero
without the epilogue, and its number in the order of R146 (0 in a dense product). -/
structure OutEl where
  b : Nat
  m : Nat
  n : Nat
  acc : Acc
  g : Int
  code : Nat
  live : Bool
  zeroed : Bool
  pos : Nat
  deriving DecidableEq, Repr

/-- A 64 × 64 tile of C's dense shape (R85, R137): its number in a grid record, its grid, whether a computation that feeds it read a poisoned
line, whether SKIP_EMPTY leaves it alone, whether the accumulator input lies on another grid, and the elements that a drain takes of it. -/
structure OutTile where
  b : Nat
  i : Nat
  j : Nat
  no : Nat
  grid : Grid
  pois : Bool
  skipped : Bool
  gridClash : Bool
  els : List OutEl
  deriving DecidableEq, Repr

/-- An array row (R133 to R146): the output row it computes, its cells as (column, number in the order of R146), its operands in K order,
the merge row that takes its part, whether it loads the accumulator input, and whether it is computed at all. -/
structure ARow where
  b : Nat
  m : Nat
  cells : List (Nat × Nat)
  ops : List (Nat × Ent)
  merge : Option Nat
  first : Bool
  live : Bool
  deriving DecidableEq, Repr

/-- A unit on the array: its output tiles without elements, and its rows with their accumulators; `pois` for a SAMPLED run group whose
operands held a poisoned line. -/
structure UnitRun where
  tile : Tile
  tiles : List OutTile
  rows : List (ARow × List Cell)
  pois : Bool
  deriving DecidableEq, Repr

/-- The accumulator input of an element (R142): its initial accumulator, marked where its tile's grid byte differs from g (R92). -/
def State.accInit (s : State) (p : Prod) (b m n tile : Nat) (g : Int) : Acc :=
  match p.accIn with
  | none => ⟨0, false, 0⟩
  | some t =>
    let pl := t.dPlace (m + t.dim 1 * b) n
    let v := s.code .int32 pl.valAt pl.idx
    if s.gridByte t tile ≠ g ∨ v = rawMark then ⟨0, true, 0⟩ else ⟨signed 32 v, false, 0⟩

/-- Rows, and columns, of tile index i out of `n`. -/
def span64 (i n : Nat) : List Nat := (List.range (min n (64 * i + 64) - 64 * i)).map (64 * i + ·)

/-- A list cut into runs of 64. -/
def cut64 {β : Type} (l : List β) : List (List β) := (List.range (cdiv l.length 64)).map fun q => (l.drop (64 * q)).take 64

/-- Whether an output row is computed in a column tile (R143, R157): in ST when its row holds a code other than 0b00 there, in the other
layouts when its 64 × 64 tile does. -/
def State.liveRow (s : State) (p : Prod) (b m j : Nat) : Bool :=
  let on := fun q => (span64 j p.N).any fun n => s.mapCode p b q n != 0
  p.map.isNone || (if p.A.layout = .st then on m else (span64 (m / 64) p.M).any on)

/-- The merge row of output row m in column tile j (R140), where the row or its tile is split. -/
def Prod.mergeIx (p : Prod) (b m j : Nat) : Option Nat :=
  let nt := cdiv p.N 64
  match p.splitRows.idxOf? m, p.cutTiles.idxOf? (m / 64) with
  | some q, _ => some ((q * nt + j) * p.batch + b)
  | none, some q => some (64 * ((q * nt + j) * p.batch + b) + m % 64)
  | none, none => none

/-- Number of merge rows (R140). -/
def Prod.mergeRows (p : Prod) : Nat := (p.splitRows.length + 64 * p.cutTiles.length) * cdiv p.N 64 * p.batch

/-- The output row of a merge row: (m, column tile, batch) (R140). -/
def Prod.mergeRow (p : Prod) (j : Nat) : Option (Nat × Nat × Nat) :=
  let nt := cdiv p.N 64
  let pick := fun q => (q / p.batch % nt, q % p.batch, q / p.batch / nt)
  if p.r.mode = 1 then
    let (ct, b, r) := pick (j / 64)
    (p.cutTiles[r]?).map fun i => (64 * i + j % 64, ct, b)
  else
    let (ct, b, r) := pick j
    (p.splitRows[r]?).map fun m => (m, ct, b)

/-- The runs of a SAMPLED product (R146): each mask row's positions in storage order, cut into runs of 64; rows in the order of their first
position (DEDUCED, log 63). A run is (row, its (column, number) pairs). -/
def Prod.runs (p : Prod) : List (Nat × List (Nat × Nat)) :=
  match p.mask with
  | none => []
  | some (_, st) =>
    let pos := st.places.zipIdx.map fun x => (x.1.row, x.1.col, x.2)
    ((pos.map (·.1)).eraseDups).flatMap fun r => (cut64 ((pos.filter fun x => x.1 == r).map (·.2))).map fun l => (r, l)

/-- The issued lanes of a column tile in lane-table order (R134, R157), of one row tile where `i` names it. -/
def State.lanesOf (s : State) (p : Prod) (b j : Nat) (i : Option Nat) : List Lane :=
  p.aSt.lanes.filter fun l => decide (l.row < p.M) && s.liveRow p b l.row j && (match i with | none => true | some q => l.row / 64 == q)

/-- The units of a dense shape, by batch, row tile and column tile. -/
def Prod.denseUnits (k : Fin 8) (h part : Nat) (p : Prod) : List Tile :=
  (List.range p.batch).flatMap fun b => (List.range (cdiv p.M 64)).flatMap fun i => (List.range (cdiv p.N 64)).map fun j =>
    { k := k, h := h, row := i, col := j, batch := b, part := part }

/-- The units of the product part of a SKIM FUSED for one output tile: the lane groups of its issued lanes, or the tile (R157; log 63). -/
def State.fusedUnits (s : State) (p : Prod) (x : Tile) : List Tile :=
  let n := if p.A.layout = .st then max 1 (cdiv (s.lanesOf p x.batch x.col (some x.row)).length 64) else 1
  (List.range n).map fun q => { x with part := q + 1 }

/-- The units of a product (R98, R134, R144, R146): run groups, lane groups, parts of twin lists, or 64 × 64 tiles. -/
def State.prodUnits (s : State) (k : Fin 8) (h : Nat) (p : Prod) : List Tile :=
  let tile := fun r c b q => ({ k := k, h := h, row := r, col := c, batch := b, part := q } : Tile)
  if p.r.skim then (p.denseUnits k h 0).flatMap (s.fusedUnits p)
  else if p.r.mode = 2 then (List.range (cdiv p.runs.length 64)).map fun q => tile q 0 0 0
  else if p.A.layout = .st ∧ p.r.mode = 0 then
    (List.range p.batch).flatMap fun b =>
      let ns := (List.range (cdiv p.N 64)).map fun j => (j, max 1 (cdiv (s.lanesOf p b j none).length 64))
      (List.range ((ns.map (·.2)).foldl max 0)).flatMap fun q => (ns.filter fun x => decide (q < x.2)).map fun x => tile q x.1 b 0
  else if p.A.layout = .st then
    (p.denseUnits k h 0).flatMap fun x => (List.range (max 1 (p.parts x.row).length)).map fun q => { x with part := q }
  else p.denseUnits k h 0

/-- The units that a task queues to threads: those of its product, or the skims of a SKIM's output tiles (R165). -/
def State.taskUnits (s : State) (k : Fin 8) (h : Nat) (p : Prod) : List Tile :=
  if p.r.skim then p.denseUnits k h 0 else s.prodUnits k h p

/-- An array row of a product that is not SAMPLED, with its 64 columns. -/
def State.arrayRow (s : State) (p : Prod) (b j m : Nat) (ops : List (Nat × Ent)) (merge : Option Nat) (first : Bool) : ARow :=
  let live := s.liveRow p b m j
  { b := b, m := m, cells := (span64 j p.N).map fun n => (n, 0), ops := if live then ops else [], merge := if live then merge else none,
    first := first, live := live }

/-- The array rows of one 64 × 64 tile, each with the whole of its operand row (R133, R138, R145). -/
def State.tileRows (s : State) (k : Fin 8) (p : Prod) (b i j : Nat) : List ARow :=
  (span64 i p.M).map fun m => s.arrayRow p b j m (s.aRow k p b m) none true

/-- The array rows of a unit of a product (R133, R134, R138, R144, R146). In an ST PLAIN product the output rows without an issued lane are
drained with the first lane group (R141; log 63). -/
def State.unitRows (s : State) (k : Fin 8) (p : Prod) (x : Tile) : List ARow :=
  if p.r.mode = 2 then
    ((p.runs.drop (64 * x.row)).take 64).map fun y =>
      { b := 0, m := y.1, cells := y.2, ops := s.aRow k p 0 y.1, merge := none, first := true, live := true }
  else if p.A.layout = .st ∧ p.r.mode = 1 then
    let ps := p.parts x.row
    ((span64 x.row p.M).filter fun m => x.part == 0 || s.liveRow p x.batch m x.col).map fun m =>
      s.arrayRow p x.batch x.col m (s.stRow k p m (ps.getD x.part []).contains)
        (if 1 < ps.length then p.mergeIx x.batch m x.col else none) (x.part == 0)
  else if p.A.layout = .st then
    let i := if p.r.skim then some x.row else none
    let q := if p.r.skim then x.part - 1 else x.row
    let lanes := s.lanesOf p x.batch x.col i
    let mine := ((lanes.drop (64 * q)).take 64).map fun l =>
      s.arrayRow p x.batch x.col l.row (s.stRow k p l.row fun g => decide (l.first ≤ g) && decide (g < l.first + l.strips))
        (p.mergeIx x.batch l.row x.col) ((p.aSt.lanes.find? fun y => y.row == l.row) == some l)
    let all := match i with | none => List.range p.M | some r => span64 r p.M
    mine ++ (if q = 0 then (all.filter fun m => !lanes.any fun l => l.row == m).map fun m => s.arrayRow p x.batch x.col m [] none true else [])
  else s.tileRows k p x.batch x.row x.col

/-! ## Poisoned inputs of the drain (R201) -/

/-- Whether a line that the drain reads for an element is poisoned: its map code, accumulator input, bias, column scale or derivative
source. -/
def State.elPois (s : State) (k : Fin 8) (p : Prod) (b m n : Nat) : Bool :=
  let vec := fun (on : Bool) id => on && (match s.tensor? k id with | none => false | some t => (s.readAt t.fmt 0 (t.dPlace 0 n)).pois)
  let at_ := fun (t : Option Tensor) f => match t with
    | none => false
    | some x => let pl := x.dPlace (m + x.dim 1 * b) n; s.poisoned (codeLine f pl.valAt pl.idx)
  !s.poison.isEmpty && (at_ p.map .t2 || at_ p.accIn .int32 || vec p.r.epi.biasEn p.r.epi.bias || vec p.r.epi.colscaleEn p.r.epi.colscale ||
    (p.r.epi.deriv && (match p.dsrc with
      | none => false
      | some d =>
        let r := m + d.t.dim 1 * b
        if d.bit then s.poisoned ((d.t.rowAddr (d.t.outer r) + dScale .t2 d.t.nc + n / 8) / 64) else (s.readAt d.t.fmt 0 (d.t.dPlace r n)).pois)))

/-- Whether the twin entry of an output row tile is inconsistent (R124), or lies in a poisoned line. -/
def State.twinPois (s : State) (p : Prod) (i : Nat) : Bool :=
  p.twin.any fun l =>
    let at_ := 64 * p.A.twin + 64 + 16 * i
    64 * l.window + l.tile == i && (!l.ok p.aSt.strips || s.poisonIn (64 * p.A.twin) 64 || s.poisonIn at_ 16 ||
      s.poisonIn (64 * p.A.twin + 64 + 1024 * cdiv p.A.nc 4096 + 4 * s.le at_ 4) (4 * s.le (at_ + 4) 4))

/-- Whether a pop takes a lost frame (R182): everything it computes is poisoned. -/
def Prod.lostPop (p : Prod) : Bool := p.r.epi.deriv && (match p.dsrc with | some d => (d.frame.map (·.lost)).getD false | none => false)

/-! ## Output tiles -/

/-- The block-exponent sums of the pre-pass of an output tile (R85, R95): over the whole of its rows and columns. -/
def State.outSums (s : State) (k : Fin 8) (p : Prod) (b i j : Nat) : List (Int × Int) :=
  tileSums ((span64 i p.M).map (s.aRow k p b)) fun q => (span64 j p.N).map (s.bEnt k p b q)

/-- Number of an output tile in a grid record (R91). -/
def Prod.tileNo (p : Prod) (b i j : Nat) : Nat := (b * cdiv p.M 64 + i) * cdiv p.N 64 + j

/-- An output tile of a product, without elements (R85, R137, R141, R142, R201). -/
def State.outTile (s : State) (k : Fin 8) (t : Task) (p : Prod) (b i j : Nat) : OutTile :=
  let no := p.tileNo b i j
  let ms := span64 i p.M
  let ns := span64 j p.N
  let grid := gridOf p.A.fmt p.B.fmt t.desc.gridFix p.r.epi.groupEn (s.suites[k].extremesOf t.h no) (s.outSums k p b i j)
  let clash := match p.accIn with | none => false | some a => s.gridByte a no != grid.g
  let accPois := match p.accIn with | none => false | some a => s.poisoned ((64 * a.index + no) / 64)
  if p.r.mode = 2 then
    { b := b, i := i, j := j, no := no, grid := grid, pois := accPois, skipped := false, gridClash := clash, els := [] }
  else
    let rows := (ms.filter fun m => s.liveRow p b m j).map (s.aRow k p b)
    let ks := (rows.flatMap fun x => x.map (·.1)).eraseDups
    let reads := rows.any (fun x => x.any fun y => y.2.pois) || ks.any fun q => ns.any fun n => (s.bEnt k p b q n).pois
    { b := b, i := i, j := j, no := no, grid := grid, gridClash := clash, els := [],
      skipped := p.r.skipEmpty && rows.all fun x => x.all fun y => p.A.layout == .d && y.2.v.isZero,
      pois := accPois || p.lostPop || (!s.poison.isEmpty && reads) || s.twinPois p i || s.structPoison p.A ||
        ms.any fun m => ns.any fun n => s.elPois k p b m n }

/-- The output tiles that array rows touch, as (batch, row tile, column tile). -/
def rowTiles (rs : List ARow) : List (Nat × Nat × Nat) :=
  (rs.flatMap fun r => (r.cells.map fun c => (r.b, r.m / 64, c.1 / 64)).eraseDups).eraseDups

/-- The grid of the output tile of an element among `ts` (R137). -/
def gridAt (ts : List OutTile) (b m n : Nat) : Int :=
  match ts.find? fun x => x.b == b && x.i == m / 64 && x.j == n / 64 with
  | some x => x.grid.g
  | none => 0

/-- The cells of an array row before its first product (R142): the accumulator input in the row that loads it. -/
def State.startRow (s : State) (p : Prod) (ts : List OutTile) (r : ARow) : List Cell :=
  r.cells.map fun c =>
    let g := gridAt ts r.b r.m c.1
    let a : Acc := if r.live && r.first then s.accInit p r.b r.m c.1 (p.tileNo r.b (r.m / 64) (c.1 / 64)) g else ⟨0, false, 0⟩
    ⟨g, a.v, a.sat, 0⟩

/-- The products of one cell for a run of operands. -/
def State.cellOps (s : State) (k : Fin 8) (p : Prod) (b n : Nat) (ops : List (Nat × Ent)) : List (Num × Num) :=
  ops.map fun x => (x.2.v, (s.bEnt k p b x.1 n).v)

/-- Accumulate a run of a row's operands in its cells (R84, R89). -/
def State.runRow (s : State) (k : Fin 8) (p : Prod) (r : ARow) (ops : List (Nat × Ent)) (cells : List Cell) : List Cell :=
  (r.cells.zip cells).map fun x => x.2.run (s.cellOps k p r.b x.1.1 ops)

/-- Whether a SAMPLED run group read a poisoned line (R201). -/
def State.groupPois (s : State) (k : Fin 8) (p : Prod) (rs : List ARow) : Bool :=
  p.r.mode == 2 && !s.poison.isEmpty && ((match p.mask with | some (mt, _) => s.structPoison mt | none => false) ||
    rs.any fun r => r.ops.any (fun x => x.2.pois) || r.cells.any fun c => s.elPois k p r.b r.m c.1 || r.ops.any fun x => (s.bEnt k p r.b x.1 c.1).pois)

/-- A unit at its start (R85, R98, R142): its grids are fixed and its accumulator input is loaded. `all` are output tiles computed before. -/
def State.unitStart (s : State) (k : Fin 8) (t : Task) (p : Prod) (all : List OutTile) (x : Tile) (rs : List ARow) : UnitRun :=
  let ts := (rowTiles rs).map fun (b, i, j) => (all.find? fun y => y.b == b && y.i == i && y.j == j).getD (s.outTile k t p b i j)
  { tile := x, tiles := ts, rows := rs.map fun r => (r, s.startRow p ts r), pois := s.groupPois k p rs }

/-- A unit with all its products summed. -/
def State.unitRun (s : State) (k : Fin 8) (t : Task) (p : Prod) (all : List OutTile) (x : Tile) (rs : List ARow) : UnitRun :=
  let u := s.unitStart k t p all x rs
  { u with rows := u.rows.map fun y => (y.1, s.runRow k p y.1 y.1.ops y.2) }

/-- What the drain takes of a row that is not merged (R141, R143): a row of a ONEHOT tensor that receives no nonzero is written as zero. -/
def State.rowEls (s : State) (k : Fin 8) (p : Prod) (r : ARow) (cells : List Cell) : List OutEl :=
  (r.cells.zip cells).map fun x =>
    let code := s.mapCode p r.b r.m x.1.1
    { b := r.b, m := r.m, n := x.1.1, acc := x.2.acc, g := x.2.g, code := code, live := r.live,
      zeroed := !r.live || code == 0 || code == 3 || (p.aSt.onehot && (s.aRow k p r.b r.m).isEmpty), pos := x.1.2 }

/-- The output tiles of a unit, each with the elements that the unit drains whole. -/
def State.unitOuts (s : State) (k : Fin 8) (p : Prod) (u : UnitRun) : List OutTile :=
  let els := (u.rows.filter fun x => x.1.merge.isNone).flatMap fun x => s.rowEls k p x.1 x.2
  u.tiles.filterMap fun c =>
    let mine := els.filter fun e => e.b == c.b && e.m / 64 == c.i && e.n / 64 == c.j
    if mine.isEmpty then none else some { c with els := mine, pois := c.pois || u.pois }

/-- The raw parts of a unit's split rows (R139). -/
def UnitRun.parts (u : UnitRun) (die panel : Nat) : List RawPart :=
  u.rows.filterMap fun x => x.1.merge.map fun j =>
    { row := j, vals := x.2.map fun (c : Cell) => c.acc.raw, die := die, panel := panel,
      pois := u.tiles.any fun y => y.pois && y.b == x.1.b && y.i == x.1.m / 64 }

/-- Saturated elements, and off-grid products, of a unit (R87, R89). -/
def UnitRun.sat (u : UnitRun) : Nat := sumL (u.rows.map fun x => (x.2.filter (·.sticky)).length)
def UnitRun.off (u : UnitRun) : Nat := sumL (u.rows.map fun x => sumL (x.2.map (·.nOff)))

/-- Rows of a unit that hold a saturated element, which are not checked (R96). -/
def UnitRun.satRows (u : UnitRun) : Nat := (u.rows.filter fun x => x.2.any (·.sticky)).length

/-- The elements of 64 × 64 tiles computed whole, as the skim pass computes them (R150, R153). -/
def State.denseOut (s : State) (k : Fin 8) (t : Task) (p : Prod) (b i j : Nat) : OutTile × UnitRun :=
  let o := s.outTile k t p b i j
  let u := s.unitRun k t p [o] { k := k, h := t.h, row := i, col := j, batch := b, part := 0 } (s.tileRows k p b i j)
  ({ o with els := u.rows.flatMap fun x => s.rowEls k p x.1 x.2 }, u)

/-! ## The drain's outputs -/

/-- The derivative source's content for an element: the bit, and the value. -/
def State.dAt (s : State) (k : Fin 8) (p : Prod) (el : OutEl) : Bool × Word :=
  match p.dsrc with
  | none => (false, 0)
  | some d =>
    let r := el.m + d.t.dim 1 * el.b
    if d.bit then
      let a := d.t.rowAddr (d.t.outer r) + dScale .t2 d.t.nc + el.n / 8
      (!s.poisoned (a / 64) && bitOf (s.byte a).toNat (el.n % 8), 0)
    else (false, f32enc .rne (s.readAt d.t.fmt (s.slotS k d.t) (d.t.dPlace r el.n)).v)

/-- What the drain makes of an element (R101): in a backward task the derivative source is read. -/
def State.drainEl (s : State) (k : Fin 8) (p : Prod) (el : OutEl) : Drained :=
  if el.zeroed then ⟨.zero, 0, 0, 0⟩
  else
    let e := p.r.epi
    let cs := if e.colscaleEn then s.vec k e.colscale el.n else 0
    let bi := if e.biasEn then s.vec k e.bias el.n else 0
    let d := if e.deriv then s.dAt k p el else (false, 0)
    drainSteps e (el.acc.value el.g) cs bi d.1 d.2

/-- Whether an element is marked as saturated in the output (R90): a zeroed element is not. -/
def OutEl.marked (el : OutEl) : Bool := el.acc.sat && !el.zeroed

/-- Write one raw partial per element (R90, R91), with the row padding as zero. -/
def State.putRaw (s : State) (t : Tensor) (ps : List (Place × Nat)) : State :=
  ps.foldl (fun u x =>
    let u1 := u.putCode .int32 x.1.valAt x.1.idx x.2
    if x.1.col + 1 = t.nc then u1.putCodes .int32 (((t.groupSlots x.1.idx).filter fun i => decide (x.1.idx < i)).map fun i => (x.1.valAt, i, 0))
    else u1) s

/-- Place of an element of C. -/
def Prod.cPlace (p : Prod) (c : Tensor) (el : OutEl) : Place :=
  if p.r.mode = 2 then
    (if p.r.epi.raw then c.dPlace 0 el.pos else p.cSt.places.getD el.pos (c.dPlace 0 0))
  else c.dPlace (el.m + c.dim 1 * el.b) el.n

/-- The elements that a drain writes: those of the tiles that SKIP_EMPTY does not leave alone. -/
def writtenEls (ts : List OutTile) : List OutEl := ts.flatMap fun t => if t.skipped then [] else t.els

/-- Rounding index of an element of C (R66, R147). -/
def Prod.idx (p : Prod) (el : OutEl) : Nat := el.n + p.N * (el.m + p.M * el.b)

/-- The update unit to which the values of C stream: an APPLY that names C as its gradient (R255). -/
def State.streamTo (s : State) (k : Fin 8) (p : Prod) : Option (Nat × Fin 8 × Fin 12) :=
  match p.C with
  | some c => if p.r.epi.raw ∧ p.r.mode = 2 then s.drainTarget k c.id else none
  | none => none

/-- Whether the values of C must stay in their drain banks (R256): they stream to a master with no open APPLY. -/
def State.streamWaits (s : State) (k : Fin 8) (p : Prod) : Bool :=
  match s.streamTo k p with
  | some (m, d, i) => s.mustWait d i k m
  | none => false

/-- Write C (R90, R91, R101, R147, R414), or hand its values to the update unit of an APPLY that names C as its gradient (R255). -/
def State.drainC (s0 s : State) (k : Fin 8) (t : Task) (p : Prod) (ts : List OutTile) : State :=
  match p.C with
  | none => s
  | some c =>
    let els := writtenEls ts
    match s.streamTo k p with
    | some (m, d, i) => s.deliver d i k m (els.map fun x =>
        ({ p := x.pos, s := if x.zeroed then 0 else x.acc.v, g := x.g, marked := x.marked } : Arrived))
    | none =>
    if p.r.epi.raw then
      let s1 := (s.putRaw c (els.map fun x => (p.cPlace c x, if x.zeroed then 0 else x.acc.raw))).settle c c.dStruct (els.map (p.cPlace c))
      if p.r.mode = 2 then s1.write (64 * c.index) (List.replicate c.gridBytes (BitVec.ofNat 8 (unsigned 8 (signed 8 t.desc.gridFix.toNat))))
      else (ts.filter (!·.skipped)).foldl (fun u x => u.write (64 * c.index + x.no) [BitVec.ofNat 8 (unsigned 8 x.grid.g)]) s1
    else
      let sr := s0.slotSR k c
      let puts := els.map fun el =>
        { place := p.cPlace c el, counted := !(p.map.isSome && el.zeroed),
          src := ⟨if el.marked then el.acc.value el.g else (s0.drainEl k p el).val, el.marked, s0.rmode k c sr 0 (p.idx el)⟩ : Put }
      let s1 := (s.putAll k c (fun _ => 0) (!t.recompute) puts).settle c p.cSt (puts.map (·.place))
      s1.reportNan k t.h c (nanSources c (puts.map (·.src)))

/-- A row of bits packed into the 8 bytes of one column tile. -/
def bitBytes (bs : List Bool) : List Byte := leBytes 8 ((bs.zipIdx.map fun x => if x.1 then 2 ^ x.2 else 0).foldl (· + ·) 0)

/-- Rows of a tile: (m, the row's elements). -/
def OutTile.rowEls (t : OutTile) : List (Nat × List OutEl) :=
  (t.els.map (·.m)).eraseDups.map fun m => (m, t.els.filter fun e => e.m == m)

/-- The derivative source that a forward task writes (R171, R172): none where it reads one, where the push is lost (R182), and where the
source is C itself. -/
def Prod.dOut (p : Prod) : Option DSource :=
  match p.dsrc with
  | none => none
  | some d => if p.r.epi.deriv ∨ (d.frame.map (·.lost)).getD false ∨ p.r.dsrc = p.r.c then none else some d

/-- Write the derivative source of a forward task (R171, R172); a tile left alone by SKIP_EMPTY leaves its part of the source alone. -/
def State.drainD (s0 s : State) (k : Fin 8) (t : Task) (p : Prod) (ts : List OutTile) : State :=
  match p.dOut with
  | none => s
  | some d =>
    if d.bit then
      let s1 := (ts.filter (!·.skipped)).foldl (fun u x => x.rowEls.foldl (fun u (m, els) =>
        let a := d.t.rowAddr (d.t.outer (m + d.t.dim 1 * x.b))
        (u.write (a + x.j) [0x7F]).write (a + dScale .t2 d.t.nc + 8 * x.j)
          (bitBytes (els.map fun el => !el.zeroed && p.r.epi.dBit (s0.drainEl k p el).pre))) u) s
      s1.settle d.t d.t.dStruct ((writtenEls ts).map fun x => d.t.dPlace (x.m + d.t.dim 1 * x.b) (x.n / 2))
    else
      let sr := s0.slotSR k d.t
      let pre := dKind p.r.epi.func == .pre
      let puts := (writtenEls ts).map fun el =>
        let dr := s0.drainEl k p el
        { place := d.t.dPlace (el.m + d.t.dim 1 * el.b) el.n, counted := !(p.map.isSome && el.zeroed),
          src := ⟨if el.zeroed then .zero else if el.marked then el.acc.value el.g else f32dec (if pre then dr.pre else dr.post),
                  el.marked, s0.rmode k d.t sr 0 (p.idx el)⟩ : Put }
      ((s.putAll k d.t (fun _ => 0) (!t.recompute) puts).settle d.t d.t.dStruct (puts.map (·.place))).reportNan k t.h d.t
        (nanSources d.t (puts.map (·.src)))

/-- Keep what the row statistics take of the elements drained (R102): the flattened output row, the column, and the value of step 5; and the
rows that a poisoned line fed (R201). -/
def State.keepStats (s0 s : State) (k : Fin 8) (t : Task) (p : Prod) (ts : List OutTile) : State :=
  if p.rowT.isNone then s
  else
    let xs := ((writtenEls ts).filter fun e => e.live && !e.zeroed).map fun e => (e.b * p.M + e.m, e.n, (s0.drainEl k p e).stat)
    let bad := ((ts.filter (·.pois)).flatMap (·.els)).map fun e => e.b * p.M + e.m
    s.modTask k t.h fun y => { y with stats := y.stats ++ xs, rowPois := (bad ++ y.rowPois).eraseDups }

/-- Write the row statistics (R102): word i of plane 0 and plane 1, i the flattened output row; a row with no computed element gives −∞ and
0. -/
def State.drainRows (s : State) (k : Fin 8) (h : Nat) (p : Prod) : State :=
  match p.rowT, s.task? k h with
  | some r, some t =>
    let n := p.M * p.batch
    let s1 := (List.range n).foldl (fun u i =>
      let mine := t.stats.filter fun x => x.1 == i
      let st := rowStat ((List.range (cdiv p.N 64)).map fun j =>
        (sortKey ((mine.filter fun x => x.2.1 / 64 == j).map fun x => (x.2.1, x.2.2))).map (·.2))
      (u.putCode .int32 (r.dPlace 0 i).valAt i st.1.toNat).putCode .int32 (r.dPlace 1 i).valAt i st.2.toNat) s
    t.rowPois.foldl (fun v i => (v.poisonCols r 0 i (i + 1)).poisonCols r 1 i (i + 1))
      (s1.settle r r.dStruct ((List.range n).flatMap fun i => [r.dPlace 0 i, r.dPlace 1 i]))
  | _, _ => s

/-- Set the saturation map's bits (R90). -/
def State.drainSat (s : State) (p : Prod) (ts : List OutTile) : State :=
  match p.satT with
  | none => s
  | some t =>
    (writtenEls ts).foldl (fun u x =>
      if x.marked then
        let (r, j) := if p.r.mode = 2 ∧ p.r.epi.raw then (0, x.pos) else (x.m + t.dim 1 * x.b, x.n)
        u.writeBit (t.rowAddr (t.outer r) + dScale .t2 t.nc + j / 8) (j % 8) true
      else u) s

/-- Poison the outputs of the tiles whose computation read a poisoned line, was fed by a bad list, or popped a lost frame (R201): C where it is
written, the grid byte, the derivative source and the saturation map's bits. -/
def State.drainPoison (s : State) (k : Fin 8) (p : Prod) (ts : List OutTile) : State :=
  let streams := (s.streamTo k p).isSome
  (ts.filter (·.pois)).foldl (fun u x =>
    let rows := (x.els.map (·.m)).eraseDups
    let u1 := match p.C with
      | none => u
      | some c =>
        if streams then u
        else if p.r.mode = 2 then x.els.foldl (fun v e => v.poisonPlace c.fmt (p.cPlace c e)) u
        else
          let u2 := rows.foldl (fun v m => v.poisonCols c (m + c.dim 1 * x.b) (64 * x.j) (min p.N (64 * x.j + 64))) u
          if p.r.epi.raw then u2.poisonRange (64 * c.index + x.no) 1 else u2
    let u2 := match p.dOut with
      | none => u1
      | some d => rows.foldl (fun v m =>
          if d.bit then v.poisonCols d.t (m + d.t.dim 1 * x.b) (32 * x.j) (min d.t.nc (32 * x.j + 32))
          else v.poisonCols d.t (m + d.t.dim 1 * x.b) (64 * x.j) (min p.N (64 * x.j + 64))) u1
    match p.satT with
    | none => u2
    | some q => x.els.foldl (fun v e =>
        let (r, j) := if p.r.mode = 2 ∧ p.r.epi.raw then (0, e.pos) else (e.m + q.dim 1 * e.b, e.n)
        v.poisonLine ((q.rowAddr (q.outer r) + dScale .t2 q.nc + j / 8) / 64)) u2) s

/-- Write C's skim copy and norm area from the values that the task has written (R149), and poison what derives from a poisoned value (R201). -/
def State.drainSkim (s : State) (k : Fin 8) (p : Prod) : State :=
  match p.C with
  | none => s
  | some c =>
    if p.r.epi.raw then s
    else (s.writeSkim k c p.cSt).poisonSkimOf c p.cSt fun (q : Place) =>
      s.poisoned (codeLine c.fmt q.valAt q.idx) || (c.fmt.sw != 0 && s.poisoned (q.scaleAt / 64))

/-! ## Merge rows (R139, R140) -/

/-- Number of parts that merge row j takes (R139): the issued lanes of its row, or the parts of its tile. -/
def State.partsOf (s : State) (p : Prod) (j : Nat) : Nat :=
  match p.mergeRow j with
  | none => 0
  | some (m, ct, b) =>
    if p.M ≤ m ∨ !s.liveRow p b m ct then 0
    else if p.r.mode = 1 then (p.parts (m / 64)).length
    else (p.aSt.lanes.filter fun l => l.row == m).length

/-- Count elements saturated on a panel (R89, R106): PNL_SAT_CNT, COUNT, the status, and the task's count on that panel. -/
def State.chargeSat (s : State) (k : Fin 8) (h : Nat) (die panel n : Nat) : State :=
  if n = 0 then s
  else
    let s1 := if hp : die < 8 ∧ panel < 104 then s.modPanel ⟨die, hp.1⟩ ⟨panel, hp.2⟩ fun x => { x with satCnt := x.satCnt.satAdd n } else s
    let add := fun (l : List (Nat × Nat × Nat)) =>
      if l.any fun x => x.1 == die && x.2.1 == panel then l.map fun x => if x.1 = die ∧ x.2.1 = panel then (die, panel, x.2.2 + n) else x
      else l ++ [(die, panel, n)]
    (((s1.addCount k h n).worsen k h .saturated).modTask k h fun y => { y with satBy := add y.satBy }).modSuite k fun u => { u with satStep := true }

/-- Add one raw part into its merge row (R92, R139, R197): the first part to arrive writes the row, each later part adds into it exactly, and an
element that saturates is marked and counted. A line that is poisoned when a later part adds into it stays poisoned, and a part that a poisoned line fed poisons
the row. -/
def State.addPart (s : State) (k : Fin 8) (h merge : Nat) (x : RawPart) : State :=
  match s.task? k h with
  | none => s
  | some t =>
    let a := 64 * (merge + 4 * x.row)
    let n := (t.merged.lookup x.row).getD 0
    let old := fun i => if n = 0 then 0 else s.le (a + 4 * i) 4
    let vals := x.vals.zipIdx.map fun y => if n = 0 then y.1 else rawAdd (old y.2) y.1
    let sat := (x.vals.zipIdx.filter fun y => vals.getD y.2 0 == rawMark && y.1 != rawMark && (n != 0 && old y.2 != rawMark)).length
    let lines := (List.range (cdiv x.vals.length 16)).filter fun i =>
      x.pois || ((n != 0 || decide (x.vals.length < 16 * i + 16)) && s.poisoned (a / 64 + i))
    let s1 := lines.foldl (fun v i => v.poisonLine (a / 64 + i)) (s.write a (vals.flatMap (leBytes 4)))
    (s1.modTask k h fun y => { y with merged := sput 0 y.merged x.row (n + 1) }).chargeSat k h x.die x.panel sat

/-- A merged row read back, as what the drain takes of its output tile (R139): it starts from acc = the merged value. A word that holds the mark
has lost its sign: a free value (log 61). -/
def State.mergedOut (s0 s : State) (k : Fin 8) (t : Task) (p : Prod) (j : Nat) : Option OutTile :=
  match p.mergeRow j with
  | none => none
  | some (m, ct, b) =>
    if p.M ≤ m then none
    else
      let o := s0.outTile k t p b (m / 64) ct
      let a := 64 * (p.r.merge + 4 * j)
      let els := (span64 ct p.N).map fun n =>
        let v := s.le (a + 4 * (n % 64)) 4
        let code := s0.mapCode p b m n
        ({ b := b, m := m, n := n, g := o.grid.g, code := code, live := true, zeroed := code == 0 || code == 3, pos := 0,
           acc := if v = rawMark then ⟨if Config.mergeSign (a + 4 * (n % 64)) then -accMax else accMax, true, 0⟩ else ⟨signed 32 v, false, 0⟩ } : OutEl)
      some { o with els := els, pois := o.pois || s.poisonIn a (4 * els.length) }

/-- The merge rows whose parts have all been counted and that no panel has drained (R139). -/
def State.mergeDone (s : State) (k : Fin 8) (h : Nat) (p : Prod) : List Nat :=
  match s.task? k h with
  | none => []
  | some t => (List.range p.mergeRows).filter fun j =>
      let n := (t.merged.lookup j).getD 0
      n != 0 && n == s.partsOf p j && !t.mergedDone.contains j

/-! ## Counts, audits and status -/

/-- The panel to which the whole-task commands charge their panel counters: the lowest-numbered panel in service of the lowest die of
the task (log 12). -/
def State.chargePanel (s : State) (d : TaskDesc) : Option (Fin 8 × Fin 104) :=
  (maskDies d.dieMask).findSome? fun i =>
    ((List.finRange 104).find? fun p => (s.panel i p).role == .enabled && (s.panel i p).fn.st == .running).map fun p => (i, p)

/-- The output tensor that a panel task's events name (R106): C, the values of a TOPK, the map of a PREDICT, the rows of a MASK SAMPLE. -/
def TaskDesc.outTensor (d : TaskDesc) : Nat :=
  if d.type = 7 then d.tensor 6 else if d.type = 6 ∨ (d.type = 2 ∧ d.mode = 1) then d.tensor 3 else d.tensor 2

/-- Charge units to a panel's counters (R86, R87, R89, R105), with one GRID_CLAMPED event for the task (R86, R106). -/
def State.chargeUnits (s : State) (k : Fin 8) (t : Task) (dp : Option (Fin 8 × Fin 104)) (us : List UnitRun) : State :=
  let ts := us.flatMap (·.tiles)
  let (die, panel) := match dp with | some (d, p) => (d.val, p.val) | none => (0xFF, 0)
  let s1 := match dp, ts.getLast? with
    | some (d, p), some last =>
      s.modPanel d p fun x => { x with
        offgrid := x.offgrid + BitVec.ofNat 64 (sumL (us.map UnitRun.off))
        gridLast := BitVec.ofNat 32 (b2n (last.grid.raw != last.grid.g) * 2 ^ 18 + b2n last.grid.group * 2 ^ 17 + b2n last.grid.fixed * 2 ^ 16 +
          min 255 last.grid.spread * 256 + unsigned 8 last.grid.g) }
    | _, _ => s
  let s2 := s1.chargeSat k t.h die panel (sumL (us.map UnitRun.sat))
  match ts.find? fun x => x.grid.raw != x.grid.g with
  | none => s2
  | some x => s2.onceTask k t.h (0x112, 0) fun u => u.suiteEvent k 0x112 0xFF 0 (pack [(4, t.desc.taskId), (2, t.desc.outTensor),
      (2, unsigned 16 x.grid.raw), (4, s.suites[k].step.toNat), (4, 0)])

/-- Log the task's ACC_SATURATED events, one for each panel that saturated elements (R89, R106). -/
def State.closeSat (s : State) (k : Fin 8) (h : Nat) : State :=
  match s.task? k h with
  | none => s
  | some t =>
    (t.satBy.foldl (fun u x => u.suiteEvent k 0x110 x.1 0 (pack [(4, t.desc.taskId), (2, t.desc.outTensor), (1, x.2.1), (1, 0), (4, x.2.2),
      (4, u.suites[k].step.toNat)])) s).modTask k h fun y => { y with satBy := [] }

/-- Byte address of a skim slot (R161). -/
def Suite.skimAddr (u : Suite) (i : Nat) : Nat := 64 * addr40 u.skmLo u.skmHi + 128 * i

/-- What a skim slot holds while it is unspecified (R81, R164): free values again, whatever has just been written. -/
def State.respoilSkim (s : State) (k : Fin 8) (slot : Nat) : State :=
  if s.suites[k].unspecSkim.contains slot then s.freeSkimSlot (s.suites[k].skimAddr slot) else s

/-- The audits of drained elements under a map (R159): counts in the slot bound to the map, and the misses in COUNT. -/
def State.audit (s0 s : State) (k : Fin 8) (t : Task) (p : Prod) (ts : List OutTile) : State :=
  if p.map.isNone then s else
  match s0.suites[k].bindings.lookup p.r.map with
  | none => s
  | some slot =>
    let a := s0.suites[k].skimAddr slot
    if !bitOf (s0.byte a).toNat 0 then s
    else
      let live := (ts.flatMap (·.els)).filter (·.live)
      let pre := fun e : OutEl => f32pos (s0.drainEl k p { e with zeroed := false }).pre
      let cnt := fun c => live.filter fun e => e.code == c
      let miss := fun c => ((cnt c).filter pre).length
      let s1 := if t.recompute then s else ((((s.bump64 (a + 0x28) (cnt 0).length).bump64 (a + 0x30) (miss 0)).bump64 (a + 0x38)
        (cnt 3).length).bump64 (a + 0x40) (miss 3)).respoilSkim k slot
      s1.addCount k t.h (miss 0 + miss 3)

/-- Report the invalid elements among those read of one operand (R57): the slot's count, the event, COUNT and the status. -/
def State.reportEnts (s : State) (k : Fin 8) (h : Nat) (t : Tensor) (es : List Ent) : State :=
  let n := invalidOf es
  if n = 0 then s else ((s.reportInvalid k t es).addCount k h n).worsen k h .formatError

/-- The computed (row, column tile) pairs of a product: (batch, row, column tile). -/
def State.liveRows (s : State) (p : Prod) : List (Nat × Nat × Nat) :=
  if p.r.mode = 2 then (p.runs.flatMap fun x => (x.2.map fun y => (0, x.1, y.1 / 64)).eraseDups).eraseDups
  else (List.range p.batch).flatMap fun b => (List.range p.M).flatMap fun m => ((List.range (cdiv p.N 64)).filter (s.liveRow p b m)).map fun j => (b, m, j)

/-- The elements of the operands that a product reads, each once: those of A, and those of B. -/
def State.prodReads (s : State) (k : Fin 8) (p : Prod) : List Ent × List Ent :=
  let live := s.liveRows p
  let aRows := ((live.map fun x => (x.1, x.2.1)).eraseDups).map fun x => (x, s.aRow k p x.1 x.2)
  let cols := if p.r.mode = 2 then (p.runs.flatMap fun x => x.2.map fun y => (0, y.1)).eraseDups
    else ((live.map fun x => (x.1, x.2.2)).eraseDups).flatMap fun x => (span64 x.2 p.N).map fun n => (x.1, n)
  let ks := fun b j => ((aRows.filter fun x => x.1.1 == b && (p.r.mode == 2 || live.contains (b, x.1.2, j))).flatMap fun x => x.2.map (·.1)).eraseDups
  (((aRows.flatMap fun x => x.2.map (·.2)).filter (·.bad.isSome)).eraseDups,
   ((cols.flatMap fun x => (ks x.1 (x.2 / 64)).map fun q => s.bEnt k p x.1 q x.2).filter (·.bad.isSome)).eraseDups)

/-- The elements of a value derivative source that a backward task reads (R171): those of the elements it computes. -/
def State.sourceReads (s : State) (k : Fin 8) (p : Prod) : Option (Tensor × List Ent) :=
  match p.dsrc with
  | none => none
  | some d =>
    if d.bit ∨ !p.r.epi.deriv then none
    else some (d.t, (s.liveRows p).flatMap fun x => ((span64 x.2.2 p.N).filter fun n => let c := s.mapCode p x.1 x.2.1 n; c != 0 && c != 3).map fun n =>
      s.readAt d.t.fmt (s.slotS k d.t) (d.t.dPlace (x.2.1 + d.t.dim 1 * x.1) n))

/-- Report what the operands of a product held: invalid elements (R57, R171), invalid structures (R124, R129) and inconsistent twin lists,
whose outputs are poisoned instead of the status FORMAT_ERROR (R124). -/
def State.reportOperands (s : State) (k : Fin 8) (t : Task) (p : Prod) : State :=
  let (as, bs) := s.prodReads k p
  let s1 := (s.reportEnts k t.h p.A as).reportEnts k t.h p.B bs
  let s2 := match s.sourceReads k p with | none => s1 | some (d, es) => s1.reportEnts k t.h d es
  let s3 := if p.aSt.bad = 0 then s2 else s2.formatEvent k t p.A.id p.A.layout.badKind 0 p.aSt.bad
  let lists := (p.twin.filter fun l => decide (64 * l.window + l.tile < cdiv p.M 64) && !l.ok p.aSt.strips).length
  let s4 := if lists = 0 then s3 else s3.formatEvent k t p.A.id 6 0 lists true
  match p.mask with
  | some (m, st) => if st.bad = 0 then s4 else s4.formatEvent k t m.id m.layout.badKind 0 st.bad
  | none => s4

/-- The first line that a product reads poisoned. -/
def State.firstPoison (s : State) (p : Prod) : Nat :=
  (s.poison.find? fun u => (s.regions p.A p.aSt ++ s.regions p.B p.B.dStruct).any fun r => rangesMeet (u, 1) r).getD 0

/-- The first line of a product's D operands and outputs, of its skim regions, grid records, vectors and merge rows, that lies outside the suite's
memory (R195). -/
def State.deniedLine (s : State) (k : Fin 8) (p : Prod) : Option Nat :=
  let lost : Bool := match p.dsrc with | some d => (d.frame.map (·.lost)).getD false | none => false
  let ds := (if p.A.layout = .d then [p.A] else []) ++ [p.B] ++ (match p.C with | some c => if c.layout = .d then [c] else [] | none => []) ++
    p.map.toList ++ p.accIn.toList ++ (match p.dsrc with | some d => if lost then [] else [d.t] | none => []) ++ p.rowT.toList ++ p.satT.toList ++
    (if p.r.epi.biasEn then (s.tensor? k p.r.epi.bias).toList else []) ++ (if p.r.epi.colscaleEn then (s.tensor? k p.r.epi.colscale).toList else [])
  let skims := (match p.C with | some c => if c.hasSkim ∧ !p.r.epi.raw then [(c.skim, units (c.skimSize p.cSt))] else [] | none => []) ++
    (if p.r.skim then [(p.A.skim, units (p.A.skimSize p.aSt)), (p.B.skim, units (p.B.skimSize p.B.dStruct))] else [])
  let grids := (p.C.toList ++ p.accIn.toList).filterMap fun x => if x.fmt = .int32 then some (x.index, units x.gridBytes) else none
  ((ds.map fun t => (t.base, units (t.extent 4))) ++ skims ++ grids ++ [(p.r.merge, 4 * p.mergeRows)]).findSome? fun r => s.firstBad k r.1 r.2

/-! ## Running a product -/

/-- In a SAMPLED product without RAW, a scale group of C is written whole by the unit that completes it (R61, R69; log 63): of the tiles `mine`, and
of `other` tiles drained before, the elements of the groups that `mine` touches and, where `need` says so, that are complete. -/
def Prod.closeGroups (p : Prod) (need : Bool) (mine other : List OutTile) : List OutTile :=
  match p.C with
  | none => mine
  | some c =>
    if p.r.mode ≠ 2 ∨ p.r.epi.raw ∨ (!need && other.isEmpty) then mine
    else
      let pool := mine ++ other
      let g := fun (e : OutEl) => (p.cPlace c e).group
      let full := (((mine.flatMap (·.els)).map g).eraseDups).filter fun x =>
        !need || (p.cSt.places.filter fun y => y.group == x).length == ((pool.flatMap (·.els)).filter fun e => g e == x).length
      pool.map fun t => { t with els := t.els.filter fun e => full.contains (g e) }

/-- What the drain writes for the tiles `ts`: C (of `cts`), the derivative source, the saturation map, the statistics kept and the audits, with
poison and the status of a grid that does not combine (R92). -/
def State.tilesDrain (s0 s : State) (k : Fin 8) (t : Task) (p : Prod) (ts cts : List OutTile) : State :=
  let s1 := s0.drainD (s0.drainC s k t p cts) k t p ts
  let s2 := ((s1.drainSat p ts).drainPoison k { p with C := none } ts).drainPoison k { p with dsrc := none, satT := none } cts
  let s3 := s0.audit (s0.keepStats s2 k t p ts) k t p ts
  if ts.any (·.gridClash) then s3.worsen k t.h .formatError else s3

/-- The output tiles that all units of a product touch, computed once. -/
def State.allTiles (s : State) (k : Fin 8) (t : Task) (p : Prod) : List OutTile :=
  if p.r.mode = 2 then ((s.liveRows p).map fun x => (x.1, x.2.1 / 64, x.2.2)).eraseDups.map fun x => s.outTile k t p x.1 x.2.1 x.2.2
  else (p.denseUnits 0 0 0).map fun x => s.outTile k t p x.batch x.row x.col

/-- Run the units of a task that no panel has drained: their parts, and those that panels delivered, are added into the merge rows, the merged rows
are drained with the units' own elements, and the panel counters are charged (R139, R101). Answers the tiles drained. -/
def State.runUnits (s : State) (k : Fin 8) (t : Task) (p : Prod) : List OutTile × State :=
  let all := s.allTiles k t p
  let units := s.prodUnits k t.h p
  let run := fun (x : Tile) => s.unitRun k t p all x (s.unitRows k p x)
  let off := fun (x : Tile) => t.tilesOff.contains x || (p.r.skim && t.tilesOff.contains { x with part := 0 })
  let us := (units.filter fun x => !(t.tilesDone.contains x || off x)).map run
  let before := if p.r.mode = 2 ∧ !p.r.epi.raw then (units.filter t.tilesDone.contains).flatMap fun x => s.unitOuts k p (run x) else []
  let dp := s.chargePanel t.desc
  let (die, panel) := match dp with | some (d, q) => (d.val, q.val) | none => (0xFF, 0)
  let s1 := (t.parts ++ us.flatMap fun u => u.parts die panel).foldl (fun v x => v.addPart k t.h p.r.merge x) s
  let rows := s1.mergeDone k t.h p
  let outs := us.flatMap fun u => s.unitOuts k p u
  let ts := outs ++ rows.filterMap fun j => s.mergedOut s1 k t p j
  let s2 := s1.modTask k t.h fun y => { y with parts := [], mergedDone := rows ++ y.mergedDone,
                                               tilesDone := us.map (·.tile) ++ y.tilesDone }
  (ts, (s.tilesDrain s2 k t p ts (p.closeGroups false outs before ++ ts.drop outs.length)).chargeUnits k t dp us)

/-- What a checked product writes and reports: the units not yet drained by their panels, then the row statistics, C's skim region and the reports
over the whole task. -/
def State.prodDrain (s : State) (k : Fin 8) (t : Task) (p : Prod) : State :=
  let (ts, s1) := (s.reportOperands k t p).runUnits k t p
  let s2 := ((s1.drainRows k t.h p).drainSkim k p).closeSat k t.h
  s2.reportAccess k t (if ts.any (·.pois) then some (s.firstPoison p) else none) (s.deniedLine k p)

/-- The frame header of a push (R181). -/
def frameHeader (taskId func fmt bits M N batch step unts index : Nat) : List Byte :=
  let b := leBytes 4 taskId ++ leBytes 1 func ++ leBytes 1 fmt ++ leBytes 1 bits ++ leBytes 1 0 ++ leBytes 4 M ++ leBytes 4 N ++
    leBytes 4 batch ++ leBytes 4 step ++ leBytes 4 unts ++ leBytes 4 index ++ List.replicate 28 0
  b ++ leBytes 4 (crc32 b)

/-- What a product does with its stack frame before it runs (R181 to R183): a push writes its header or reports AST_OVERFLOW; a pop
checks the header. `none` when the task does not run. -/
def State.astStart (s : State) (k : Fin 8) (t : Task) (p : Prod) : State × Bool :=
  let u := s.suites[k]
  match p.dsrc with
  | some { t := dt, bit := bit, frame := some f } =>
    let addr := 64 * (u.astBase + f.start)
    if p.r.epi.deriv then
      if f.lost then (s, true)
      else
        let bs := s.bytes addr 64
        if crc32 (bs.take 60) ≠ field bs 0x3C 4 ∨ field bs 8 4 ≠ p.M ∨ field bs 0xC 4 ≠ p.N ∨ field bs 0x10 4 ≠ p.batch ∨
           field bs 4 1 ≠ p.r.epi.func then
          let back := fun (x : AstFrame) => if x.popTask == some t.h then { x with popTask := none } else x
          ((s.suiteEvent k 0x142 0xFF 0 (pack [(4, t.desc.taskId), (4, field bs 0 4), (4, f.pos), (4, u.step.toNat)])).modSuite k fun v =>
            { v with ast := { v.ast with depth := v.ast.depth + 1, frames := v.ast.frames.map back } }, false)
        else (s, true)
    else if f.lost then
      ((s.oncePerStep k 0x140 0 fun v => v.suiteEvent k 0x140 0xFF 0 (pack [(4, t.desc.taskId), (4, f.start + f.units),
        (4, u.ast.size.toNat), (4, u.step.toNat)])).worsen k t.h .formatError, true)
    else (s.write addr (frameHeader t.desc.taskId p.r.epi.func (if bit then 0 else dt.fmt.code) (b2n bit) p.M p.N p.batch u.step.toNat
      f.units f.pos), true)
  | _ => (s, true)

/-- What a product does once, before its first unit starts (R181 to R183); false when the task does not run. -/
def State.beginProd (s : State) (k : Fin 8) (t : Task) (p : Prod) : State × Bool :=
  if t.logged.contains (0, 0) then (s, true)
  else
    let (u, run) := s.astStart k t p
    (u.modTask k t.h fun y => { y with logged := (0, 0) :: y.logged }, run)

/-- Whether a product pops the activation stack (R180). -/
def State.pops (s : State) (k : Fin 8) (t : Task) (r : ProdReq) : Bool :=
  s.suites[k].isAst r.dsrc && r.epi.deriv && dKind r.epi.func != .none && r.mode != 2 && !t.recompute

/-- Whether a product is a pop at logical depth 0 (R183): fetch found no frame for it. -/
def State.underflow (s : State) (k : Fin 8) (t : Task) (r : ProdReq) : Bool :=
  s.pops k t r && t.program && (s.suites[k].frameOf t.h true).isNone

/-- When a SKIM PREDICT or FUSED does not run, apart from the conditions of its equivalent PLAIN product (R152, R153). -/
def skimBad (d : TaskDesc) (r : ProdReq) (slots : Nat) : Bool :=
  let e := r.epi
  !(e.func == 1 || e.func == 4) || e.deriv || e.raw || e.groupEn || (r.predict && (e.rowstat || e.satmap)) ||
  decide (slots ≤ d.arg 10 2) || (r.predict != (r.c == 0xFFFF)) || d.tensor 4 != 0xFFFF || d.tensor 5 != 0xFFFF

/-- The outputs of a TOPK task are an E8M7 and an INT32 tensor in layout D that hold `n` elements (R104). -/
def topOutOk (v p : Tensor) (n : Nat) : Bool :=
  v.fmt == .e8m7 && v.layout == .d && v.valid && v.elems == n && p.fmt == .int32 && p.layout == .d && p.valid && p.elems == n

/-- When a TOPK PRODUCT_SCAN does not run, apart from the conditions of its product (R104). -/
def State.scanBad (s : State) (k : Fin 8) (d : TaskDesc) : Bool :=
  let n := d.arg 42 2
  let e := d.scanReq.epi
  n == 0 || decide (256 < n) || e.raw || e.rowstat || e.satmap || e.groupEn || d.tensor 2 != 0xFFFF || d.dim 1 == 0 || decide (2 ^ 24 < d.dim 1) ||
  (match s.tensor? k (d.tensor 6), s.tensor? k (d.tensor 7) with
   | some v, some p => !topOutOk v p (d.dim 0 * d.dim 3 * n)
   | _, _ => true)

/-- Check a task that runs on the panels before it runs (R104, R132, R153, R174, R180): the product it asks for, or the status that refuses it. -/
def State.panelCheck (s : State) (k : Fin 8) (t : Task) : Except Status Prod := do
  let d := t.desc
  let r := d.panelReq
  orElse (t.program || !s.suites[k].isAst r.dsrc) .formatError
  orElse (d.type != 7 || !s.scanBad k d) .formatError
  orElse (d.type != 2 || !skimBad d r (s.suites[k].skmSlots.toNat % 65536)) .formatError
  let p ← s.prodCheck k t r
  orElse (d.type != 2 || (p.A.hasSkim && p.B.hasSkim)) .formatError
  pure p

/-- The extremes of a product's output tiles that this module's part reports to its grid group (R85, R243). -/
def State.reportExtremes (s : State) (k : Fin 8) (h : Nat) (p : Prod) (ts : List (Nat × Nat × Nat)) : State :=
  ts.foldl (fun u x => match gridRaw p.A.fmt p.B.fmt (s.outSums k p x.1 x.2.1 x.2.2) with
    | none => u
    | some (_, hi, lo) => u.modSuite k fun v =>
        v.addExtreme { h := h, tile := p.tileNo x.1 x.2.1 x.2.2, src := s.ownCoord, hi := hi, lo := lo }) s

/-- Whether tiles of a product may start summing (R243): without a grid group at once, else when their extremes are complete. -/
def State.groupReady (s : State) (k : Fin 8) (h : Nat) (p : Prod) (ts : List (Nat × Nat × Nat)) : Bool :=
  !p.r.epi.groupEn || ts.all fun x => s.extremesIn k p.r.epi.group h (p.tileNo x.1 x.2.1 x.2.2)

/-- The output tiles whose extremes a product reports to its grid group (R243): none without one. -/
def Prod.groupTiles (p : Prod) : List (Nat × Nat × Nat) :=
  if p.r.epi.groupEn then (p.denseUnits 0 0 0).map fun x => (x.batch, x.row, x.col) else []

/-- The state in which a checked product's units run: what it does once has been done (R181 to R183), and its grid group has its extremes (R243). -/
def State.prodStart (s : State) (k : Fin 8) (t : Task) (p : Prod) : State := (s.beginProd k t p).1.reportExtremes k t.h p p.groupTiles

/-- Run a task on the panels (R130 to R147): refuse it with its status, or run `f` on its checked product. A task of a grid group reports the extremes
of its tiles, and runs once those of the other parts have arrived (R243). -/
def State.withProd (s : State) (k : Fin 8) (t : Task) (f : State → Prod → State) : State :=
  let r := t.desc.panelReq
  if s.underflow k t r then
    (s.suiteEvent k 0x141 0xFF 0 (pack [(4, t.desc.taskId), (8, 0), (4, s.suites[k].step.toNat)])).finish k t.h .formatError
  else match s.panelCheck k t with
    | .error st => s.refuse k t (r.mode == 1) [r.a, r.mask, r.c] st
    | .ok p =>
      if !(s.beginProd k t p).2 then (s.beginProd k t p).1.finish k t.h .formatError
      else
        let u := s.prodStart k t p
        if u.groupReady k t.h p p.groupTiles then f u p else u

/-- Run a PRODUCT task: its units are drained and it finishes. While its values wait for an APPLY to open it goes on holding them (R256). -/
def State.runProduct (s : State) (k : Fin 8) (t : Task) : State :=
  s.withProd k t fun u p => if u.streamWaits k p then u else (u.prodDrain k t p).finish k t.h .done

/-- PRODUCT PLAIN (R130, R133, R134, R138): C = A B. -/
def execProductPlain (k : Fin 8) (h : Nat) (s : State) : Out :=
  .next (s.runTask k h 1 0 fun u t => u.runProduct k t)

/-- PRODUCT TURNED (R130, R144, R145): C = Aᵀ B. -/
def execProductTurned (k : Fin 8) (h : Nat) (s : State) : Out :=
  .next (s.runTask k h 1 1 fun u t => u.runProduct k t)

/-- PRODUCT SAMPLED (R130, R146, R147): C at the mask positions of A Bᵀ. -/
def execProductSampled (k : Fin 8) (h : Nat) (s : State) : Out :=
  .next (s.runTask k h 1 2 fun u t => u.runProduct k t)

end Sys2Proof.Machine
end

