-- ==== Sys2Proof/Machine/Slots.lean ====
section
/-! DEFINITION. The SCALE task (R79) and the slot modes of SKIM (R164): INIT, SET, SAVE and RESTORE over 128-byte slots. -/

namespace Sys2Proof.Machine

/-- Whether a byte string is all zero. -/
def allZero (bs : List Byte) : Bool := bs.all (· == 0)

/-- Headroom in 1.0–256.0 (R72). -/
def headroomOk (c : Nat) : Bool :=
  match decE8M7 c with
  | .fin false m e => dyLe 1 0 m e && dyLe m e 256 0
  | _ => false

/-- The named fields of a scale slot lie in their ranges, with its reserved flag bits zero (R72, R79). -/
def scaleSlotOk (bs : List Byte) : Bool :=
  field bs 0x30 1 != 128 && decide (field bs 0x31 1 < 16) && decide (1 ≤ field bs 0x32 1) && decide (field bs 0x32 1 ≤ 16) &&
  decide (1 ≤ field bs 0x33 1) && decide (field bs 0x33 1 ≤ 8) && headroomOk (field bs 0x34 2) && decide (1 ≤ field bs 0x3A 1)

/-- The named fields of a skim slot lie in their ranges, with its reserved fields zero (R161). -/
def skimSlotOk (bs : List Byte) : Bool :=
  decide (field bs 0 1 < 4) && decide (field bs 1 1 < 16) && decide (4 ≤ field bs 2 1) && decide (field bs 2 1 ≤ 10) &&
  decide (1 ≤ field bs 3 1) && decide (field bs 3 1 ≤ 8) && decide (1 ≤ field bs 6 2) && allZero ((bs.drop 0xC).take 4) &&
  allZero ((bs.drop 0x6C).take 20)

/-- The empty HIST of a scale slot: 24 entries of 0x7FC0 (R72). -/
def emptyHist : List Byte := (List.replicate 24 [0xC0, 0x7F]).flatten

/-- The addresses of the slots of a task's range. -/
def slotRange (at_ : Nat → Nat) (first count : Nat) : List Nat := (List.range count).map fun i => at_ (first + i)

/-- Report an access of a slot task that leaves the suite (R195): its table range and its save area. -/
def State.slotAccess (s : State) (k : Fin 8) (t : Task) (table : Nat) (area : Option Nat) (count : Nat) : State :=
  let bad := (s.firstBad k table (2 * count)).orElse fun _ => match area with | some a => s.firstBad k a (2 * count) | none => none
  s.reportAccess k t none bad

/-- The work of a slot task: `f` on each slot address of its range with the slot's place in it. -/
def State.slotsRun (s : State) (k : Fin 8) (t : Task) (at_ : Nat → Nat) (area : Option Nat) (f : State → Nat → Nat → State) : State :=
  let s1 := ((slotRange at_ (t.desc.arg 0 2) (t.desc.arg 2 2)).zipIdx).foldl (fun u x => f u x.1 x.2) s
  (s1.slotAccess k t (at_ (t.desc.arg 0 2) / 64) area (t.desc.arg 2 2)).finish k t.h .done

/-- A slot task over `count` slots from `first` (R79, R164): refused FORMAT_ERROR when the range reaches `limit` or `ok` fails, DONE
with no effect on an empty range, otherwise `f` on each slot address. DESIGN CHOICE (log 62): where the range is empty and a value lies
outside its range, both sentences of R79 apply, and the task completes FORMAT_ERROR. -/
def State.slotTask (s : State) (k : Fin 8) (t : Task) (limit : Nat) (at_ : Nat → Nat) (ok : Bool) (area : Option Nat)
    (f : State → Nat → Nat → State) : State :=
  let first := t.desc.arg 0 2
  let count := t.desc.arg 2 2
  if !ok then s.finish k t.h .formatError
  else if count = 0 then s.finish k t.h .done
  else if first + count > limit then s.finish k t.h .formatError
  else s.slotsRun k t at_ area f

/-- Whether each saved slot passes a check (R79, R164). -/
def State.savedOk (s : State) (a count : Nat) (ok : List Byte → Bool) : Bool :=
  (List.range count).all fun i => ok (s.bytes (a + 128 * i) 128)

/-- A scale slot, and a skim slot, whose contents an INIT or a RESTORE has given again (R81, R164). -/
def State.knownScale (s : State) (k : Fin 8) (slot : Nat) : State :=
  s.modSuite k fun u => { u with unspecScale := u.unspecScale.filter (· != slot) }
def State.knownSkim (s : State) (k : Fin 8) (slot : Nat) : State :=
  s.modSuite k fun u => { u with unspecSkim := u.unspecSkim.filter (· != slot) }

/-- Copy one saved slot back, all 128 bytes. -/
def State.restoreSlot (src : State) (area : Nat) (u : State) (a i : Nat) : State := u.write a (src.bytes (64 * area + 128 * i) 128)

/-- SCALE INIT (R79): the fields are set; PROMOTED, PERSIST and all counts are cleared; HIST is empty; LAST_STEP stays. -/
def State.scaleInit (s : State) (k : Fin 8) (t : Task) : State :=
  let d := t.desc
  let ok := d.arg 4 1 != 128 && decide (1 ≤ d.arg 6 1) && decide (d.arg 6 1 ≤ 16) && decide (1 ≤ d.arg 7 1) && decide (d.arg 7 1 ≤ 8) &&
    headroomOk (d.arg 8 2) && decide (1 ≤ d.arg 14 1)
  s.slotTask k t s.suites[k].slots s.suites[k].slotAddr ok none fun u a i =>
    (((u.write a (emptyHist ++ leBytes 1 (d.arg 4 1) ++ leBytes 1 (d.arg 5 1 % 8) ++ leBytes 1 (d.arg 6 1) ++ leBytes 1 (d.arg 7 1) ++
      leBytes 2 (d.arg 8 2) ++ leBytes 2 (d.arg 10 2) ++ leBytes 2 (d.arg 12 2) ++ leBytes 1 (d.arg 14 1) ++ [0]))).write (a + 0x40)
      (List.replicate 64 0)).knownScale k (d.arg 0 2 + i)

/-- SCALE INIT as a command: its effect on a started task (R79). -/
def execScaleInit (k : Fin 8) (h : Nat) (s : State) : Out :=
  .next (s.runTask k h 9 0 fun u t => u.scaleInit k t)

/-- SCALE SET (R79): SCALE only. -/
def State.scaleSet (s : State) (k : Fin 8) (t : Task) : State :=
  s.slotTask k t s.suites[k].slots s.suites[k].slotAddr (t.desc.arg 4 1 != 128) none fun u a i =>
    (u.write (a + 0x30) (leBytes 1 (t.desc.arg 4 1))).respoilScale k (t.desc.arg 0 2 + i)

/-- SCALE SET as a command: its effect on a started task (R79). -/
def execScaleSet (k : Fin 8) (h : Nat) (s : State) : Out :=
  .next (s.runTask k h 9 1 fun u t => u.scaleSet k t)

/-- SCALE SAVE (R79). -/
def State.scaleSave (s : State) (k : Fin 8) (t : Task) : State :=
  s.slotTask k t s.suites[k].slots s.suites[k].slotAddr true (some (t.desc.arg 4 5)) fun u a i =>
    u.write (64 * t.desc.arg 4 5 + 128 * i) (s.bytes a 128)

/-- SCALE SAVE as a command: its effect on a started task (R79). -/
def execScaleSave (k : Fin 8) (h : Nat) (s : State) : Out :=
  .next (s.runTask k h 9 2 fun u t => u.scaleSave k t)

/-- SCALE RESTORE (R79): all saved slots, or none when one fails. -/
def State.scaleRestore (s : State) (k : Fin 8) (t : Task) : State :=
  let a := t.desc.arg 4 5
  s.slotTask k t s.suites[k].slots s.suites[k].slotAddr (s.savedOk (64 * a) (t.desc.arg 2 2) scaleSlotOk) (some a) fun u x i =>
    (s.restoreSlot a u x i).knownScale k (t.desc.arg 0 2 + i)

/-- SCALE RESTORE as a command: its effect on a started task (R79). -/
def execScaleRestore (k : Fin 8) (h : Nat) (s : State) : Out :=
  .next (s.runTask k h 9 3 fun u t => u.scaleRestore k t)

/-- Number of skim slots (R169). -/
def Suite.skimSlots (u : Suite) : Nat := u.skmSlots.toNat % 65536

/-- SKIM INIT (R164): the fields are set and every count cleared; LAST_STEP stays. -/
def State.skimInit (s : State) (k : Fin 8) (t : Task) : State :=
  let d := t.desc
  let bs := leBytes 1 (d.arg 4 1) ++ leBytes 1 (d.arg 5 1) ++ leBytes 1 (d.arg 6 1) ++ leBytes 1 (d.arg 7 1) ++ leBytes 2 (d.arg 8 2) ++
    leBytes 2 (d.arg 10 2)
  s.slotTask k t s.suites[k].skimSlots s.suites[k].skimAddr (skimSlotOk (bs ++ List.replicate 120 0)) none fun u a i =>
    ((u.write a bs).write (a + 0x10) (List.replicate 0x5C 0)).knownSkim k (d.arg 0 2 + i)

/-- SKIM INIT as a command: its effect on a started task (R164). -/
def execSkimInit (k : Fin 8) (h : Nat) (s : State) : Out :=
  .next (s.runTask k h 2 2 fun u t => u.skimInit k t)

/-- SKIM SET (R164): FLAGS and MARGIN. -/
def State.skimSet (s : State) (k : Fin 8) (t : Task) : State :=
  let d := t.desc
  s.slotTask k t s.suites[k].skimSlots s.suites[k].skimAddr (decide (d.arg 4 1 < 4) && decide (d.arg 5 1 < 16)) none fun u a i =>
    (u.write a (leBytes 1 (d.arg 4 1) ++ leBytes 1 (d.arg 5 1))).respoilSkim k (d.arg 0 2 + i)

/-- SKIM SET as a command: its effect on a started task (R164). -/
def execSkimSet (k : Fin 8) (h : Nat) (s : State) : Out :=
  .next (s.runTask k h 2 3 fun u t => u.skimSet k t)

/-- SKIM SAVE (R164). -/
def State.skimSave (s : State) (k : Fin 8) (t : Task) : State :=
  s.slotTask k t s.suites[k].skimSlots s.suites[k].skimAddr true (some (t.desc.arg 4 5)) fun u a i =>
    u.write (64 * t.desc.arg 4 5 + 128 * i) (s.bytes a 128)

/-- SKIM SAVE as a command: its effect on a started task (R164). -/
def execSkimSave (k : Fin 8) (h : Nat) (s : State) : Out :=
  .next (s.runTask k h 2 4 fun u t => u.skimSave k t)

/-- SKIM RESTORE (R164): all saved slots, or none when one fails. -/
def State.skimRestore (s : State) (k : Fin 8) (t : Task) : State :=
  let a := t.desc.arg 4 5
  s.slotTask k t s.suites[k].skimSlots s.suites[k].skimAddr (s.savedOk (64 * a) (t.desc.arg 2 2) skimSlotOk) (some a) fun u x i =>
    (s.restoreSlot a u x i).knownSkim k (t.desc.arg 0 2 + i)

/-- SKIM RESTORE as a command: its effect on a started task (R164). -/
def execSkimRestore (k : Fin 8) (h : Nat) (s : State) : Out :=
  .next (s.runTask k h 2 5 fun u t => u.skimRestore k t)

/-! ## Writes from elsewhere (R81, R164) -/

/-- Whether a RUN task of the suite is in flight. -/
def Suite.runInFlight (u : Suite) : Bool := u.run.isSome

/-- The slots of a table that a write of `n` bytes at `a` touches. -/
def touchedSlots (base size count a n : Nat) : List Nat :=
  if n = 0 then [] else
    let lo := max a base
    let hi := min (a + n) (base + size * count)
    if lo < hi then (List.range ((hi - 1 - base) / size - (lo - base) / size + 1)).map (· + (lo - base) / size) else []

/-- A write outside SCALE tasks over scale slots while a RUN is in flight leaves those slots unspecified until their next INIT or RESTORE
(R81). -/
def State.scaleSlotWrite (s : State) (k : Fin 8) (a n : Nat) : State :=
  let u := s.suites[k]
  if !u.runInFlight then s
  else
    let hit := touchedSlots (u.slotAddr 0) 128 u.slots a n
    (s.confine k fun v => hit.foldl (fun t i => t.freeScaleSlot (u.slotAddr i)) v).modSuite k fun v =>
      { v with unspecScale := (hit ++ v.unspecScale).eraseDups }

/-- A write outside the SKIM slot modes over skim slots while a RUN is in flight leaves those slots unspecified until their next INIT or
RESTORE (R81, R164). -/
def State.skimSlotWrite (s : State) (k : Fin 8) (a n : Nat) : State :=
  let u := s.suites[k]
  if !u.runInFlight then s
  else
    let hit := touchedSlots (u.skimAddr 0) 128 u.skimSlots a n
    (s.confine k fun v => hit.foldl (fun t i => t.freeSkimSlot (u.skimAddr i)) v).modSuite k fun v =>
      { v with unspecSkim := (hit ++ v.unspecSkim).eraseDups }

/-- A write from outside both kinds of slot task (R81, R164). -/
def State.slotWrite (s : State) (k : Fin 8) (a n : Nat) : State := (s.scaleSlotWrite k a n).skimSlotWrite k a n

end Sys2Proof.Machine
end

