-- ==== Sys2Proof/Machine/Skim.lean ====
section
/-! DEFINITION. The skim pass (R148 to R168): the bound, the activity map, audits, run-ahead, and the top-k tasks (R103, R104). -/

namespace Sys2Proof.Machine

/-- A binary32 word in memory, zero where its line is poisoned, and whether it is. -/
def State.f32At (s : State) (a : Nat) : Word × Bool :=
  if s.poisoned (a / 64) then (0, true) else (BitVec.ofNat 32 (s.le a 4), false)

/-- The skim copies of a product's operands as operands (R148, R153): T2, S = 0, no slot. -/
def Prod.skimProd (p : Prod) : Prod :=
  { p with A := p.A.skimView, B := p.B.skimView, map := none, accIn := none, dsrc := none, C := none, rowT := none, satT := none, twin := [],
           aSt := { p.aSt with places := p.A.skimPlaces p.aSt } }

/-- A norm word of an operand whose view gives its rows or columns no entry of the norm area: a free value (log 64). -/
def viewNorm (id i which : Nat) : Word × Bool := (Config.viewNorm id i which, false)

/-- The row entry of the weight and the column entry of the activation (R148, R150): ‖W_m − Ŵ_m‖, ‖Ŵ_m‖, ‖X_n‖, ‖X_n − X̂_n‖, and whether a line
they lie in is poisoned. A row of a viewed weight is the source row it reads, a column of a viewed activation the source column; where the view
puts another source dimension there, or broadcasts the one that the norm runs over, the norm area holds no norm of it (log 64). -/
def State.normsOf (s : State) (p : Prod) (b m n : Nat) : Word × Word × Word × Word × Bool :=
  let batch := fun (t : Tensor) (v : View) => if t.viewDim v [0, 0, 0, 0, 0] 2 = 1 ∧ !v.bcast.getD 2 false then 0 else b
  let r := if p.A.layout = .d then (p.A.viewPlace p.va [0, m, batch p.A p.va, 0, 0]).row else m
  let c := (p.B.viewPlace p.vb [n, 0, batch p.B p.vb, 0, 0]).col
  let aOn := p.A.layout != .d || (p.va.perm.getD 0 0 == 0 && !p.va.bcast.getD 0 false)
  let bOn := p.vb.perm.getD 0 0 == 0 && !p.vb.bcast.getD 1 false
  let ra := p.A.normAt p.aSt + 8 * r
  let ca := p.B.normAt p.B.dStruct + up64 (8 * p.B.nr) + 8 * c
  let x := if aOn then s.f32At ra else viewNorm p.A.id m 0
  let y := if aOn then s.f32At (ra + 4) else viewNorm p.A.id m 1
  let z := if bOn then s.f32At ca else viewNorm p.B.id n 2
  let w := if bOn then s.f32At (ca + 4) else viewNorm p.B.id n 3
  (x.1, y.1, z.1, w.1, x.2 || y.2 || z.2 || w.2)

/-- 2^n in binary32, as an exact value rounded up. -/
def f32scaleUp (c : Nat) (e : Int) : Word := f32enc .up (.fin false c e)

/-- The bound of R150: whether an output is active. `nOff` is the row's off-grid count, `mu` the margin factor. -/
def skimActive (acc : Acc) (g : Int) (nOff : Nat) (rres rnorm cnorm cres cs bias mu : Word) : Bool :=
  let zhat := f32enc .up (acc.value g)
  let beta := f32add .up (f32add .up (f32mul .up rres cnorm) (f32mul .up rnorm cres)) (f32scaleUp nOff (g - 1))
  let p := f32add .up (f32mul .up zhat cs) bias
  let rho := f32mul .up (f32mul .up mu beta) (f32abs cs)
  f32pos (f32add .up p rho) || acc.sat

/-- The sampled-audit selector of R158. -/
def auditPick (map step idx audit : Nat) (seed : Vector Word 4) : Bool :=
  mix (2 ^ 120 + map % 65536 * 2 ^ 96 + step % 2 ^ 32 * 2 ^ 64 + idx % 2 ^ 64) seed / 2 ^ (24 - audit) = 0

/-- The activity codes of one tile (R150, R155, R158): each row's codes, with the tile's skim accumulators. -/
def State.skimTile (s : State) (k : Fin 8) (p : Prod) (slotAt : Nat) (o : OutTile) : List (Nat × List Nat) × Bool :=
  let u := s.suites[k]
  let eco := bitOf (s.byte slotAt).toNat 0
  let mu := if eco then f32scaleUp ((s.byte (slotAt + 1)).toNat) (-4) else 0x3F800000
  let e := p.r.epi
  let rows := o.rowEls.map fun (re : Nat × List OutEl) =>
    let m := re.1
    let nOff := sumL (re.2.map fun (x : OutEl) => x.acc.nOff)
    let acts := re.2.map fun (x : OutEl) =>
      let (rres, rnorm, cnorm, cres, bad) := s.normsOf p x.b x.m x.n
      let cs := if e.colscaleEn then s.vec k e.colscale x.n else 0x3F800000
      let bi := if e.biasEn then s.vec k e.bias x.n else 0
      (skimActive x.acc x.g nOff rres rnorm cnorm cres cs bi mu, bad)
    let picked := eco && acts.all (fun (a : Bool × Bool) => !a.1) &&
      auditPick p.r.map u.step.toNat (64 * o.j + p.N * (m + p.M * o.b)) (s.byte (slotAt + 2)).toNat u.seed
    (m, acts.map (fun (a : Bool × Bool) => if a.1 then 1 else if picked then 3 else 0), acts.any (fun (a : Bool × Bool) => a.2))
  (rows.map fun (r : Nat × List Nat × Bool) => (r.1, r.2.1), rows.any fun (r : Nat × List Nat × Bool) => r.2.2)

/-- Write the map's codes and scale bytes of one tile, with the padding codes of its row's last block as zero (R56, R155). -/
def State.writeMap (s : State) (t : Tensor) (o : OutTile) (rows : List (Nat × List Nat)) : State :=
  rows.foldl (fun u (m, cs) =>
    let r := m + t.dim 1 * o.b
    let pads := if 64 * o.j + cs.length = t.nc then List.replicate (32 * cdiv t.nc 32 - t.nc) 0 else []
    let u1 := ((cs ++ pads).zipIdx).foldl (fun v x => let pl := t.dPlace r (64 * o.j + x.2); v.putCode .t2 pl.valAt pl.idx x.1) u
    (List.range (cdiv cs.length 32)).foldl (fun v i => v.write (t.dPlace r (64 * o.j + 32 * i)).scaleAt [0x7F]) u1) s

/-- Lines of the compute copy's values and scales of the strips of a row (R165). -/
def Prod.rowLines (p : Prod) (m : Nat) : List Nat :=
  ((p.aSt.places.filter fun x => x.row == m).flatMap fun x => [codeLine p.A.fmt x.valAt x.idx, x.scaleAt / 64]).eraseDups

/-- The rows that the map issues in a column tile (R157). -/
def State.issuedRows (s : State) (p : Prod) (b i j : Nat) : List Nat :=
  (span64 i p.M).filter fun m => (span64 j p.N).any fun n => s.mapCode p b m n != 0

/-- Whether the run-ahead serves a FUSED task on a die (R165): SFLAGS.RUN_AHEAD, and RA_EN and RA_DEPTH of the die. -/
def State.runsAhead (s : State) (t : Task) (p : Prod) (d : Fin 8) : Bool :=
  t.desc.type == 2 && t.desc.mode == 1 && bitOf (t.desc.arg 8 1) 0 && s.dies[d].skm.raEn && s.dies[d].skm.raDepth != 0 && p.A.layout == .st

/-- The lines fetched ahead while the skim of a column tile runs (R165): those of the rows issued in the tile before, none for tile 0. -/
def State.aheadLines (s : State) (p : Prod) (x : Tile) : List (Nat × Nat) :=
  if x.col = 0 then []
  else (s.issuedRows p x.batch x.row (x.col - 1)).flatMap fun m => (p.rowLines m).map fun u => (m, u)

/-- Bind a map to its slot for the rest of the step (R156). -/
def Suite.bind (u : Suite) (map slot : Nat) : Suite := { u with bindings := (map, slot) :: u.bindings.filter fun x => x.1 != map }

/-- Whether a SKIM task finds no room for its binding (R156). -/
def Suite.bindFull (u : Suite) (map : Nat) : Bool := decide (1024 ≤ u.bindings.length) && !(u.bindings.any fun x => x.1 == map)

/-- The skim of one output tile (R150, R155, R161): its unit on the array, its rows' codes, and whether it read a poisoned line. -/
structure SkimTile where
  run : UnitRun
  out : OutTile
  rows : List (Nat × List Nat)
  pois : Bool
  deriving DecidableEq, Repr

/-- Compute the skim of one output tile. -/
def State.skimOne (s : State) (k : Fin 8) (t : Task) (p : Prod) (x : Tile) : SkimTile :=
  let (o, u) := s.denseOut k t p.skimProd x.batch x.row x.col
  let (rows, bad) := s.skimTile k p (s.suites[k].skimAddr (t.desc.arg 10 2)) o
  { run := u, out := o, rows := rows, pois := o.pois || bad }

/-- Drain the skims of output tiles: the map, its poison (R201), and the slot's counts (R161). -/
def State.skimDrain (s : State) (k : Fin 8) (t : Task) (p : Prod) (xs : List SkimTile) : State :=
  match p.map with
  | none => s
  | some mt =>
    let slot := t.desc.arg 10 2
    let at_ := s.suites[k].skimAddr slot
    let s1 := (xs.foldl (fun u x => u.writeMap mt x.out x.rows) s).settle mt mt.dStruct
      (xs.flatMap fun x => x.out.els.map fun (y : OutEl) => mt.dPlace (y.m + mt.dim 1 * y.b) y.n)
    let s2 := (xs.filter (·.pois)).foldl (fun u x => (span64 x.out.i p.M).foldl (fun v m =>
      v.poisonCols mt (m + mt.dim 1 * x.out.b) (64 * x.out.j) (min p.N (64 * x.out.j + 64))) u) s1
    let codes := xs.flatMap fun x => x.rows.flatMap (·.2)
    let skipped := (codes.filter fun c => c != 1).length
    let rowsOff := sumL (xs.map fun x =>
      let dead := (x.rows.filter fun r => r.2.all (· == 0)).length
      if p.A.layout = .st ∨ dead = x.rows.length then dead else 0)
    if t.recompute then s2
    else ((((s2.bump64 (at_ + 0x10) codes.length).bump64 (at_ + 0x18) skipped).bump64 (at_ + 0x20) rowsOff).bump64 (at_ + 0x48) skipped).respoilSkim
      k slot

/-- The die whose thread holds a tile. -/
def State.tileDie (s : State) (x : Tile) : Option (Fin 8) :=
  (List.finRange 8).find? fun d => s.dies[d].panels.toList.any fun p => p.threads.any fun y => y.tile == x

/-- The run-ahead of a tile's skim, once its map has drained (R165): the fetched lines of the rows that the tile issues are used, the others
cancelled. -/
def State.aheadDone (s : State) (t : Task) (p : Prod) (d : Fin 8) (x : Tile) : State :=
  if !s.runsAhead t p d then s
  else
    let ls := s.aheadLines p x
    let on := s.issuedRows p x.batch x.row x.col
    let used := (ls.filter fun y => on.contains y.1).length
    s.countAhead d ls.length used (ls.length - used)

/-- The skim pass of a checked task (R150 to R157): the tiles that no panel has drained and no stopped part holds, with the reports of R57, R124
and R201 over the whole pass. -/
def State.skimPass (s : State) (k : Fin 8) (t : Task) (p : Prod) : State :=
  let todo := (p.denseUnits k t.h 0).filter fun x => !(t.tilesDone.contains x || t.tilesOff.contains x)
  let xs := todo.map (s.skimOne k t p)
  let s1 := (s.skimDrain k t p xs).chargeUnits k t (s.chargePanel t.desc) (xs.map (·.run))
  let s2 := todo.foldl (fun u x => match (s.tileDie x).orElse fun _ => (maskDies t.desc.dieMask).head? with
    | none => u
    | some d => u.aheadDone t p d x) s1
  let (as, bs) := s.prodReads k p.skimProd
  let s3 := (s2.reportEnts k t.h p.skimProd.A as).reportEnts k t.h p.skimProd.B bs
  let s4 := if p.r.predict ∧ p.aSt.bad ≠ 0 then s3.formatEvent k t p.A.id p.A.layout.badKind 0 p.aSt.bad else s3
  (s4.modTask k t.h fun y => { y with tilesDone := todo ++ y.tilesDone }).reportAccess k t
    (if xs.any (·.pois) then some (s.firstPoison p) else none) (if p.r.predict then s.deniedLine k p else none)

/-- Run a SKIM PREDICT or FUSED task (R152 to R157, R168). The parts of dies whose skim controller does not run complete DISABLED. -/
def State.runSkim (s : State) (k : Fin 8) (t : Task) : State :=
  let dies := maskDies t.desc.dieMask
  let on := dies.filter fun d => s.dies[d].skm.fn.st == .running
  if on.isEmpty then s.finish k t.h .disabled
  else s.withProd k t fun u p =>
    if u.suites[k].bindFull p.r.map then u.finish k t.h .busy
    else
      let s1 := (u.modSuite k fun v => v.bind p.r.map (t.desc.arg 10 2)).skimPass k t p
      let s2 := if on.length < dies.length then s1.worsen k t.h .disabled else s1
      if p.r.predict then (s2.closeSat k t.h).finish k t.h .done
      else match s2.task? k t.h with
        | none => s2
        | some t' => (s2.prodDrain k t' p).finish k t.h .done

/-- SKIM PREDICT (R150, R155): writes the activity map only. -/
def execSkimPredict (k : Fin 8) (h : Nat) (s : State) : Out := .next (s.runTask k h 2 0 fun u t => u.runSkim k t)

/-- SKIM FUSED (R157): writes the map, then runs the PLAIN product with it. -/
def execSkimFused (k : Fin 8) (h : Nat) (s : State) : Out := .next (s.runTask k h 2 1 fun u t => u.runSkim k t)

/-! ## TOPK -/

/-- Write element i of an output tensor of k entries per segment, in the order of R66. -/
def State.putElem (s : State) (t : Tensor) (i c : Nat) : State :=
  let pl := t.dPlace (i / t.nc) (i % t.nc)
  s.putCode t.fmt pl.valAt pl.idx c

/-- Write the entries of each segment; a segment that read a poisoned line poisons its entries' lines (R201). -/
def State.topWrite (s : State) (v p : Tensor) (k : Nat) (segs : List (List TopEnt × Bool)) : State :=
  (segs.zipIdx).foldl (fun u x =>
    let es := topCodes k x.1.1
    let at_ := fun (t : Tensor) => (List.range k).map fun j => t.dPlace ((k * x.2 + j) / t.nc) ((k * x.2 + j) % t.nc)
    let u1 := (((es.zipIdx).foldl (fun w y => (w.putElem v (k * x.2 + y.2) y.1.1).putElem p (k * x.2 + y.2) y.1.2) u).settle v v.dStruct
      (at_ v)).settle p p.dStruct (at_ p)
    if x.1.2 then (List.range k).foldl (fun w j =>
      let i := k * x.2 + j
      (w.poisonPlace .e8m7 (v.dPlace (i / v.nc) (i % v.nc))).poisonPlace .int32 (p.dPlace (i / p.nc) (i % p.nc))) u1 else u1) s

/-- A source element of SCAN: an INT32 element is a raw partial on its tile's grid, its mark a NaN (R103, R104). -/
def State.scanEnt (s : State) (t : Tensor) (e : Ent) : Num × Bool :=
  if t.fmt = .int32 ∧ !e.pois then
    if e.code = rawMark then (.nan false, true)
    else
      (.ofInt (signed 32 e.code) (s.gridByte t (t.tileNo e.row e.col)), false)
  else (e.v, false)

/-- SCAN's work (R103, R104): the k entries of largest magnitude of each segment of the source, and its reports. -/
def State.scanRun (s : State) (k : Fin 8) (t : Task) (src v p : Tensor) (st : Struct) : State :=
  let seg := t.desc.arg 0 4
  let n := t.desc.arg 4 2
  let es := s.readAll k src st
  let xs := es.map fun e => (src.lin e.row e.col, s.scanEnt src e, e.pois)
  let marks := (xs.filter fun x => x.2.1.2).length
  let segs := (List.range (src.elems / seg)).map fun i =>
    let mine := xs.filter fun x => x.1 / seg == i
    let stored := mine.map fun x => (⟨x.1 % seg, x.2.1.1⟩ : TopEnt)
    let zeros := ((List.range seg).filter fun q => !stored.any fun e => e.pos == q).map fun q => (⟨q, .zero⟩ : TopEnt)
    ((if src.layout = .d then stored else stored ++ zeros), mine.any (·.2.2))
  let s1 := s.topWrite v p n segs
  let inv := invalidOf es
  let s2 := (s1.reportInvalid k src es).addCount k t.h inv
  let s3 := if inv = 0 then s2 else s2.worsen k t.h .formatError
  let s4 := if marks = 0 then s3 else s3.worsen k t.h .saturated
  let s5 := if st.bad = 0 then s4 else s4.formatEvent k t src.id src.layout.badKind 0 st.bad
  let bad := (s.poison.find? fun u => (s.regions src st).any fun r => rangesMeet (u, 1) r)
  let out := [src, v, p].findSome? fun x => if x.layout = .d then s.firstBad k x.base (units (x.extent 4)) else none
  (s5.reportAccess k t (if segs.any (·.2) then some (bad.getD 0) else none) out).finish k t.h .done

/-- TOPK SCAN (R103, R104). -/
def State.topkScan (s : State) (k : Fin 8) (t : Task) : State :=
  let seg := t.desc.arg 0 4
  let n := t.desc.arg 4 2
  match s.tensor? k (t.desc.tensor 0), s.tensor? k (t.desc.tensor 1), s.tensor? k (t.desc.tensor 2) with
  | some src, some v, some p =>
    match s.opStruct k src with
    | .error e => s.refuse k t false [src.id] e.status
    | .ok st =>
      if n = 0 ∨ n > 256 ∨ seg = 0 ∨ seg > 2 ^ 24 ∨ src.elems % seg ≠ 0 ∨ !topOutOk v p (src.elems / seg * n) then s.finish k t.h .formatError
      else s.scanRun k t src v p st
  | _, _, _ => s.finish k t.h .formatError

/-- TOPK SCAN as a command: its effect on a started task (R103, R104). -/
def execTopkScan (k : Fin 8) (h : Nat) (s : State) : Out :=
  .next (s.runTask k h 7 0 fun u t => u.topkScan k t)

/-- PRODUCT_SCAN's work (R104): the top k of each output row of a checked PLAIN product, which itself is not written. -/
def State.productTop (u : State) (k : Fin 8) (t : Task) (q : Prod) (v p : Tensor) : State :=
  let rows := t.desc.dim 0 * t.desc.dim 3
  let (ts, s1) := (u.reportOperands k t q).runUnits k t q
  let done := if t.tilesDone.isEmpty then [] else
    ((u.prodUnits k t.h q).filter t.tilesDone.contains).flatMap (fun x => u.unitOuts k q (u.unitRun k t q [] x (u.unitRows k q x))) ++
      t.mergedDone.filterMap fun j => u.mergedOut u k t q j
  let els := (ts ++ done).flatMap fun x => x.els.map fun y => (y, x.pois)
  let segs := (List.range rows).map fun i =>
    let mine := els.filter fun y => y.1.m + q.M * y.1.b == i
    (mine.map fun y => (⟨y.1.n, (u.drainEl k q y.1).val⟩ : TopEnt), mine.any (·.2))
  let s2 := (s1.topWrite v p (t.desc.arg 42 2) segs).closeSat k t.h
  (s2.reportAccess k t (if segs.any (·.2) then some (u.firstPoison q) else none) (u.deniedLine k q)).finish k t.h .done

/-- TOPK PRODUCT_SCAN (R104). -/
def State.topkProductScan (s : State) (k : Fin 8) (t : Task) : State :=
  s.withProd k t fun u q =>
    match u.tensor? k (t.desc.tensor 6), u.tensor? k (t.desc.tensor 7) with
    | some v, some p => u.productTop k t q v p
    | _, _ => u

/-- TOPK PRODUCT_SCAN as a command: its effect on a started task (R104). -/
def execTopkProductScan (k : Fin 8) (h : Nat) (s : State) : Out :=
  .next (s.runTask k h 7 1 fun u t => u.topkProductScan k t)

end Sys2Proof.Machine
end

