-- ==== Sys2Proof/Machine/Relay.lean ====
section
/-! DEFINITION. The relay engine (R112 to R129, R415): STORE, STORE_VALUES, ONEHOT, COPY, HOST_IN, HOST_OUT, CHECK and TWIN, with the
overlap check (R126), the capacities (R121), bound regions (R127, R316, R317) and poisoned sources (R201). -/

namespace Sys2Proof.Machine

/-! ## Region pieces -/

/-- A region to write: its unit address, its capacity, the pieces of it that the layout uses, and its bit in the mask of R121. -/
structure Region where
  unit : Nat
  cap : Nat
  bit : Nat
  pieces : List (Nat × Nat)
  deriving DecidableEq, Repr

/-- Units that a region's layout needs. -/
def Region.need (r : Region) : Nat := r.pieces.foldl (fun m p => max m (p.1 + p.2 - r.unit)) 0

/-- Whether a region overflows its capacity. -/
def Region.overflows (r : Region) : Bool := decide (r.cap < r.need)

/-- The part of a piece below the capacity. -/
def Region.clip (r : Region) (p : Nat × Nat) : Nat × Nat := (p.1, min p.2 (r.unit + r.cap - p.1))

/-- Write a built region's lines below its capacity, whole lines in ascending address order (R121). -/
def State.writeRegion (s built : State) (r : Region) : State :=
  (r.pieces.map r.clip).foldl (fun u p => if p.2 = 0 then u else u.write (64 * p.1) (built.bytes (64 * p.1) (64 * p.2))) s

/-- Set the poison marker in a region's lines below its capacity (R121). -/
def State.poisonRegion (s : State) (r : Region) : State :=
  (r.pieces.map r.clip).foldl (fun u p => u.poisonRange (64 * p.1) (64 * p.2)) s

/-- Zero every line of the pieces in a scratch image. -/
def State.zeroPieces (s : State) (rs : List Region) : State :=
  rs.foldl (fun u r => r.pieces.foldl (fun v p => v.rawWrite (64 * p.1) (List.replicate (64 * p.2) 0)) u) s

/-- The pieces of a tensor's BASE region: the row records of a D tensor, else the whole region. -/
def Tensor.basePieces (t : Tensor) (st : Struct) : List (Nat × Nat) :=
  match t.layout with
  | .d => (List.range t.nr).map fun r => (t.rowAddr (t.outer r) / 64, dRecord t.fmt t.nc / 64)
  | _ => [(t.base, units (t.baseSize st))]

/-! ## Building structures (R109 to R116) -/

/-- A built structure: what it stores, and the bytes of its INDEX region. -/
structure Built where
  st : Struct
  index : List Byte
  deriving DecidableEq, Repr

/-- Cut a list into runs of at most `n`. -/
def chunks {β : Type} (n : Nat) : Nat → List β → List (List β)
  | 0, _ => []
  | _, [] => []
  | f + 1, l => l.take n :: chunks n f (l.drop n)

/-- The strips of a row, (window, columns), cut at windows and at 32 (R112). -/
def rowStrips (cols : List Nat) : List (Nat × List Nat) :=
  ((cols.map (· / 4096)).eraseDups).flatMap fun w =>
    (chunks 32 cols.length (cols.filter fun c => c / 4096 == w)).map fun l => (w, l)

/-- A strip record's bytes (R111). -/
def stripBytes (row w : Nat) (cols : List Nat) : List Byte :=
  leBytes 48 (sumL (cols.zipIdx.map fun x => x.1 % 4096 * 2 ^ (12 * x.2))) ++ leBytes 4 row ++
  leBytes 4 (cols.length * 2 ^ 20 + w) ++ List.replicate 8 0

/-- The lanes of R114 before sorting: (NNZ, FIRST, STRIPS, PART). -/
def laneList (L : Nat) (dir : List Nat) (counts : List Nat) (nr : Nat) : List (Nat × Nat × Nat × Nat) :=
  (List.range nr).flatMap fun r =>
    let first := dir.getD r 0
    let cnt := dir.getD (r + 1) 0 - first
    let n := cdiv cnt L
    let big := if n = 0 then 0 else cnt % n
    (List.range n).map fun i =>
      let f := first + i * (cnt / n) + min i big
      let m := cnt / n + (if i < big then 1 else 0)
      (sumL ((counts.drop f).take m), f, m, b2n (decide (1 < n)))

/-- Lanes in table order: descending NNZ, ties by ascending FIRST. The list is given in ascending FIRST and the sort is stable. -/
def sortLanes (l : List (Nat × Nat × Nat × Nat)) : List (Nat × Nat × Nat × Nat) :=
  let top := (l.map (·.1)).foldl max 0
  (sortKey (l.map fun x => (top - x.1, x))).map (·.2)

/-- Build an ST structure from (row, column) positions in ascending order (R110 to R114). -/
def buildSt (t : Tensor) (pos : List (Nat × Nat)) (laneStrips epoch : Nat) (onehot : Bool) : Built :=
  let strips := (List.range t.nr).flatMap fun r => (rowStrips ((pos.filter fun p => p.1 == r).map (·.2))).map fun x => (r, x.1, x.2)
  let n := strips.length
  let dir := (List.range (t.nr + 1)).map fun r => (strips.filter fun x => decide (x.1 < r)).length
  let L := if laneStrips = 0 then 8 else laneStrips
  let lanes := sortLanes (laneList L dir (strips.map (·.2.2.length)) t.nr)
  let dirU := units (4 * (t.nr + 1))
  let laneU := units (8 * lanes.length)
  let hdr := leBytes 4 n ++ leBytes 4 t.nr ++ leBytes 8 pos.length ++ leBytes 4 lanes.length ++ leBytes 1 L ++ leBytes 1 (b2n onehot) ++
    [0, 0] ++ leBytes 4 1 ++ leBytes 4 (1 + dirU) ++ leBytes 4 (1 + dirU + laneU) ++ leBytes 4 epoch ++ List.replicate 20 0
  let plane := 64 * t.base + up64 (n * t.fmt.sw)
  { index := hdr ++ leBytes 4 (crc32 hdr) ++ padTo64 (dir.flatMap (leBytes 4)) ++
      padTo64 (lanes.flatMap fun (z, f, m, p) => leBytes 4 f ++ leBytes 2 z ++ leBytes 1 m ++ leBytes 1 p) ++
      strips.flatMap fun (r, w, cs) => stripBytes r w cs,
    st := { places := (strips.zipIdx).flatMap fun ((r, _, cs), j) => cs.zipIdx.map fun (c, i) =>
              { row := r, col := c, scaleAt := 64 * t.base + j * t.fmt.sw, valAt := plane + 32 * j * t.fmt.bits / 8, idx := i, group := j },
            bad := 0, strips := (strips.zipIdx).map fun ((r, w, cs), j) => { no := j, row := r, window := w, cols := cs, cnt := cs.length, ok := true },
            onehot := onehot, laneStrips := L, epoch := epoch, nStrips := n, lanes := lanes.map fun x => ⟨dirRow dir x.2.1, x.2.1, x.2.2.1⟩ } }

/-- Build an M4 structure; at most four positions per group are given (R109). -/
def buildM4 (t : Tensor) (pos : List (Nat × Nat)) : Built :=
  let ng := cdiv t.nc 16
  let rec64 := m4A t.fmt t.nc + m4V t.fmt t.nc
  let grp := fun r g => (pos.filter fun p => p.1 == r && p.2 / 16 == g).map (·.2)
  { index := (List.range t.nr).flatMap fun r => padTo64 ((List.range ng).flatMap fun g =>
      leBytes 2 (sumL ((grp r g).map fun c => 2 ^ (c % 16)))),
    st := { Struct.empty with
      places := (List.range t.nr).flatMap fun r => (List.range ng).flatMap fun g => (grp r g).zipIdx.map fun (c, i) =>
        { row := r, col := c, scaleAt := 64 * t.base + r * rec64 + g / 2 * t.fmt.sw,
          valAt := 64 * t.base + r * rec64 + m4A t.fmt t.nc, idx := 4 * g + i, group := r * cdiv t.nc 32 + g / 2 } } }

/-- Build a BK structure that holds the blocks of the positions (R116). -/
def buildBk (t : Tensor) (pos : List (Nat × Nat)) : Built :=
  let nbr := cdiv t.nr 16
  let nbc := cdiv t.nc 16
  let maps := (List.range nbr).map fun i => (List.range nbc).filter fun c => pos.any fun p => p.1 / 16 == i && p.2 / 16 == c
  let dir := (List.range (nbr + 1)).map fun i => sumL ((maps.take i).map (·.length))
  let scaleRow := up64 (cdiv t.nc 32 * t.fmt.sw)
  let plane := 64 * t.base + up64 (t.nr * scaleRow)
  { index := padTo64 (dir.flatMap (leBytes 4)) ++ maps.flatMap fun m => padTo64 (leBytes (cdiv nbc 8) (sumL (m.map fun c => 2 ^ c))),
    st := { Struct.empty with
      nStrips := dir.getLastD 0,
      places := (List.range nbr).flatMap fun i => (maps.getD i []).zipIdx.flatMap fun (c, n) => (List.range 256).filterMap fun e =>
        let r := 16 * i + e / 16
        let col := 16 * c + e % 16
        if r < t.nr ∧ col < t.nc then
          some { row := r, col := col, scaleAt := 64 * t.base + r * scaleRow + col / 32 * t.fmt.sw, valAt := plane,
                 idx := 256 * (dir.getD i 0 + n) + e, group := r * cdiv t.nc 32 + col / 32 }
        else none } }

/-- The bytes of the twin index of strips (R115). -/
def twinBytes (nc epoch nStrips : Nat) (strips : List Strip) : List Byte :=
  let W := cdiv nc 4096
  let lists := (List.range (64 * W)).map fun i =>
    (strips.filter (·.ok)).filterMap fun (p : Strip) =>
      let l := p.inTile (i / 64) (i % 64)
      if l.isEmpty then none else some (p.no, l.length)
  let firsts := (List.range (64 * W)).map fun i => sumL ((lists.take i).map (·.length))
  let E := sumL (lists.map (·.length))
  let hdr := leBytes 4 W ++ leBytes 4 E ++ leBytes 4 nStrips ++ leBytes 4 epoch ++ List.replicate 44 0
  padTo64 (hdr ++ leBytes 4 (crc32 hdr) ++
    ((lists.zip firsts).flatMap fun (l, f) => leBytes 4 f ++ leBytes 4 l.length ++ leBytes 4 (sumL (l.map (·.2))) ++ leBytes 4 0) ++
    lists.flatMap fun l => l.flatMap fun x => leBytes 4 x.1)

/-! ## Sources -/

/-- The source element of each destination element: (row, column, element read), all of them for a D source and the stored ones for a
sparse one, in row-major order of the destination (R119, R125). -/
def State.srcEnts (s : State) (k : Fin 8) (src : Tensor) (st : Struct) (v : View) (dst : Tensor) : List (Nat × Nat × Ent) :=
  match src.layout with
  | .d => (List.range dst.nr).flatMap fun r => (List.range dst.nc).map fun c =>
      (r, c, s.readAt src.fmt (s.slotS k src) (src.viewPlace v (c :: dst.outer r)))
  | _ => (sortKey ((s.readAll k src st).map fun e => (e.col + dst.nc * e.row, (e.row, e.col, e)))).map (·.2)

/-- Whether the source fits the destination's dense shape through the view (R119, R125). -/
def shapesFit (src : Tensor) (v : View) (dst : Tensor) : Bool :=
  match src.layout with
  | .d => src.viewOk v && (List.range 5).all fun i => src.viewDim v dst.size i == dst.dim i
  | _ => v.identity && src.nc == dst.nc && src.nr == dst.nr

/-- The step tag that RELAY writes in M16 blocks (R258). -/
def State.relayTag (s : State) (k : Fin 8) : Nat := (s.suites[k].step - 1).toNat % 2 ^ 24

/-- The conversion source of an element read (R119): a raw mark is a NaN source. -/
def State.relaySrc (s : State) (k : Fin 8) (src dst : Tensor) (e : Ent) (row col : Nat) : Src :=
  ⟨(s.scanEnt src e).1, false, s.rmode k dst (s.slotSR k dst) 7 (dst.lin row col)⟩

/-- Count the conversions of the groups of a build in the destination's slot, in the history entry of a step (R63, R73, R291). -/
def State.countPuts (s : State) (k : Fin 8) (t : Tensor) (step : Nat) (ps : List Put) : State :=
  (groupsOf ps).foldl (fun u g =>
    let (_, _, cnt, hist) := convGroup t.fmt (s.slotS k t) 0 (g.map (·.src))
    u.countConvAt k t cnt hist step) s

/-- M16 headers of the scale groups of an M4 or BK tensor that hold no element: the tag alone (R258). -/
def State.emptyTags (s : State) (t : Tensor) (tag : Nat) : State :=
  if t.fmt ≠ .m16 then s else
  let at_ := fun r m => match t.layout with
    | .m4 => 64 * t.base + r * (m4A t.fmt t.nc + m4V t.fmt t.nc) + 4 * m
    | _ => 64 * t.base + r * up64 (cdiv t.nc 32 * 4) + 4 * m
  if t.layout = .m4 ∨ t.layout = .bk then
    (List.range t.nr).foldl (fun u r => (List.range (cdiv t.nc 32)).foldl (fun w m => w.rawWrite (at_ r m) (leBytes 4 (256 * tag))) u) s
  else s

/-- Poison the whole scale group of each place that `bad` names, and what the skim region derives from it (R201). -/
def State.poisonGroups (s : State) (t : Tensor) (st : Struct) (bad : Place → Bool) : State :=
  let gs := ((st.places.filter bad).map fun (p : Place) => p.group).eraseDups
  let hit := fun (p : Place) => gs.contains p.group
  ((st.places.filter hit).foldl (fun u p => u.poisonPlace t.fmt p) s).poisonSkimOf t st hit

/-! ## Running a RELAY task -/

/-- The part's last status on each die of the task (R128). -/
def State.relayDone (s : State) (k : Fin 8) (t : Task) (st : Status) : State :=
  let u := s.finish k t.h st
  let c : BitVec 8 := match u.task? k t.h with | some x => BitVec.ofNat 8 x.status.code | none => 0
  (maskDies t.desc.dieMask).foldl (fun w d => w.modDie d fun x => { x with rly := { x.rly with lastStatus := c } }) u

/-- End a task from outside (R52, R128): a RELAY that runs leaves its status in its dies' RLY_STS. -/
def State.stopTask (s : State) (k : Fin 8) (t : Task) (st : Status) : State :=
  if t.desc.type = 3 ∧ t.state = .running then s.relayDone k t st else s.finish k t.h st

/-- Update the counters of the task's lowest die (R128; the split over dies is open, log 12). -/
def State.relayCount (s : State) (t : Task) (f : Relay → Relay) : State :=
  match maskDies t.desc.dieMask with
  | d :: _ => s.modDie d fun x => { x with rly := f x.rly }
  | [] => s

/-- Refuse a RELAY that does not run. -/
def State.relayRefuse (s : State) (k : Fin 8) (t : Task) (twin : Bool) (ids : List Nat) (st : Status) : State :=
  (s.refuse k t twin ids st).relayDone k t st

/-- The tasks that run beside a RELAY task and name a tensor in the regions that it writes, which software must not let happen (R122). -/
def State.intruders (s : State) (k : Fin 8) (t : Task) (writes : List (Nat × Nat)) : List Task :=
  s.suites[k].tasks.filter fun x => x.h != t.h && x.state == .running && anyMeet (s.taskRegions k x.desc) writes

/-- After a RELAY task has written its regions: where another task ran beside it that reads or writes them, their contents are free values,
and that task is marked, so that a RELAY among them leaves free values too when it writes (R122). -/
def State.afterBuild (s u : State) (k : Fin 8) (t : Task) (writes : List (Nat × Nat)) : State :=
  let others := s.intruders k t writes
  let v := others.foldl (fun w x => w.modTask k x.h fun y => { y with logged := (0xA2, 0) :: y.logged }) u
  if others.isEmpty && !t.logged.contains (0xA2, 0) then v else writes.foldl State.freeRegion v

/-- Checks common to the modes that write regions (R124, R126, R195, R316): every region in the suite's memory, no overlap, room in the
bound-region table. Runs `f` on the state with the binding propagated; what was accessed at the same time is left unspecified (R122). -/
def State.relayGuard (s : State) (k : Fin 8) (t : Task) (dst : Tensor) (reads writes : List (Nat × Nat)) (f : State → State) : State :=
  match (reads ++ writes).find? fun r => !s.regionOk k r.1 r.2 with
  | some r => ((s.taskMemError k t ((s.firstBad k r.1 r.2).getD r.1) 2 2).relayDone k t .accessDenied)
  | none =>
    if anyMeet reads writes then s.relayDone k t .overlap
    else match s.bindTo k reads writes [dst] with
      | none => (s.boundRefused k t dst.id 2).relayDone k t .accessDenied
      | some u => s.afterBuild (f u) k t writes

/-- What the checks of a RELAY mode find (R118 to R126): the state in which the task ends without its work; or the destination, the regions that
the work reads and writes, how the task ends where what it reads in them is refused, and the work. -/
inductive RelayPlan where
  | ends (s : State)
  | works (dst : Tensor) (reads writes : List (Nat × Nat)) (late : Option State) (run : State → State)

/-- Follow a plan: its work under the guard of its regions. -/
def State.runPlan (s : State) (k : Fin 8) (t : Task) : RelayPlan → State
  | .ends u => u
  | .works dst reads writes late run => s.relayGuard k t dst reads writes fun u => late.getD (run u)

/-- Commit built regions: clip to the capacities, mark an overflow, count and log it (R121). -/
def State.commitBuild (s built : State) (k : Fin 8) (t : Task) (dst : Tensor) (rs : List Region) : State :=
  let late := rs.filter (·.overflows)
  let s1 := rs.foldl (fun u r => u.writeRegion built r) s
  match late with
  | [] => s1
  | o :: _ =>
    let mask := sumL (late.map fun r => 2 ^ r.bit)
    let invert := fun (u : State) (unit cap : Nat) =>
      if cap = 0 then u else u.write (64 * unit + 0x3C) (leBytes 4 (0xFFFFFFFF ^^^ crc32 (u.bytes (64 * unit) 60)))
    let s2 := rs.foldl (fun u r => if r.bit = 2 ∧ r.overflows then invert u r.unit r.cap else u) s1
    let other := late.any fun r => r.bit != 2
    let icap := ((rs.find? fun r => r.bit == 1).map (·.cap)).getD 1
    let s3 := if dst.layout = .st then (if other then invert s2 dst.index icap else s2)
      else if other then rs.foldl (fun u r => u.poisonRegion r) s2 else s2
    let s4 := s3.formatEvent k t dst.id 5 mask o.need
    s4.relayCount t fun x => { x with cntCap := x.cntCap.satAdd 1 }

/-- The regions a build writes. -/
def buildRegions (dst : Tensor) (st : Struct) (index twin : Option (List Byte)) (vcap icap tcap : Nat) (skim : Bool) : List Region :=
  [{ unit := dst.base, cap := vcap, bit := 0, pieces := dst.basePieces st }] ++
  (match index with
   | some b => [{ unit := dst.index, cap := icap, bit := 1, pieces := [(dst.index, units b.length)] }]
   | none => []) ++
  (match twin with
   | some b => [{ unit := dst.twin, cap := tcap, bit := 2, pieces := [(dst.twin, units b.length)] }]
   | none => []) ++
  (if skim && dst.hasSkim then [{ unit := dst.skim, cap := vcap, bit := 3, pieces := [(dst.skim, units (dst.skimSize st))] }] else [])

/-- The NaN sources that log INVALID_INPUT of kind 3: those counted, and every mark of a raw-partial source (R63, R119). -/
def relayNans (raw : Bool) (dst : Tensor) (xs : List Src) : Nat :=
  if raw then (xs.filter fun x => x.v.isNan && !x.marked).length else nanSources dst xs

/-- Write converted elements and a structure into a destination: a scratch image, then the lines below the capacities; the counts of
R63; reports of NaN sources (of every mark, where the source is a raw partial); poison by R201. `pois` marks source elements read from
poisoned lines; with `whole` any of them poisons every region. -/
def State.buildOut (s : State) (k : Fin 8) (t : Task) (raw : Bool) (dst : Tensor) (st : Struct) (puts : List Put) (pois : List Place)
    (whole : Bool) (index twin : Option (List Byte)) (vcap icap tcap : Nat) (skim : Bool) : State :=
  let rs := buildRegions dst st index twin vcap icap tcap skim
  let tag := s.relayTag k
  let b1 := (s.zeroPieces rs).emptyTags dst tag
  let b2 := b1.putAll k dst (fun _ => tag) false puts
  let b3 := if skim then b2.writeSkim k dst st else b2
  let b4 := match index with | some b => b3.rawWrite (64 * dst.index) b | none => b3
  let b5 := match twin with | some b => b4.rawWrite (64 * dst.twin) b | none => b4
  let s1 := s.commitBuild b5 k t dst rs
  let s2 := (if t.recompute then s1 else s1.countPuts k dst s.suites[k].step.toNat puts).reportNan k t.h dst
    (relayNans raw dst (puts.map (·.src)))
  if pois.isEmpty then s2
  else if whole then rs.foldl (fun u r => u.poisonRegion r) s2
  else s2.poisonGroups dst st pois.contains

/-- The kept positions of an M4 group: the four of largest magnitude, equal magnitudes keeping the lower column (R120). -/
def trimGroup (l : List (Nat × Nat × Ent)) (val : Ent → Num) : List (Nat × Nat × Ent) :=
  let top := topK 4 (l.map fun x => (⟨x.2.1, val x.2.2⟩ : TopEnt))
  l.filter fun x => top.any fun e => e.pos == x.2.1

/-- Whether another tensor of the tensor set names this INDEX (R117, R412), a sparse one for its structure or a raw partial for its grid
record (R91). -/
def State.indexShared (s : State) (k : Fin 8) (t : Tensor) : Bool :=
  s.suites[k].tensSet.any fun id => id != t.id && (match s.tensor? k id with
    | some x => (x.layout != .d || x.fmt == .int32) && x.index == t.index
    | none => false)

/-- First poisoned line among regions, for the report of R201. -/
def State.poisonOf (s : State) (rs : List (Nat × Nat)) : Option Nat := s.poison.find? fun u => rs.any fun r => rangesMeet (u, 1) r

/-- Reports of a RELAY source: invalid elements and failing structures (R57, R124), then poison (R201). -/
def State.relayReports (s : State) (k : Fin 8) (t : Task) (src : Tensor) (st : Struct) (es : List Ent) (pois : Option Nat) : State :=
  let inv := invalidOf es
  let s1 := (s.reportInvalid k src es).addCount k t.h inv
  let s2 := if inv = 0 then s1 else s1.worsen k t.h .formatError
  let s3 := if st.bad = 0 then s2 else s2.formatEvent k t src.id src.layout.badKind 0 st.bad
  s3.reportAccess k t pois none

/-- STORE (R118 to R121, R415): convert into the destination's format and layout, building a new index for a sparse one. -/
def State.storePlan (s : State) (k : Fin 8) (t : Task) : RelayPlan :=
  let d := t.desc
  let flags := d.arg 12 1
  match s.tensor? k (d.tensor 0), s.tensor? k (d.tensor 1), parseView (d.arg 20 4) with
  | some src, some dst, some v =>
    match s.struct k src with
    | .error e => .ends (s.relayRefuse k t false [src.id] e.status)
    | .ok st0 =>
      let spois := s.structPoison src
      let st := if spois then Struct.empty else st0
      let twinOk := !bitOf flags 0 || (dst.layout == .st && dst.hasTwin && dst.twin != 0)
      if !twinOk || !dst.valid || dst.fmt == .int32 || !shapesFit src v dst || decide (8 < d.arg 13 1) ||
         !s.slotOk k src || !s.slotOk k dst || (dst.layout != .d && s.indexShared k dst) then .ends (s.relayRefuse k t false [] .formatError)
      else
        let ents := s.srcEnts k src st v dst
        let val := fun e => (s.scanEnt src e).1
        let nz := ents.filter fun x => !(val x.2.2).isZero
        let groups := (nz.map fun x => (x.1, x.2.1 / 16)).eraseDups
        let kept := if dst.layout = .m4 then groups.flatMap fun g => trimGroup (nz.filter fun x => x.1 == g.1 && x.2.1 / 16 == g.2) val else nz
        let trimmed := nz.length - kept.length
        let pos := kept.map fun x => (x.1, x.2.1)
        let built : Built := match dst.layout with
          | .d => ⟨dst.dStruct, []⟩
          | .st => buildSt dst pos (d.arg 13 1) (d.arg 14 4) false
          | .m4 => buildM4 dst pos
          | .bk => buildBk dst pos
        let twin := if bitOf flags 0 then some (twinBytes dst.nc built.st.epoch built.st.nStrips built.st.strips) else none
        let index := if dst.layout = .d then none else some built.index
        let reads := s.regions src st |>.take 2
        let writes := [(dst.base, if dst.layout = .d then units (dst.extent 4) else d.arg 0 4)] ++
          (if index.isSome then [(dst.index, d.arg 4 4)] else []) ++ (if twin.isSome then [(dst.twin, d.arg 8 4)] else []) ++
          (if dst.hasSkim then [(dst.skim, if dst.layout = .d then units (dst.skimSize built.st) else d.arg 0 4)] else [])
        .works dst reads writes none fun u =>
          let look := fun (p : Place) => (ents.find? fun x => x.1 == p.row && x.2.1 == p.col).map (·.2.2)
          let puts := built.st.places.map fun (p : Place) =>
            ({ place := p, src := match look p with
                | some e => s.relaySrc k src dst e p.row p.col
                | none => ⟨.zero, false, .rne⟩ } : Put)
          let bad := (ents.filter fun x => x.2.2.pois).length
          let pois := if spois then built.st.places else built.st.places.filter fun (p : Place) => match look p with
            | some e => e.pois | none => false
          let any := spois || bad != 0
          let u1 := u.buildOut k t (src.fmt == .int32) dst built.st puts (if any && pois.isEmpty then [⟨0, 0, 0, 0, 0, 0⟩] else pois) (dst.layout != .d)
            index twin (d.arg 0 4) (d.arg 4 4) (d.arg 8 4) true
          let u2 := if trimmed = 0 then u1 else
            (u1.formatEvent k t dst.id 2 0 trimmed (bitOf flags 1)).relayCount t fun x => { x with cntTrim := x.cntTrim.satAdd trimmed }
          (u2.relayReports k t src st (ents.map (·.2.2)) (if any then some ((s.poisonOf reads).getD 0) else none)).relayDone k t .done
  | _, _, _ => .ends (s.relayRefuse k t false [] .formatError)

/-- STORE: its plan is followed. -/
def State.relayStore (s : State) (k : Fin 8) (t : Task) : State := s.runPlan k t (s.storePlan k t)

/-- STORE as a command: its effect on a started task (R118 to R121, R415). -/
def execRelayStore (k : Fin 8) (h : Nat) (s : State) : Out :=
  .next (s.runTask k h 3 0 fun u t => u.relayStore k t)

/-- STORE_VALUES (R118, R119, R415): values into the positions that the destination's index holds, or into every position of a D
destination. Source values at other positions are dropped. -/
def State.valuesPlan (s : State) (k : Fin 8) (t : Task) : RelayPlan :=
  let d := t.desc
  match s.tensor? k (d.tensor 0), s.tensor? k (d.tensor 1), parseView (d.arg 20 4) with
  | some src, some dst, some v =>
    match s.struct k src, (if dst.layout = .d then .ok dst.dStruct else s.struct k dst) with
    | .error e, _ => .ends (s.relayRefuse k t false [src.id] e.status)
    | _, .error e => .ends (s.relayRefuse k t false [dst.id] e.status)
    | .ok st0, .ok dt0 =>
      let spois := s.structPoison src
      let dpois := s.structPoison dst
      let st := if spois then Struct.empty else st0
      let dt := if dpois then Struct.empty else dt0
      if !dst.valid || dst.fmt == .int32 || !shapesFit src v dst || !s.slotOk k src || !s.slotOk k dst then
        .ends (s.relayRefuse k t false [] .formatError)
      else
        let ents := s.srcEnts k src st v dst
        let look := fun (p : Place) => (ents.find? fun x => x.1 == p.row && x.2.1 == p.col).map (·.2.2)
        let reads := (s.regions src st |>.take 2) ++ (if dst.layout = .d then [] else [(dst.index, s.indexUnits dst dt0)])
        let writes := [(dst.base, if dst.layout = .d then units (dst.extent 4) else d.arg 0 4)] ++
          (if dst.hasSkim then [(dst.skim, if dst.layout = .d then units (dst.skimSize dt0) else d.arg 0 4)] else [])
        .works dst reads writes none fun u =>
          let puts := dt.places.map fun (p : Place) =>
            ({ place := p, src := match look p with
                | some e => s.relaySrc k src dst e p.row p.col
                | none => ⟨.zero, false, .rne⟩ } : Put)
          let pois := if spois || dpois then dt0.places else dt.places.filter fun (p : Place) => match look p with
            | some e => e.pois | none => false
          let used := ents.filter fun x => dt.places.any fun (p : Place) => p.row == x.1 && p.col == x.2.1
          let any := spois || dpois || used.any fun x => x.2.2.pois
          let u1 := u.buildOut k t (src.fmt == .int32) dst dt0 puts pois false none none (d.arg 0 4) 0 0 true
          let u2 := if dt0.bad = 0 then u1 else u1.formatEvent k t dst.id dst.layout.badKind 0 dt0.bad
          (u2.relayReports k t src st (ents.map (·.2.2)) (if any then some ((s.poisonOf reads).getD 0) else none)).relayDone k t .done
  | _, _, _ => .ends (s.relayRefuse k t false [] .formatError)

/-- STORE_VALUES: its plan is followed. -/
def State.relayStoreValues (s : State) (k : Fin 8) (t : Task) : State := s.runPlan k t (s.valuesPlan k t)

/-- STORE_VALUES as a command: its effect on a started task (R118, R119, R415). -/
def execRelayStoreValues (k : Fin 8) (h : Nat) (s : State) : Out :=
  .next (s.runTask k h 3 1 fun u t => u.relayStoreValues k t)

/-- Elements of an INT32 list in the order of R66, with the poison of their lines. -/
def State.intList (s : State) (t : Tensor) : List (Int × Bool) :=
  t.dStruct.places.map fun (p : Place) =>
    let e := s.readAt .int32 0 p
    (if e.pois then 0 else signed 32 e.code, e.pois)

/-- ONEHOT (R118, R123): a one-hot ST tensor from an index list and bag offsets. -/
def State.onehotPlan (s : State) (k : Fin 8) (t : Task) : RelayPlan :=
  let d := t.desc
  let flags := d.arg 12 1
  let offT := if d.tensor 2 = 0xFFFF then some none else (s.tensor? k (d.tensor 2)).map some
  match s.tensor? k (d.tensor 0), s.tensor? k (d.tensor 1), offT with
  | some src, some dst, some off =>
    let listOk := fun (x : Tensor) => x.fmt == .int32 && x.layout == .d && x.valid
    let nb := match off with | none => src.elems | some o => o.elems - 1
    let twinOk := !bitOf flags 0 || (dst.hasTwin && dst.twin != 0)
    if !listOk src || !(match off with | none => true | some o => listOk o) || dst.layout != .st || !dst.valid || dst.fmt == .int32 ||
       dst.slot != 0xFFFF || nb != dst.nr || !twinOk || decide (8 < d.arg 13 1) || s.indexShared k dst then
      .ends (s.relayRefuse k t false [] .formatError)
    else
      let reads := (src.base, units (src.extent 4)) :: (match off with | none => [] | some o => [(o.base, units (o.extent 4))])
      let writes := [(dst.base, d.arg 0 4), (dst.index, d.arg 4 4)] ++ (if bitOf flags 0 then [(dst.twin, d.arg 8 4)] else [])
      let idx := s.intList src
      let offs := match off with
        | none => (List.range (nb + 1)).map fun (i : Nat) => (Int.ofNat i, false)
        | some o => s.intList o
      let os := offs.map fun x => x.1.toNat
      let offBad := (offs.any fun x => decide (x.1 < 0)) || os.head? != some 0 || !nondec os || os.getLastD 0 != idx.length
      let late := if offBad then some ((s.formatEvent k t ((off.map (·.id)).getD 0xFFFF) 8 0 1).relayRefuse k t false [] .formatError) else none
      .works dst reads writes late fun u =>
        let bags := (List.range nb).map fun b => ((idx.drop (os.getD b 0)).take (os.getD (b + 1) 0 - os.getD b 0)).map (·.1)
        let badIx := fun (i : Int) => decide (i < 0) || decide ((dst.nc : Int) ≤ i)
        let neg := (idx.filter fun x => decide (x.1 < 0)).length
        let big := (idx.filter fun x => decide ((dst.nc : Int) ≤ x.1)).length
        let rows := bags.map fun b => if b.any badIx then [] else
          ((sortKey ((b.map fun (i : Int) => i.toNat).eraseDups.map fun c => (c, (b.filter fun i => i == (c : Int)).length))))
        let pos := (rows.zipIdx).flatMap fun (l, r) => l.map fun x => (r, x.1)
        let built := buildSt dst pos (d.arg 13 1) 0 true
        let mult := fun (p : Place) => ((rows.getD p.row []).find? fun x => x.1 == p.col).map (·.2)
        let puts := built.st.places.map fun (p : Place) =>
          ({ place := p, src := ⟨.fin false ((mult p).getD 0) 0, false, .rne⟩ } : Put)
        let twin := if bitOf flags 0 then some (twinBytes dst.nc built.st.epoch built.st.nStrips built.st.strips) else none
        let any := idx.any (·.2) || offs.any (·.2)
        let u1 := u.buildOut k t false dst built.st puts (if any then [⟨0, 0, 0, 0, 0, 0⟩] else []) true (some built.index) twin
          (d.arg 0 4) (d.arg 4 4) (d.arg 8 4) false
        let u2 := if neg = 0 then u1 else u1.formatEvent k t src.id 0 0 neg
        let u3 := if big = 0 then u2 else u2.formatEvent k t src.id 1 0 big
        let u4 := u3.relayCount t fun x => { x with cntIndex := x.cntIndex.satAdd (neg + big) }
        (u4.reportAccess k t (if any then some ((s.poisonOf reads).getD 0) else none) none).relayDone k t .done
  | _, _, _ => .ends (s.relayRefuse k t false [] .formatError)

/-- ONEHOT: its plan is followed. -/
def State.relayOnehot (s : State) (k : Fin 8) (t : Task) : State := s.runPlan k t (s.onehotPlan k t)

/-- ONEHOT as a command: its effect on a started task (R118, R123). -/
def execRelayOnehot (k : Fin 8) (h : Nat) (s : State) : Out :=
  .next (s.runTask k h 3 2 fun u t => u.relayOnehot k t)

/-- Copy row records verbatim, poisoning each line copied from a poisoned one; an M16 block takes the RELAY tag (R258, R415). -/
def State.copyRows (s : State) (k : Fin 8) (src dst : Tensor) : State :=
  let n := dRecord dst.fmt dst.nc
  let tag := s.relayTag k
  (List.range dst.nr).foldl (fun u r =>
    let a := src.rowAddr (src.outer r)
    let b := dst.rowAddr (dst.outer r)
    let clean := (List.range (n / 64)).flatMap fun i => if s.poisoned (a / 64 + i) then List.replicate 64 0 else s.bytes (a + 64 * i) 64
    let u1 := u.write b clean
    let u2 := if dst.fmt = .m16 then
        (List.range (cdiv dst.nc 32)).foldl (fun w m => w.write (b + 4 * m + 1) (leBytes 3 tag)) u1 else u1
    (List.range (n / 64)).foldl (fun w i => if s.poisoned (a / 64 + i) then w.poisonLine (b / 64 + i) else w) u2) s

/-- COPY (R118, R126, R415): re-lay D to D, verbatim or converting. -/
def State.copyPlan (s : State) (k : Fin 8) (t : Task) : RelayPlan :=
  let d := t.desc
  match s.tensor? k (d.tensor 0), s.tensor? k (d.tensor 1), parseView (d.arg 20 4) with
  | some src, some dst, some v =>
    if src.layout != .d || dst.layout != .d || !src.valid || !dst.valid || !s.slotOk k src || !s.slotOk k dst then
      .ends (s.relayRefuse k t false [] .formatError)
    else if v.identity && { src with id := 0, at_ := 0 } == { dst with id := 0, at_ := 0 } then .ends (s.relayDone k t .done)
    else
      let int := src.fmt == .int32 || dst.fmt == .int32
      let same := v.identity && (List.range 5).all (fun i => src.dim i == dst.dim i)
      if (int && !(same && src.fmt == dst.fmt)) || !shapesFit src v dst then .ends (s.relayRefuse k t false [] .formatError)
      else
        let grid := if int then [(src.index, units src.gridBytes)] else []
        let reads := (src.base, units (src.extent 4)) :: grid
        let writes := (dst.base, units (dst.extent 4)) :: (if int then [(dst.index, units dst.gridBytes)] else []) ++
          (if dst.hasSkim then [(dst.skim, units (dst.skimSize dst.dStruct))] else [])
        .works dst reads writes none fun u =>
          if same && src.fmt == dst.fmt && (int || s.slotS k src == s.slotS k dst) then
            let u1 := u.copyRows k src dst
            let gp := int && s.poisonIn (64 * src.index) src.gridBytes
            let u2 := if int then
                (let w := u1.write (64 * dst.index) (if gp then List.replicate src.gridBytes 0 else s.bytes (64 * src.index) src.gridBytes)
                 if gp then w.poisonRange (64 * dst.index) dst.gridBytes else w) else u1
            let bad := src.dStruct.places.filter fun (p : Place) => (s.readAt src.fmt 0 p).pois
            let isBad := fun (p : Place) => bad.any fun (q : Place) => q.row == p.row && q.col == p.col
            let u3 := (u2.writeSkim k dst dst.dStruct).poisonGroups dst dst.dStruct isBad
            (u3.reportAccess k t (if bad.isEmpty && !gp then none else some ((s.poisonOf reads).getD 0)) none).relayDone k t .done
          else
            let ents := s.srcEnts k src src.dStruct v dst
            let puts := (dst.dStruct.places.zip ents).map fun (x : Place × Nat × Nat × Ent) =>
              ({ place := x.1, src := s.relaySrc k src dst x.2.2.2 x.1.row x.1.col } : Put)
            let pois := ((dst.dStruct.places.zip ents).filter fun (x : Place × Nat × Nat × Ent) => x.2.2.2.pois).map (·.1)
            let u1 := u.buildOut k t false dst dst.dStruct puts pois false none none (2 ^ 40) 0 0 true
            (u1.relayReports k t src src.dStruct (ents.map (·.2.2)) (if pois.isEmpty then none else some ((s.poisonOf reads).getD 0))).relayDone
              k t .done
  | _, _, _ => .ends (s.relayRefuse k t false [] .formatError)

/-- COPY: its plan is followed. -/
def State.relayCopy (s : State) (k : Fin 8) (t : Task) : State := s.runPlan k t (s.copyPlan k t)

/-- COPY as a command: its effect on a started task (R118, R126, R415). -/
def execRelayCopy (k : Fin 8) (h : Nat) (s : State) : Out :=
  .next (s.runTask k h 3 3 fun u t => u.relayCopy k t)

/-- The regions of a host image, in image order, zero sizes left out: (unit, units, image offset in units) (R118). -/
def hostRegions (x : Tensor) (d : TaskDesc) : List (Nat × Nat × Nat) :=
  let sz := [d.arg 16 4, d.arg 20 4, d.arg 24 4, d.arg 28 4]
  (([x.base, x.index, x.twin, x.skim].zip sz).zipIdx.map fun (p, i) => (p.1, p.2, sumL (sz.take i))).filter fun r => r.2.1 != 0

/-- HOST_IN (R118, R127, R317): an image from host memory into the destination's regions, verbatim. -/
def State.hostInPlan (s : State) (k : Fin 8) (t : Task) (bytes : List Byte) : RelayPlan :=
  match s.tensor? k (t.desc.tensor 1) with
  | none => .ends (s.relayRefuse k t false [] .formatError)
  | some dst =>
    let rs := hostRegions dst t.desc
    let ws := rs.map fun r => (r.1, r.2.1)
    if dst.bound || (s.suites[k].boundSet ws).isSome then .ends ((s.boundRefused k t dst.id 0).relayDone k t .accessDenied)
    else .works dst [] ws none fun u =>
      (rs.foldl (fun w r =>
        let bs := (bytes.drop (64 * r.2.2)).take (64 * r.2.1)
        w.write (64 * r.1) (bs ++ List.replicate (64 * r.2.1 - bs.length) 0)) u).relayDone k t .done

/-- HOST_IN: its plan is followed. -/
def State.relayHostIn (s : State) (k : Fin 8) (t : Task) (bytes : List Byte) : State := s.runPlan k t (s.hostInPlan k t bytes)

/-- HOST_IN as a command: its effect on a started task (R118, R127, R317). -/
def execRelayHostIn (k : Fin 8) (h : Nat) (bytes : List Byte) (s : State) : Out :=
  .next (s.runTask k h 3 4 fun u t => u.relayHostIn k t bytes)

/-- HOST_OUT (R118, R127, R202, R317): the source's regions to host memory; zeros for poisoned lines. -/
def State.hostOutPlan (s : State) (k : Fin 8) (t : Task) : RelayPlan :=
  match s.tensor? k (t.desc.tensor 0) with
  | none => .ends (s.relayRefuse k t false [] .formatError)
  | some src =>
    let rs := hostRegions src t.desc
    let us := rs.map fun r => (r.1, r.2.1)
    if src.bound || (s.suites[k].boundSet us).isSome then .ends ((s.boundRefused k t src.id 0).relayDone k t .accessDenied)
    else .works src us [] none fun u =>
      let u1 := rs.foldl (fun w r => (List.range r.2.1).foldl (fun z i =>
        z.hostWrite (t.desc.arg 0 8 + 64 * (r.2.2 + i)) (if s.poisoned (r.1 + i) then List.replicate 64 0 else s.bytes (64 * (r.1 + i)) 64)) w) u
      (u1.reportAccess k t (s.poisonOf us) none).relayDone k t .done

/-- HOST_OUT: its plan is followed. -/
def State.relayHostOut (s : State) (k : Fin 8) (t : Task) : State := s.runPlan k t (s.hostOutPlan k t)

/-- HOST_OUT as a command: its effect on a started task (R118, R127, R202, R317). -/
def execRelayHostOut (k : Fin 8) (h : Nat) (s : State) : Out :=
  .next (s.runTask k h 3 5 fun u t => u.relayHostOut k t)

/-- CHECK (R118, R124): every structure of the source read in full; COUNT is the number of failing strips, groups and twin lists. -/
def State.relayCheck (s : State) (k : Fin 8) (t : Task) : State :=
  match s.tensor? k (t.desc.tensor 0) with
  | none => s.relayRefuse k t false [] .formatError
  | some src =>
    match s.struct k src with
    | .error e => s.relayRefuse k t false [src.id] e.status
    | .ok st =>
      let twin := if src.layout = .st ∧ src.hasTwin then s.twin k src st else .ok []
      match twin with
      | .error e => s.relayRefuse k t true [src.id] e.status
      | .ok ls =>
        let lists := (ls.filter fun l => !l.ok st.strips).length
        let s1 := if st.bad = 0 then s else s.formatEvent k t src.id src.layout.badKind 0 st.bad
        let s2 := if lists = 0 then s1 else s1.formatEvent k t src.id 6 0 lists
        let rs := (s.regions src st).drop 1 |>.take 2
        (s2.reportAccess k t (if src.layout = .d then none else s.poisonOf rs) none).relayDone k t .done

/-- CHECK as a command: its effect on a started task (R118, R124). -/
def execRelayCheck (k : Fin 8) (h : Nat) (s : State) : Out :=
  .next (s.runTask k h 3 6 fun u t => u.relayCheck k t)

/-- TWIN (R115, R118, R415): the twin index of an ST source into the destination's TWIN. -/
def State.twinPlan (s : State) (k : Fin 8) (t : Task) : RelayPlan :=
  match s.tensor? k (t.desc.tensor 0), s.tensor? k (t.desc.tensor 1) with
  | some src, some dst =>
    match s.struct k src with
    | .error e => .ends (s.relayRefuse k t false [src.id] e.status)
    | .ok st =>
      if src.layout != .st || dst.layout != .st || !dst.valid || !dst.hasTwin || dst.twin == 0 then .ends (s.relayRefuse k t false [] .formatError)
      else
        let cap := t.desc.arg 8 4
        let reads := [(src.index, s.indexUnits src st)]
        .works dst reads [(dst.twin, cap)] none fun u =>
          let bs := twinBytes src.nc st.epoch st.nStrips st.strips
          let r : Region := { unit := dst.twin, cap := cap, bit := 2, pieces := [(dst.twin, units bs.length)] }
          let u1 := u.commitBuild (u.rawWrite (64 * dst.twin) bs) k t dst [r]
          let u2 := if st.bad = 0 then u1 else u1.formatEvent k t src.id src.layout.badKind 0 st.bad
          let p := s.structPoison src
          let u3 := if p then u2.poisonRegion r else u2
          (u3.reportAccess k t (if p then some ((s.poisonOf reads).getD 0) else none) none).relayDone k t .done
  | _, _ => .ends (s.relayRefuse k t false [] .formatError)

/-- TWIN: its plan is followed. -/
def State.relayTwin (s : State) (k : Fin 8) (t : Task) : State := s.runPlan k t (s.twinPlan k t)

/-- TWIN as a command: its effect on a started task (R115, R118, R415). -/
def execRelayTwin (k : Fin 8) (h : Nat) (s : State) : Out :=
  .next (s.runTask k h 3 7 fun u t => u.relayTwin k t)

end Sys2Proof.Machine
end

