-- ==== Sys2Proof/Machine/Exchange.lean ====
section
/-! DEFINITION. EXCHANGE (R238 to R245): exact reductions over the members' contributions, gathers, transfers with a peer, the norm
accumulators, and group definition. -/

namespace Sys2Proof.Machine

/-! ## Groups and peers -/

/-- The peer table index of a suite's peer at a coordinate (R306). -/
def Suite.peerIdx (u : Suite) (coord : List Nat) (suite : Nat) : Option Nat := u.peers.findIdx? fun p => p.coord == coord && p.suite == suite

/-- Whether every receiver's authenticated device key is in a binding set (R307, R317). -/
def State.receiversIn (s : State) (k : Fin 8) (set : List Byte) (coords : List (List Nat)) : Bool :=
  let u := s.suites[k]
  match u.sets.find? fun b => b.digest == set with
  | none => false
  | some b => coords.all fun c => match u.peerIdx c k.val with
    | none => false
    | some i => (u.pairs.any fun p => p.peer == i) && (match u.peers[i]? with | some p => b.keys.contains p.digest | none => false)

/-- Count the frames that carry `n` bytes to a peer under the pair's epoch (R220, R308). -/
def State.sentTo (s : State) (k : Fin 8) (coord : List Nat) (n : Nat) : State :=
  s.modSuite k fun u =>
    match u.peerIdx coord k.val with
    | none => u
    | some i => { u with pairs := u.pairs.map fun p => if p.peer = i then { p with sent := p.sent + cdiv n 4096 } else p }

/-- The PEER field (R238). -/
def TaskDesc.peer (d : TaskDesc) : List Nat := (List.range 4).map fun i => d.arg (4 + i) 1

/-- The place of an EXCHANGE among those of the step that name its group (R238), which frames carry as the task sequence, and the count with it. -/
def Suite.nextSeq (u : Suite) (g : Nat) : Nat × Suite :=
  let n := sget 0 u.groupSeq g + 1
  (n, { u with groupSeq := sput 0 u.groupSeq g n })

/-- Run an EXCHANGE over a defined group; FORMAT_ERROR otherwise (log 14). -/
def State.withGroup (s : State) (k : Fin 8) (t : Task) (f : State → Group → State) : State :=
  match s.suites[k].group? (t.desc.arg 0 2) with
  | none => s.finish k t.h .formatError
  | some g => f s g

/-- Run an EXCHANGE with the member PEER of a group (R231, R238): FORMAT_ERROR where PEER is no other member. DESIGN CHOICE, log 14. -/
def State.withPeer (s : State) (k : Fin 8) (t : Task) (f : State → State) : State :=
  s.withGroup k t fun u g => if (u.others g).contains t.desc.peer then f u else u.finish k t.h .formatError

/-! ## The stages of a reduction (R239, R240; the cut into whole chunks is the model's, log 65) -/

/-- Elements of a chunk (R240). -/
def chunkLen : Nat := 1024

/-- Part `j` of the `n` contiguous parts of a list; the earlier parts are the longer ones. -/
def part (l : List Nat) (n j : Nat) : List Nat :=
  let q := l.length / n
  let r := l.length % n
  (l.drop (q * j + min r j)).take (if j < r then q + 1 else q)

/-- The two halves of a stage's data: the first travels +, the second − (R239). -/
def half (plus : Bool) (l : List Nat) : List Nat := if plus then l.take (cdiv l.length 2) else l.drop (cdiv l.length 2)

/-- This module's number in the ring of a dimension, counted in the direction of travel (R239). -/
def State.ringPos (s : State) (dim : Nat) (plus : Bool) : Nat :=
  let n := max 1 (s.torus dim)
  if plus then s.coord dim % n else (n - s.coord dim % n) % n

/-- The dimensions that a group's ring stages take, in ascending order: a dimension of size 1 needs none. -/
def State.ringDims (s : State) (g : Group) : List Nat := (List.range 4).filter fun i => g.dims.getLsbD i && decide (1 < s.torus i)

/-- What a ring stage over a dimension leaves complete at this member, of the data `l` (R239): segment i + 1 of each half. -/
def State.ringKeep (s : State) (dim : Nat) (l : List Nat) : List Nat :=
  [true, false].flatMap fun plus => part (half plus l) (s.torus dim) ((s.ringPos dim plus + 1) % s.torus dim)

/-- The chunks of a die's part after the ring stages of some dimensions. -/
def State.shareAfter (s : State) (dims : List Nat) (l : List Nat) : List Nat := dims.foldl (fun a i => s.ringKeep i a) l

/-- The die stage (R239): each die of the group with its part of the chunks. -/
def dieParts (g : Group) (chunks : Nat) : List (Fin 8 × List Nat) :=
  (maskDies g.dies).zipIdx.map fun x => (x.1, part (List.range chunks) (maskDies g.dies).length x.2)

/-- The die of a group that carries a chunk of die `d`'s part in the ring of a dimension: itself where it holds the dimension's ports, else the
group's dies that do, in turn by chunk index (R227, R239). -/
def carrierOf (g : Group) (dim : Nat) (d : Fin 8) (chunk : Nat) : Fin 8 :=
  let cs := (maskDies g.dies).filter fun x => x.val / 2 == dim
  if cs.contains d ∨ cs = [] then d else cs.getD (chunk % cs.length) d

/-- The chunks whose final reducer is this member, each with its die (R239). -/
def State.finalShare (s : State) (g : Group) (chunks : Nat) : List (Fin 8 × Nat) :=
  (dieParts g chunks).flatMap fun x => (s.shareAfter (s.ringDims g) x.2).map fun c =>
    (match (s.ringDims g).getLast? with | some i => carrierOf g i x.1 c | none => x.1, c)

/-- One element's exact total: sum, mark, whether a contribution lies on another grid, whether this member's own is poisoned, and its grid. -/
structure Total where
  v : Int
  marked : Bool
  clash : Bool
  pois : Bool
  g : Int
  deriving DecidableEq, Repr

/-- A word as a raw partial: value and mark (R90). -/
def rawWord (w : Nat) : Int × Bool := if w = 0x80000000 then (0, true) else (signed 32 w, false)

/-- Add what another member's running sum holds of an element (R241): a mark, and a grid that differs (R92), mark it. -/
def Total.join (x : Total) (v : Int) (marked : Bool) (g : Int) : Total :=
  { x with v := x.v + v, marked := x.marked || marked || g != x.g, clash := x.clash || g != x.g }

/-- This member's own raw partials, in the order of R66. -/
def State.ownTotals (s : State) (t : Tensor) : List Total :=
  t.dStruct.places.map fun p =>
    let e := s.readAt .int32 0 p
    let own := rawWord (if e.pois then 0 else e.code)
    { v := own.1, marked := own.2, clash := false, pois := e.pois, g := s.gridByte t (t.tileNo p.row p.col) }

/-- Whether a record is the chunk named. -/
def ExchChunk.named (x : ExchChunk) (group seq stage step chunk : Nat) : Bool :=
  x.group == group && x.seq == seq && x.stage == stage && x.step == step && x.chunk == chunk

/-- Add a received chunk to the elements of that chunk. -/
def joinChunk (x : ExchChunk) (l : List Total) : List Total :=
  l.zipIdx.map fun y => y.1.join (x.sums.getD y.2 0) (x.marks.getD y.2 false) (x.grids.getD y.2 y.1.g)

/-- What a reduction works on: its group and sequence, its chunks, and this member's own partials. -/
structure Reduce where
  g : Group
  seq : Nat
  chunks : Nat
  own : List Total
  deriving DecidableEq, Repr

/-- The elements of a chunk. -/
def Reduce.elems (r : Reduce) (c : Nat) : List Total := (r.own.drop (chunkLen * c)).take chunkLen

/-- The record that a member's frames have brought of a chunk in a stage and step. -/
def State.arrived? (s : State) (k : Fin 8) (r : Reduce) (stage step c : Nat) : Option ExchChunk :=
  s.suites[k].chunks.find? fun x => x.named r.g.id r.seq stage step c

/-- The sums of a chunk before ring stage `n` (stages count from 1, the die stage being 0): this member's own, with what the last step of each
stage before brought; none while one is missing. -/
def State.stageIn (s : State) (k : Fin 8) (r : Reduce) (n c : Nat) : Option (List Total) :=
  (((s.ringDims r.g).take (n - 1)).zipIdx).foldl (fun acc x => match acc with
    | none => none
    | some l => (s.arrived? k r (x.2 + 1) (s.torus x.1 - 2) c).map fun y => joinChunk y l) (some (r.elems c))

/-- The total of a chunk at this member (R239, R241): where it is the final reducer, from the reduce stages; else as a gather stage brought it. -/
def State.chunkTotal (s : State) (k : Fin 8) (r : Reduce) (c : Nat) : Option (List Total) :=
  let n := (s.ringDims r.g).length
  if ((s.finalShare r.g r.chunks).map (·.2)).contains c then s.stageIn k r (n + 1) c
  else (s.suites[k].chunks.find? fun x => x.group == r.g.id && x.seq == r.seq && decide (n < x.stage) && x.chunk == c).map fun y =>
    joinChunk y ((r.elems c).map fun x => { x with v := 0, marked := false })

/-- The totals of the chunks that a mode wants, each element with its number and, at its final reducer, its die: all for ALLREDUCE, else this member's
own share (R238). None while one is missing. -/
def State.totals (s : State) (k : Fin 8) (r : Reduce) (all : Bool) : Option (List (Nat × Option (Fin 8) × Total)) :=
  let mine := s.finalShare r.g r.chunks
  ((List.range r.chunks).filter fun c => all || (mine.map (·.2)).contains c).foldl (fun acc c => match acc, s.chunkTotal k r c with
    | some l, some ts => some (l ++ ts.zipIdx.map fun y => (chunkLen * c + y.2, (mine.find? fun x => x.2 == c).map (·.1), y.1))
    | _, _ => none) (some [])

/-- The direction in which a chunk of a ring stage travels, and the die of whose part it is; none where the stage does not move it. In gather stage
n + i the ring of reduce stage n + 1 − i gives back what it took. -/
def State.chunkWay (s : State) (r : Reduce) (stage step c : Nat) : Option (Nat × Fin 8 × Bool) :=
  let dims := s.ringDims r.g
  let n := dims.length
  let i := if stage ≤ n then stage else 2 * n + 1 - stage
  match dims[i - 1]? with
  | none => none
  | some dim =>
    if stage = 0 ∨ 2 * n < stage ∨ s.torus dim ≤ step + 1 then none
    else
      let P := s.torus dim
      ((dieParts r.g r.chunks).flatMap fun x => [true, false].map fun plus => (x, plus)).findSome? fun y =>
        let data := half y.2 (s.shareAfter (dims.take (i - 1)) y.1.2)
        let pos := s.ringPos dim y.2
        let seg := if stage ≤ n then (pos + P - step % P) % P else (pos + 1 + P - step % P) % P
        if (part data P seg).contains c then some (dim, y.1.1, y.2) else none

/-- Whether this member holds what a chunk's frame carries (R239): in step 0 its own sum, later the running sum that came in the step before; in a gather
stage the total. -/
def State.sendable (s : State) (k : Fin 8) (r : Reduce) (stage step c : Nat) : Bool :=
  (s.chunkWay r stage step c).isSome &&
  (if (s.ringDims r.g).length < stage then (s.chunkTotal k r c).isSome
   else (s.stageIn k r stage c).isSome && (step == 0 || (s.arrived? k r stage (step - 1) c).isSome))

/-- The running sums that a chunk's frame carries. -/
def State.runningSum (s : State) (k : Fin 8) (r : Reduce) (stage step c : Nat) : List Total :=
  if (s.ringDims r.g).length < stage then (s.chunkTotal k r c).getD []
  else
    let l := (s.stageIn k r stage c).getD []
    if step = 0 then l else match s.arrived? k r stage (step - 1) c with | some y => joinChunk y l | none => l

/-- Whether a chunk is followed by an EXCH_CARRY frame (R240). -/
def needsCarry (l : List Total) : Bool := l.any fun x => decide (x.v < -(2 ^ 31)) || decide (2 ^ 31 - 1 < x.v)

/-- The reduction of a running EXCHANGE task, where it is one. -/
def State.reduceOf (s : State) (k : Fin 8) (t : Task) : Option Reduce :=
  if t.desc.type ≠ 4 ∨ 2 ≤ t.desc.mode then none
  else match s.suites[k].group? (t.desc.arg 0 2), s.tensor? k (t.desc.tensor 0) with
    | some g, some src => if src.fmt == .int32 && src.layout == .d && src.valid then
        some { g := g, seq := t.seq, chunks := cdiv (src.nr * src.nc) chunkLen, own := s.ownTotals src } else none
    | _, _ => none

/-! ## Reductions (R239 to R241, R244) -/

/-- The word a total is written as (R241). -/
def Total.raw (x : Total) : Nat := if x.marked then rawMark else partRaw x.v

/-- Whether the written total is marked (R241). -/
def Total.out (x : Total) : Bool := x.raw == rawMark

/-- The exact value of a total; of one that a contribution marked, only a sign, which no rule gives (log 61). -/
def Total.value (x : Total) (at_ : Nat) : Num :=
  if x.marked then .fin (Config.mergeSign at_) 1 x.g else .ofInt x.v x.g

/-- Add an element to a norm accumulator: 640 bits, bit 0 weighing 2^−256 (R244). -/
def normAdd (acc : Nat × Bool) (x : Total) : Nat × Bool :=
  if x.marked then (acc.1, true)
  else
    let v := acc.1 + x.v.natAbs ^ 2 * 2 ^ (2 * x.g + 256).toNat
    if 2 ^ 640 ≤ v then (2 ^ 640 - 1, true) else (v, acc.2)

/-- Enter each element whose final reducer is a die of this member in that die's norm accumulator (R244). -/
def State.normEnter (s : State) (k : Fin 8) (ts : List (Nat × Option (Fin 8) × Total)) : State :=
  (List.finRange 8).foldl (fun u d => u.modDie d fun x =>
    let r := (ts.filter fun y => y.2.1 == some d).foldl (fun a y => normAdd a y.2.2) (x.norm[k], x.normSat[k])
    { x with norm := x.norm.set k r.1, normSat := x.normSat.set k r.2 }) s

/-- The regions of a raw-partial tensor: values and grid record. -/
def Tensor.rawRegions (t : Tensor) : List (Nat × Nat) := [(t.base, units (t.extent 4)), (t.index, units t.gridBytes)]

/-- Write totals, with the grid record, into a raw-partial tensor (R91, R241). Poisoned sources poison the line they go to (R201). -/
def State.writeTotals (s : State) (dst : Tensor) (ts : List (Place × Total)) : State :=
  let s1 := s.putRaw dst (ts.map fun (x : Place × Total) => (x.1, x.2.raw))
  let s2 := ts.foldl (fun u (x : Place × Total) => u.write (64 * dst.index + dst.tileNo x.1.row x.1.col) [BitVec.ofNat 8 (unsigned 8 x.2.g)]) s1
  let s3 := s2.settle dst dst.dStruct (ts.map fun (x : Place × Total) => x.1)
  ts.foldl (fun u (x : Place × Total) => if x.2.pois then u.poisonPlace .int32 x.1 else u) s3

/-- Write totals converted to a narrow format at site 8, with the skim copy (R65, R117). A written total that is marked converts as R414 says. -/
def State.writeNarrow (s : State) (k : Fin 8) (t : Task) (dst : Tensor) (ts : List (Place × Total)) : State :=
  let sr := s.slotSR k dst
  let puts := ts.map fun (x : Place × Total) =>
    ({ place := x.1, src := ⟨x.2.value x.1.valAt, x.2.out, s.rmode k dst sr 8 (dst.lin x.1.row x.1.col)⟩ } : Put)
  let s1 := (s.putAll k dst (fun _ => 0) (!t.recompute) puts).settle dst dst.dStruct (puts.map (·.place))
  let bad := fun (p : Place) => ts.any fun (x : Place × Total) => x.2.pois && x.1.group == p.group
  let s2 := s1.writeSkim k dst dst.dStruct
  if ts.any fun (x : Place × Total) => x.2.pois then s2.poisonGroups dst dst.dStruct bad else s2

/-- Whether an EXCHANGE result may go to a tensor (R65, R238; DESIGN CHOICE for the shape, log 14): raw partials or a narrow format in layout D, of
the source's size; an M16 parameter tensor under TO_UPDATE. -/
def State.exchDstOk (s : State) (k : Fin 8) (toUpd : Bool) (src dst : Tensor) : Bool :=
  if toUpd then dst.fmt == .m16
  else dst.layout == .d && dst.valid && dst.size == src.size && (dst.fmt == .int32 || (dst.fmt.narrow && s.slotOk k dst))

/-- Whether every chunk that this member has sent for a task is acknowledged (R242). -/
def Task.allAcked (t : Task) : Bool := t.sent.isEmpty

/-- The regions that take a reduction's result as bound data (R316): none under TO_UPDATE. -/
def State.exchBound (s : State) (toUpd : Bool) (dst : Tensor) : List (Nat × Nat) :=
  if toUpd then [] else if dst.fmt = .int32 then dst.rawRegions else s.regions dst dst.dStruct

/-- The result of a reduction whose totals have come (R241, R244, R255): the norm entered, the totals written or streamed, the chunks forgotten, and
the task done. `s0` is the state with the binding propagated. -/
def State.reduceDone (s0 s : State) (k : Fin 8) (t : Task) (g : Group) (r : Reduce) (src dst : Tensor) (ts : List (Nat × Option (Fin 8) × Total)) :
    State :=
  let norm := bitOf (t.desc.arg 2 1) 0
  let toUpd := bitOf (t.desc.arg 2 1) 1
  let s1 := if norm then s0.normEnter k ts else s0
  let placed := ts.filterMap fun x => (dst.dStruct.places[x.1]?).map fun p => (p, x.2.2)
  let s2 := if toUpd then
      match homeOf dst.base with
      | some (dd, ii) => s1.deliver dd ii k dst.id (ts.map fun x => ({ p := x.1, s := x.2.2.v, g := x.2.2.g, marked := x.2.2.marked } : Arrived))
      | none => s1
    else if dst.fmt = .int32 then s1.writeTotals dst placed
    else s1.writeNarrow k t dst placed
  let sat := (ts.filter fun x => if toUpd then x.2.2.marked else x.2.2.out).length
  let s3 := (s2.addCount k t.h sat).modSuite k fun u => { u with chunks := u.chunks.filter fun x => !(x.group == g.id && x.seq == t.seq) }
  let s4 := if sat = 0 then s3 else s3.worsen k t.h .saturated
  let s5 := if ts.any fun x => x.2.2.clash then s4.worsen k t.h .formatError else s4
  let pois := if r.own.any (·.pois) then some ((s.poisonOf src.rawRegions).getD 0) else none
  let out := (src.rawRegions ++ s.exchBound toUpd dst).findSome? fun q => s.firstBad k q.1 q.2
  (s5.reportAccess k t pois out).finish k t.h .done

/-- ALLREDUCE and REDUCE_SCATTER (R238 to R242, R244): REDUCE_SCATTER writes or streams the elements that this member reduces last. The task waits
while a total has not come, a chunk that it sent is not acknowledged, or its totals have no open APPLY (R256). -/
def State.runReduce (s : State) (k : Fin 8) (t : Task) (all : Bool) : State :=
  s.withGroup k t fun s g =>
    let d := t.desc
    let toUpd := bitOf (d.arg 2 1) 1
    match s.reduceOf k t, s.tensor? k (d.tensor 0), s.tensor? k (d.tensor 1) with
    | some r, some src, some dst =>
      if !s.exchDstOk k toUpd src dst then s.finish k t.h .formatError
      else
        let wait := toUpd && (match homeOf dst.base with | some (dd, ii) => s.mustWait dd ii k dst.id | none => false)
        match s.totals k r all with
        | none => s
        | some ts =>
          if wait || !t.allAcked then s
          else
            match s.bindTo k src.rawRegions (s.exchBound toUpd dst) (if toUpd then [] else [dst]) with
            | none => (s.boundRefused k t dst.id 2).finish k t.h .accessDenied
            | some s0 =>
              s0.reduceDone s k t g r src dst ts
    | _, _, _ => s.finish k t.h .formatError

/-- EXCHANGE ALLREDUCE (R238, R239, R241). -/
def execExchangeAllreduce (k : Fin 8) (h : Nat) (s : State) : Out :=
  .next <| s.runTask k h 4 0 fun u t => u.runReduce k t true

/-- EXCHANGE REDUCE_SCATTER (R238, R239, R241). -/
def execExchangeReduceScatter (k : Fin 8) (h : Nat) (s : State) : Out :=
  .next <| s.runTask k h 4 1 fun u t => u.runReduce k t false

/-! ## Transfers -/

/-- The BASE image of a tensor as it is sent: its region's bytes, poisoned lines as zeros. -/
def State.image (s : State) (r : Nat × Nat) : List Byte :=
  (List.range r.2).flatMap fun i => if s.poisoned (r.1 + i) then List.replicate 64 0 else s.bytes (64 * (r.1 + i)) 64

/-- The BASE region of a tensor; none where its structure is refused. -/
def State.baseRegion (s : State) (k : Fin 8) (t : Tensor) : Option (Nat × Nat) :=
  match s.opStruct k t with
  | .ok st => some (t.base, units (t.baseSize st))
  | .error _ => none

/-- Whether a region may leave the suite for members (R317): it is not bound, or every receiver's key is in the set that bound it. -/
def State.leaveOk (s : State) (k : Fin 8) (r : Nat × Nat) (coords : List (List Nat)) : Bool :=
  match s.suites[k].boundSet [r] with
  | none => true
  | some set => s.receiversIn k set coords

/-- A region goes to members, beside what `f` does here: its frames are counted, its poison (R201) and its access (R195) reported. -/
def State.sendOff (s : State) (k : Fin 8) (t : Task) (r : Nat × Nat) (coords : List (List Nat)) (f : State → State) : State :=
  let u := coords.foldl (fun v c => v.sentTo k c (64 * r.2)) (f s)
  (u.reportAccess k t (s.poisonOf [r]) (s.firstBad k r.1 r.2)).finish k t.h .done

/-- Send a region where it may leave, and refuse the task where it may not (R317). -/
def State.leave (s : State) (k : Fin 8) (t : Task) (src : Tensor) (r : Nat × Nat) (coords : List (List Nat)) (f : State → State) : State :=
  if s.leaveOk k r coords then s.sendOff k t r coords f else (s.boundRefused k t src.id 1).finish k t.h .accessDenied

/-- Receive bytes into a region: FORMAT_ERROR when they do not fit it; a missing tail stays as it was. -/
def State.receive (s : State) (k : Fin 8) (t : Task) (r : Nat × Nat) (bytes : List Byte) : State :=
  if 64 * r.2 < bytes.length then s.finish k t.h .formatError
  else ((s.write (64 * r.1) bytes).reportAccess k t none (s.firstBad k r.1 r.2)).finish k t.h .done

/-- The images of all members in member order, this member's own from its region (R238). -/
def State.gathered (s : State) (g : Group) (r : Nat × Nat) (members : List (List Byte)) : List Byte :=
  (List.range (s.memberCoords g).length).flatMap fun i =>
    let b := if i = (s.memberCoords g).idxOf s.ownCoord then s.image r else members.getD i []
    (b ++ List.replicate (64 * r.2 - b.length) 0).take (64 * r.2)

/-- Write a copy of a region's data into a region, from unit `at_` of it on: the poison of the source's lines goes with them (R201). -/
def State.copyIn (u s : State) (k : Fin 8) (t : Task) (r w : Nat × Nat) (at_ : Nat) (bytes : List Byte) : State :=
  ((s.poison.filter fun l => rangesMeet (l, 1) r).foldl (fun v l => v.poisonLine (w.1 + at_ + (l - r.1)))
    (u.write (64 * w.1) bytes)).reportAccess k t none (s.firstBad k w.1 w.2)

/-- EXCHANGE ALLGATHER (R238): all members' TENSOR[0], concatenated in member order; `members` are the images that the frames brought, by member. -/
def State.exchangeAllgather (s : State) (k : Fin 8) (t : Task) (members : List (List Byte)) : State :=
  s.withGroup k t fun s g =>
  let self := (s.memberCoords g).idxOf s.ownCoord
  match s.tensor? k (t.desc.tensor 0), s.tensor? k (t.desc.tensor 1) with
  | some src, some dst =>
    match s.baseRegion k src, s.baseRegion k dst with
    | some r, some w =>
      let all := s.gathered g r members
      if 64 * w.2 < all.length then s.finish k t.h .formatError
      else match s.bindTo k [r] [w] [dst] with
        | none => (s.boundRefused k t dst.id 2).finish k t.h .accessDenied
        | some s0 => s0.leave k t src r (s.others g) fun u => u.copyIn s k t r w (self * r.2) all
    | _, _ => s.finish k t.h .formatError
  | _, _ => s.finish k t.h .formatError

/-- EXCHANGE ALLGATHER as a command: its effect on a started task (R238). -/
def execExchangeAllgather (k : Fin 8) (h : Nat) (members : List (List Byte)) (s : State) : Out :=
  .next (s.runTask k h 4 2 fun u t => u.exchangeAllgather k t members)

/-- EXCHANGE BROADCAST (R238): every member receives the ROOT member's TENSOR[0]. DESIGN CHOICE (log 14): a ROOT that is no member index ends
FORMAT_ERROR. -/
def State.exchangeBroadcast (s : State) (k : Fin 8) (t : Task) (rootBytes : List Byte) : State :=
  s.withGroup k t fun s g =>
  let root := (s.memberCoords g)[t.desc.arg 3 1]?
  let isRoot := root == some s.ownCoord
  if root.isNone then s.finish k t.h .formatError else
  match s.tensor? k (t.desc.tensor 1) with
  | none => s.finish k t.h .formatError
  | some dst =>
    match s.baseRegion k dst with
    | none => s.finish k t.h .formatError
    | some w =>
      if !isRoot then s.receive k t w rootBytes
      else match s.tensor? k (t.desc.tensor 0) with
        | none => s.finish k t.h .formatError
        | some src =>
          match s.baseRegion k src with
          | none => s.finish k t.h .formatError
          | some r =>
            if w.2 < r.2 then s.finish k t.h .formatError
            else match s.bindTo k [r] [w] [dst] with
              | none => (s.boundRefused k t dst.id 2).finish k t.h .accessDenied
              | some s0 => s0.leave k t src r (s.others g) fun u => u.copyIn s k t r w 0 (s.image r)

/-- EXCHANGE BROADCAST as a command: its effect on a started task (R238). -/
def execExchangeBroadcast (k : Fin 8) (h : Nat) (rootBytes : List Byte) (s : State) : Out :=
  .next (s.runTask k h 4 3 fun u t => u.exchangeBroadcast k t rootBytes)

/-- EXCHANGE SEND (R238): TENSOR[0] to the member PEER. -/
def State.exchangeSend (s : State) (k : Fin 8) (t : Task) : State :=
  s.withPeer k t fun s =>
  match s.tensor? k (t.desc.tensor 0) with
  | none => s.finish k t.h .formatError
  | some src =>
    match s.baseRegion k src with
    | none => s.finish k t.h .formatError
    | some r => s.leave k t src r [t.desc.peer] fun u => u

/-- EXCHANGE SEND as a command: its effect on a started task (R238). -/
def execExchangeSend (k : Fin 8) (h : Nat) (s : State) : Out :=
  .next (s.runTask k h 4 4 fun u t => u.exchangeSend k t)

/-- EXCHANGE RECV (R238): a peer's SEND into TENSOR[1]. -/
def State.exchangeRecv (s : State) (k : Fin 8) (t : Task) (bytes : List Byte) : State :=
  s.withPeer k t fun s =>
  match (s.tensor? k (t.desc.tensor 1)).bind (s.baseRegion k) with
  | none => s.finish k t.h .formatError
  | some w => s.receive k t w bytes

/-- EXCHANGE RECV as a command: its effect on a started task (R238). -/
def execExchangeRecv (k : Fin 8) (h : Nat) (bytes : List Byte) (s : State) : Out :=
  .next (s.runTask k h 4 5 fun u t => u.exchangeRecv k t bytes)

/-- EXCHANGE GET (R238): lines of a peer into TENSOR[1], which GET_RSP frames bring; the task completes when all have come. A refusal on the peer
completes ACCESS_DENIED. -/
def State.exchangeGet (s : State) (k : Fin 8) (t : Task) (peerRefused : Bool) : State :=
  s.withPeer k t fun s =>
  match (s.tensor? k (t.desc.tensor 1)).bind (s.baseRegion k) with
  | none => s.finish k t.h .formatError
  | some w =>
    if peerRefused then s.finish k t.h .accessDenied
    else if (List.range w.2).all t.got.contains then (s.reportAccess k t none (s.firstBad k w.1 w.2)).finish k t.h .done
    else s

/-- EXCHANGE GET as a command: its effect on a started task (R238). -/
def execExchangeGet (k : Fin 8) (h : Nat) (peerRefused : Bool) (s : State) : Out :=
  .next (s.runTask k h 4 6 fun u t => u.exchangeGet k t peerRefused)

/-- EXCHANGE PUT (R238): TENSOR[0] to a remote address of PEER; a refusal there completes ACCESS_DENIED. -/
def State.exchangePut (s : State) (k : Fin 8) (t : Task) (peerRefused : Bool) : State :=
  s.withPeer k t fun s =>
  match s.tensor? k (t.desc.tensor 0) with
  | none => s.finish k t.h .formatError
  | some src =>
    match s.baseRegion k src with
    | none => s.finish k t.h .formatError
    | some r => if peerRefused then s.finish k t.h .accessDenied else s.leave k t src r [t.desc.peer] fun u => u

/-- EXCHANGE PUT as a command: its effect on a started task (R238). -/
def execExchangePut (k : Fin 8) (h : Nat) (peerRefused : Bool) (s : State) : Out :=
  .next (s.runTask k h 4 7 fun u t => u.exchangePut k t peerRefused)

/-- EXCHANGE NORM (R245): the exact sum of the norm accumulators of the group's dies in every member, this module's being cleared; SFN_GNORM takes it
at the next boundary. The task waits until every other member's has come. -/
def State.exchangeNorm (s : State) (k : Fin 8) (t : Task) : State :=
  s.withGroup k t fun s g =>
  let ins := s.suites[k].normIn.filter fun x => x.1 == g.id
  if !(s.others g).all (fun c => ins.any fun x => x.2.1 == c) then s
  else
    let ds := maskDies g.dies
    let all := ds.map (fun d => (s.dies[d].norm[k], s.dies[d].normSat[k])) ++ ins.map fun x => x.2.2
    let s1 := ds.foldl (fun u d => u.modDie d fun x => { x with norm := x.norm.set k 0, normSat := x.normSat.set k false }) s
    (s1.modSuite k fun u => { u with normNext := some (sumL (all.map (·.1)), all.any (·.2)), normIn := u.normIn.filter fun x => x.1 != g.id }).finish
      k t.h .done

/-- EXCHANGE NORM as a command: its effect on a started task (R245). -/
def execExchangeNorm (k : Fin 8) (h : Nat) (s : State) : Out :=
  .next (s.runTask k h 4 8 fun u t => u.exchangeNorm k t)

/-- The dimensions that a die set carries: die d carries dimension ⌊d/2⌋ (R227, R231). -/
def dimsOf (dies : BitVec 8) : BitVec 4 := (maskDies dies).foldl (fun m d => m ||| (1 <<< (d.val / 2))) 0

/-- EXCHANGE DEFINE (R238): defines or redefines a group; the pair keys it needs are then offered by PAIR_KEY frames (R307). -/
def State.exchangeDefine (s : State) (k : Fin 8) (t : Task) : State :=
  let id := t.desc.arg 0 2
  let dims : BitVec 4 := BitVec.ofNat 4 (t.desc.arg 20 1)
  let ds : BitVec 8 := BitVec.ofNat 8 (t.desc.arg 21 1)
  let suite := dieMaskOf (s.suiteDies k)
  if 63 < id ∨ (dims &&& ~~~(dimsOf suite)) ≠ 0 ∨ (ds &&& ~~~suite) ≠ 0 ∨ (dimsOf ds &&& dims) = 0 then s.finish k t.h .formatError
  else (s.modSuite k fun u => { u with groups := { id := id, dims := dims, dies := ds } :: u.groups.filter fun g => g.id != id }).finish
    k t.h .done

/-- EXCHANGE DEFINE as a command: its effect on a started task (R238). -/
def execExchangeDefine (k : Fin 8) (h : Nat) (s : State) : Out :=
  .next (s.runTask k h 4 9 fun u t => u.exchangeDefine k t)

/-- An EXCHANGE that completes TIMEOUT (R242): an APPLY that it feeds stops waiting for it (R273). -/
def State.exchangeTimeout (s : State) (k : Fin 8) (t : Task) : State :=
  let s1 := s.finish k t.h .timeout
  if bitOf (t.desc.arg 2 1) 1 then
    match s.suites[k].tasks.find? fun x => x.desc.type == 5 && x.desc.mode == 0 && x.desc.tensor 0 == t.desc.tensor 1 && x.state == .running with
    | some a => s1.confine k fun u => u.endApply k a.h 0 .timeout
    | none => s1
  else s1

end Sys2Proof.Machine
end

