-- ==== Sys2Proof/Machine/Mask.lean ====
section
/-! DEFINITION. Mask maintenance (R281 to R300): the mask record, SAMPLE, RANK, BUILD and the commit of a built epoch. -/

namespace Sys2Proof.Machine

/-! ## The mask record (R281) -/

/-- A mask record, parsed. `unit` is its address. -/
structure MaskRec where
  unit : Nat
  master : Nat
  mom : Nat
  copy : Nat
  sandOnly : Bool
  state : Nat
  period : Nat
  offset : Nat
  split : Nat
  rb : Nat
  cand : Nat
  drop : Nat
  target : Nat
  epoch : Nat
  candStep : Nat
  altIndex : Nat
  altTwin : Nat
  altW : Nat
  altM : Nat
  altC : Nat
  altSkim : Nat
  caps : List Nat
  candArea : Nat
  buildStep : Nat
  deriving DecidableEq, Repr

/-- Parse a mask record and check its CHECK and its field ranges (R281, R283). -/
def parseMask (bs : List Byte) (unit : Nat) : Option MaskRec :=
  let z := fun (o n : Nat) => field bs o n == 0
  let r : MaskRec :=
    { unit := unit, master := field bs 0 2, mom := field bs 2 2, copy := field bs 4 2, sandOnly := bitOf (field bs 6 1) 0,
      state := field bs 7 1, period := field bs 8 2, offset := field bs 0xA 2, split := field bs 0xC 1, rb := field bs 0xD 1,
      cand := field bs 0xE 2, drop := field bs 0x10 2, target := field bs 0x14 4, epoch := field bs 0x18 4, candStep := field bs 0x1C 4,
      altIndex := field bs 0x20 5, altTwin := field bs 0x25 5, altW := field bs 0x2A 5, altM := field bs 0x2F 5, altC := field bs 0x34 5,
      altSkim := field bs 0x39 5, caps := (List.range 6).map fun i => field bs (0x40 + 4 * i) 4, candArea := field bs 0x58 5,
      buildStep := field bs 0x6C 4 }
  if crc32 (bs.take 0x7C) == field bs 0x7C 4 && decide (field bs 6 1 < 2) && decide (r.state ≤ 2) && decide (1 ≤ r.period) &&
     decide (1 ≤ r.split) && decide (r.split ≤ 64) && decide (r.rb ≤ 12) && decide (1 ≤ r.cand) && decide (r.cand ≤ 256) &&
     z 0x12 2 && z 0x3E 2 && z 0x5D 3 && z 0x70 12 && r.altIndex != 0 && r.altW != 0 && ((r.altM != 0) == (r.mom != 0xFFFF)) &&
     ((r.altC != 0) == (r.copy != 0xFFFF)) then some r
  else none

/-- Write module fields of a record, and its CHECK (R281). -/
def State.maskWrite (s : State) (unit : Nat) (ws : List (Nat × List Byte)) : State :=
  let u := ws.foldl (fun v w => v.write (64 * unit + w.1) w.2) s
  u.write (64 * unit + 0x7C) (leBytes 4 (crc32 (u.bytes (64 * unit) 0x7C)))

/-- What a MASK task works on. -/
structure MaskCtx where
  r : MaskRec
  d : Fin 8
  i : Fin 12
  m : Tensor
  st : Struct
  mom : Option Tensor
  copy : Option Tensor
  t : Nat
  deriving DecidableEq, Repr

/-- Row blocks NB of R285. -/
def MaskCtx.nb (c : MaskCtx) : Nat := cdiv c.m.nr (2 ^ c.r.rb)

/-- Rows of TENSOR[3], RS. -/
def MaskCtx.rs (c : MaskCtx) : Nat := cdiv c.nb c.r.split * 2 ^ c.r.rb

/-- Whether the step is a step of change (R285). -/
def MaskCtx.change (c : MaskCtx) : Bool := decide (c.r.offset ≤ c.t) && (c.t - c.r.offset) % c.r.period == 0

/-- The scheduled row blocks, ascending (R285). -/
def MaskCtx.blocks (c : MaskCtx) : List Nat :=
  (List.range c.nb).filter fun b => b % c.r.split == (c.t - c.r.offset) / c.r.period % c.r.split

/-- The rows of a block. -/
def MaskCtx.blockRows (c : MaskCtx) (b : Nat) : List Nat :=
  ((List.range (2 ^ c.r.rb)).map (b * 2 ^ c.r.rb + ·)).filter fun r => decide (r < c.m.nr)

/-- The scheduled rows, ascending. -/
def MaskCtx.rows (c : MaskCtx) : List Nat := c.blocks.flatMap c.blockRows

/-- The live regions with the capacity that bounds each (R282): INDEX, TWIN, BASE_W, BASE_M, BASE_C, SKIM. -/
def State.maskLive (s : State) (k : Fin 8) (c : MaskCtx) : List (Nat × Nat × Nat) :=
  let cap := fun i => c.r.caps.getD i 0
  let base := fun (x : Option Tensor) (i : Nat) => match x with
    | none => []
    | some t => match s.struct k t with
      | .ok st => [(t.base, units (t.baseSize st), cap i)]
      | .error _ => [(t.base, 2 ^ 40, cap i)]
  [(c.m.index, s.indexUnits c.m c.st, cap 0)] ++
  (match c.copy with | some x => if x.hasTwin then [(x.twin, s.twinUnits x, cap 1)] else [] | none => []) ++
  base (some c.m) 2 ++ base c.mom 3 ++ base c.copy 4 ++
  (match c.copy with | some x => if x.hasSkim then [(x.skim, units (x.skimSize c.st), cap 5)] else [] | none => [])

/-- The alternate regions, sized by the capacities. -/
def MaskRec.alts (r : MaskRec) : List (Nat × Nat) :=
  ([r.altIndex, r.altTwin, r.altW, r.altM, r.altC, r.altSkim].zip r.caps).filter fun x => x.1 != 0

/-- Check a MASK task (R281 to R283, R298). -/
def State.maskCheck (s : State) (k : Fin 8) (t : Task) : Except Status MaskCtx := do
  let d := t.desc
  let unit := d.arg 0 5
  let step := d.arg 8 4
  match parseMask (s.bytes (64 * unit) 128) unit, s.tensor? k (d.tensor 0) with
  | some r, some m =>
    orElse (step == 0xFFFFFFFF || (!t.program && s.suites[k].run.isNone)) .formatError
    orElse (r.master == d.tensor 0 && m.fmt == .m16 && (m.layout == .st || m.layout == .m4) && m.valid) .formatError
    let st ← (match s.struct k m with | .ok x => Except.ok x | .error e => .error e.status)
    orElse (st.bad == 0) .formatError
    let mom ← s.needOpt k r.mom
    let copy ← s.needOpt k r.copy
    orElse (match mom with | none => true | some x => (x.fmt == .int8 || x.fmt == .e4m3) && x.slot == 0xFFFF && sharesIndex m x) .formatError
    orElse (match copy with
      | none => r.altSkim == 0 && r.altTwin == 0
      | some x => x.fmt.narrow && s.slotOk k x && sharesIndex m x && ((r.altSkim != 0) == x.hasSkim) && ((r.altTwin != 0) == x.hasTwin)) .formatError
    match homeOf m.base with
    | none => .error .formatError
    | some (dd, ii) =>
      let c : MaskCtx :=
        { r := r, d := dd, i := ii, m := m, st := st, mom := mom, copy := copy, t := if step = 0xFFFFFFFF then s.suites[k].step.toNat else step }
      let live := s.maskLive k c
      orElse (live.all fun x => decide (x.2.1 ≤ x.2.2)) .formatError
      let rs := (live.map fun x => (x.1, x.2.2)) ++ r.alts ++ [(unit, 2), (r.candArea, units (8 * r.cand * m.nr))]
      orElse (inStack dd ii rs) .formatError
      orElse (rs.all fun x => s.regionOk k x.1 x.2) .accessDenied
      orElse (d.mode == 2 || (match s.tensor? k (d.tensor 3) with | some g => g.fmt == .int32 && g.isD m.nc c.rs 1 | none => false)) .formatError
      orElse (d.mode != 0 || d.gridFix.getLsbD 31) .formatError
      orElse (d.mode != 2 || d.dieMask == dieMaskOf [dd]) .formatError
      orElse (!s.structPoison m) .poisoned
      orElse (!m.frozen) .frozen
      pure c
  | _, _ => .error .formatError

/-- Run a MASK task: refused with its events, or DONE with COUNT 0 outside its steps of change (R285). -/
def State.runMask (s : State) (k : Fin 8) (t : Task) (f : State → MaskCtx → State) : State :=
  s.withRecord k t 2 fun s =>
    match s.maskCheck k t with
    | .error e => s.updRefuse k t e
    | .ok c => if c.change then f s c else s.finish k t.h .done

/-! ## SAMPLE (R285) -/

/-- The operands that SAMPLE asks for (R285): dz and x narrow, of the master's rows and columns over the same number of samples. -/
def State.sampleOk (s : State) (k : Fin 8) (c : MaskCtx) (dz x : Tensor) : Bool :=
  dz.fmt.narrow && x.fmt.narrow && s.slotOk k dz && s.slotOk k x && dz.isD dz.nc c.m.nr 1 && x.isD dz.nc c.m.nc 1

/-- SAMPLE's work (R283, R285): rows of dz · xᵀ for the scheduled rows, raw on the task's GRID_FIX; the other rows of TENSOR[3] zero. -/
def State.sampleRun (s : State) (k : Fin 8) (t : Task) (c : MaskCtx) (dz x out : Tensor) : State :=
  let N := dz.nc
  let g := signed 8 t.desc.gridFix.toNat
  let rowOf := fun (y : Tensor) (r : Nat) => (List.range N).map fun n => s.readAt y.fmt (s.slotS k y) (y.dPlace r n)
  let rows := c.rows
  let xs := (List.range c.m.nc).map fun col => (col, rowOf x col)
  let rowCells := (rows.zipIdx).map fun (r, i) =>
    let a := rowOf dz r
    (i, xs.map fun (y : Nat × List Ent) => (y.1, (⟨g, 0, false, 0⟩ : Cell).run ((a.zip y.2).map fun (p : Ent × Ent) => (p.1.v, p.2.v))))
  let sums := fun (i j : Nat) => tileSums ((rows.zipIdx.filter fun q => q.2 / 64 == i).map fun q => (rowOf dz q.1).zipIdx.map fun e => (e.2, e.1))
    fun n => (xs.filter fun q => q.1 / 64 == j).filterMap fun q => q.2[n]?
  let pois := fun (i j : Nat) => (rows.zipIdx.any fun q => q.2 / 64 == i && (rowOf dz q.1).any (·.pois)) ||
    xs.any fun q => q.1 / 64 == j && q.2.any (·.pois)
  let nt := cdiv c.m.nc 64
  let us := (List.range (cdiv rows.length 64)).flatMap fun i => (List.range nt).map fun j =>
    ({ tile := { k := k, h := t.h, row := i, col := j, batch := 0, part := 0 }, pois := pois i j,
       tiles := [{ b := 0, i := i, j := j, no := i * nt + j, grid := gridOf dz.fmt x.fmt t.desc.gridFix false [] (sums i j),
                   pois := pois i j, skipped := false, gridClash := false, els := [] }],
       rows := (rowCells.filter fun y => y.1 / 64 == i).map fun y =>
         let mine := y.2.filter fun z => z.1 / 64 == j
         (⟨0, y.1, mine.map fun z => (z.1, 0), [], none, true, true⟩, mine.map (·.2)) } : UnitRun)
  let zero := out.dStruct.places.filter fun (p : Place) => decide (rows.length ≤ p.row)
  let s1 := s.putRaw out ((rowCells.flatMap fun y => y.2.map fun z => (out.dPlace y.1 z.1, z.2.acc.raw)) ++ zero.map fun (p : Place) => (p, 0))
  let s2 := (s1.write (64 * out.index) (List.replicate out.gridBytes (BitVec.ofNat 8 (unsigned 8 g)))).settle out out.dStruct out.dStruct.places
  let s3 := (us.filter (·.pois)).foldl (fun u y => (y.rows.foldl (fun v e => v.poisonCols out e.1.m (64 * y.tile.col)
    (min out.nc (64 * y.tile.col + 64))) u).poisonRange (64 * out.index + y.tile.row * nt + y.tile.col) 1) s2
  let s4 := (s3.chargeUnits k t (s.chargePanel t.desc) us).closeSat k t.h
  let s5 := (s4.reportEnts k t.h dz (rows.flatMap (rowOf dz))).reportEnts k t.h x (if rows.isEmpty then [] else xs.flatMap (·.2))
  let rd := [dz, x].map fun y => (y.base, units (y.extent 4))
  (s5.reportAccess k t (if us.any (·.pois) then some ((s.poisonOf rd).getD 0) else none)
    ((rd ++ [(out.base, units (out.extent 4)), (out.index, units out.gridBytes)]).findSome? fun r => s.firstBad k r.1 r.2)).finish k t.h .done

/-- MASK SAMPLE (R283, R285). -/
def State.maskSample (s : State) (k : Fin 8) (t : Task) : State :=
  s.runMask k t fun s c =>
  match s.tensor? k (t.desc.tensor 1), s.tensor? k (t.desc.tensor 2), s.tensor? k (t.desc.tensor 3) with
  | some dz, some x, some out =>
    if s.sampleOk k c dz x then s.sampleRun k t c dz x out else s.finish k t.h .formatError
  | _, _, _ => s.finish k t.h .formatError

/-- MASK SAMPLE as a command: its effect on a started task (R283, R285). -/
def execMaskSample (k : Fin 8) (h : Nat) (s : State) : Out :=
  .next (s.runTask k h 6 0 fun u t => u.maskSample k t)

/-! ## RANK (R286) -/

/-- Byte address of a row's candidate entries (R282). -/
def MaskRec.candAt (r : MaskRec) (row : Nat) : Nat := 64 * r.candArea + 8 * r.cand * row

/-- RANK's work (R286): the CAND largest positions outside the live mask of each scheduled row. -/
def State.rankRun (s : State) (k : Fin 8) (t : Task) (c : MaskCtx) (gt : Tensor) : State :=
  let rows := (c.rows.zipIdx).map fun (r, i) =>
    let held := (c.st.places.filter fun (p : Place) => p.row == r).map fun (p : Place) => p.col
    let cols := (List.range c.m.nc).filter fun col => !held.contains col
    (r, cols.map fun col =>
      let e := s.readAt .int32 0 (gt.dPlace i col)
      let g := s.gridByte gt (gt.tileNo i col)
      let mark := e.code == rawMark && !e.pois
      (col, (if e.pois then Num.zero else if mark then Num.ofInt accMax g else Num.ofInt (signed 32 e.code) g), mark, e.pois))
  let s1 := rows.foldl (fun u (y : Nat × List (Nat × Num × Bool × Bool)) =>
    let r := y.1
    let es := y.2
    let top := topK c.r.cand (es.map fun (e : Nat × Num × Bool × Bool) => (⟨e.1, e.2.1⟩ : TopEnt))
    let bs := top.flatMap fun (e : TopEnt) => leBytes 4 e.pos ++ leBytes 2 (convE8M7 .up e.v.abs) ++ [0, 0]
    let pad := (List.replicate (c.r.cand - top.length) (leBytes 4 0xFFFFFFFF ++ leBytes 4 0)).flatten
    let u1 := u.write (c.r.candAt r) (bs ++ pad)
    if es.any (fun e => e.2.2.2) then u1.poisonRange (c.r.candAt r) (8 * c.r.cand) else u1) s
  let s2 := s1.maskWrite c.r.unit [(7, leBytes 1 1), (0x1C, leBytes 4 c.t)]
  let s3 := if rows.any fun x => x.2.any (·.2.2.1) then s2.worsen k t.h .saturated else s2
  (s3.reportAccess k t (if rows.any fun x => x.2.any (·.2.2.2) then some ((s.poisonOf [(gt.base, units (gt.extent 4)), (gt.index, units gt.gridBytes)]).getD 0) else none)
    ([(gt.base, units (gt.extent 4)), (gt.index, units gt.gridBytes)].findSome? fun r => s.firstBad k r.1 r.2)).finish k t.h .done

/-- MASK RANK (R286). -/
def State.maskRank (s : State) (k : Fin 8) (t : Task) : State :=
  s.runMask k t fun s c =>
  match s.tensor? k (t.desc.tensor 3) with
  | none => s.finish k t.h .formatError
  | some gt => s.rankRun k t c gt

/-- MASK RANK as a command: its effect on a started task (R286). -/
def execMaskRank (k : Fin 8) (h : Nat) (s : State) : Out :=
  .next (s.runTask k h 6 1 fun u t => u.maskRank k t)

/-! ## BUILD (R288 to R292) -/

/-- What BUILD chooses in one row block: kept and added (row, column) positions, positions removed, whether short, how many missing. -/
structure BlockPick where
  keep : List (Nat × Nat)
  add : List (Nat × Nat)
  sanded : Nat
  short : Bool
  missing : Nat
  deriving DecidableEq, Repr

/-- Take candidates in order until `need` are added, skipping M4 groups that hold four (R288). -/
def takeCands (m4 : Bool) (need : Nat) (keep : List (Nat × Nat)) : List (Nat × Nat) → List (Nat × Nat) → List (Nat × Nat)
  | acc, [] => acc
  | acc, p :: l =>
    if need ≤ acc.length then acc
    else if m4 ∧ 4 ≤ ((keep ++ acc).filter fun q => q.1 == p.1 && q.2 / 16 == p.2 / 16).length then takeCands m4 need keep acc l
    else takeCands m4 need keep (acc ++ [p]) l

/-- The selection of one scheduled row block (R288). -/
def State.pickBlock (s : State) (c : MaskCtx) (b : Nat) : BlockPick :=
  let rows := c.blockRows b
  let places := c.st.places.filter fun (p : Place) => rows.contains p.row
  let n := places.length
  let T := if c.r.target = 0 then n else c.r.target
  let bb := min n T
  let kk := bb - bb * c.r.drop / 65536
  let top := topK kk (places.map fun (p : Place) => (⟨c.m.lin p.row p.col, (s.readAt .m16 0 p).v⟩ : TopEnt))
  let keep := top.map fun e => (e.pos / c.m.nc, e.pos % c.m.nc)
  let need := if c.r.sandOnly then 0 else T - kk
  let ents := rows.flatMap fun r => (List.range c.r.cand).filterMap fun i =>
    let a := c.r.candAt r + 8 * i
    let col := s.le a 4
    if col < c.m.nc ∧ !(places.any fun (p : Place) => p.row == r && p.col == col) then
      some (⟨c.m.lin r col, decE8M7 (s.le (a + 4) 2)⟩ : TopEnt) else none
  let order := (topK ents.length ents).map fun e => (e.pos / c.m.nc, e.pos % c.m.nc)
  let add := takeCands (c.m.layout == .m4) need keep [] order.eraseDups
  { keep := keep, add := add, sanded := n - keep.length, short := decide (add.length < need), missing := need - add.length }

/-- Log MASK_WITHHELD and count it on the master's die (R299, R300). -/
def State.withheld (s : State) (k : Fin 8) (c : MaskCtx) (tensor reason n : Nat) : State :=
  (s.suiteEvent k 0x181 c.d (12 * c.d.val + c.i.val) (pack [(2, tensor), (1, reason), (1, 0), (4, s.suites[k].step.toNat), (4, n), (4, 0)])).modDie
    c.d fun x => { x with msk := { x.msk with withheld := x.msk.withheld.satAdd 1 } }

/-- A 5-byte address. -/
def addr5 (a : Nat) : List Byte := leBytes 5 a

/-- Commit a built record (R294): exchange live and alternate regions in the members' descriptors, advance the epoch, return to IDLE,
clear the VALID bits of the retention area, count and log. -/
def State.commitMask (s : State) (k : Fin 8) (b : BuiltRec) : State :=
  match parseMask (s.bytes (64 * b.addr) 128) b.addr with
  | none => s
  | some r =>
    match s.tensor? k r.master with
    | none => s
    | some m =>
      let mom := if r.mom = 0xFFFF then none else s.tensor? k r.mom
      let copy := if r.copy = 0xFFFF then none else s.tensor? k r.copy
      let set := fun (u : State) (x : Option Tensor) (base : Nat) => match x with
        | none => u
        | some t =>
          let u1 := u.write (t.at_ + 0x2C) (addr5 base ++ addr5 r.altIndex)
          let u2 := if t.hasTwin && r.altTwin != 0 then u1.write (t.at_ + 0x36) (addr5 r.altTwin) else u1
          if t.hasSkim && r.altSkim != 0 then u2.write (t.at_ + 0x3B) (addr5 r.altSkim) else u2
      let s1 := set (set (set s (some m) r.altW) mom r.altM) copy r.altC
      let s2 := s1.maskWrite b.addr
        ([(7, leBytes 1 0), (0x18, leBytes 4 (r.epoch + 1)), (0x20, addr5 m.index), (0x2A, addr5 m.base), (0x60, leBytes 4 b.sanded),
          (0x64, leBytes 4 b.feathered), (0x68, leBytes 4 b.short)] ++
         (match mom with | some x => [(0x2F, addr5 x.base)] | none => []) ++
         (match copy with
          | some x => [(0x34, addr5 x.base)] ++ (if x.hasTwin then [(0x25, addr5 x.twin)] else []) ++ (if x.hasSkim then [(0x39, addr5 x.skim)] else [])
          | none => []))
      let nBlk := fun (u : State) (y : Tensor) => match u.struct k y with | .ok st => y.nBlocks st | .error _ => 0
      let m' := (s2.tensor? k r.master).getD m
      let s3 := match s.suites[k].applied.find? fun x => x.1 == m.id with
        | some (_, ret) => if ret = 0 then s2 else (List.range (max (nBlk s m) (nBlk s2 m'))).foldl (fun u g =>
            let a := 64 * ret + 64 + 4 * g + 3
            u.write a [u.byte a &&& 0x7F]) s2
        | none => s2
      let (d, i) := (homeOf m.base).getD (0, 0)
      let unit := 12 * d.val + i.val
      let s4 := s3.modDie d fun x => { x with msk := { x.msk with
        sanded := x.msk.sanded.satAdd b.sanded
        feathered := x.msk.feathered.satAdd b.feathered
        short := x.msk.short.satAdd b.short } }
      let s5 := s4.modSuite k fun u => { u with builtRecs := u.builtRecs.filter fun (x : BuiltRec) => x.addr != b.addr }
      let s6 := s5.suiteEvent k 0x180 d unit (pack [(2, m.id), (2, 0), (4, r.epoch + 1), (4, b.sanded), (4, b.feathered)])
      if b.short = 0 then s6
      else s6.suiteEvent k 0x182 d unit (pack [(2, m.id), (2, 0), (4, b.short), (4, b.missing), (4, s.suites[k].step.toNat)])

/-- Write the new epoch of one build (R291, R292). -/
def State.buildEpoch (s : State) (k : Fin 8) (t : Task) (c : MaskCtx) : State :=
  let step := s.suites[k].step.toNat
  let picks := c.blocks.map (s.pickBlock c)
  let sched := c.rows
  let kept := (c.st.places.filter fun (p : Place) => !sched.contains p.row).map fun p => (p.row, p.col)
  let all := kept ++ picks.flatMap (·.keep) ++ picks.flatMap (·.add)
  let pos := (sortKey (all.map fun p => (c.m.lin p.1 p.2, p))).map (·.2)
  let m' : Tensor := { c.m with base := c.r.altW, index := c.r.altIndex }
  let build := fun (x : Tensor) => if x.layout = .st then buildSt x pos c.st.laneStrips (c.r.epoch + 1) false else buildM4 x pos
  let bm := build m'
  let old := fun (p : Place) => c.st.places.findIdx? fun (q : Place) => q.row == p.row && q.col == p.col
  let readOf := fun (x : Tensor) (p : Place) => match s.struct k x with
    | .ok st => (old p).bind fun i => (st.places[i]?).map (s.readAt x.fmt 0)
    | .error _ => none
  let valOf := fun (x : Tensor) (p : Place) => match readOf x p with | some e => e.v | none => Num.zero
  let blocks := (List.range (m'.nBlocks bm.st)).map fun g => (g, bm.st.places.filter fun (p : Place) => p.group == g)
  let b0 := blocks.foldl (fun u (g, ps) => u.putMaster m' g c.t step false s.suites[k].seed (ps.map fun p => (p, valOf c.m p)))
    (s.zeroPieces ([{ unit := m'.base, cap := 0, bit := 0, pieces := m'.basePieces bm.st }] : List Region))
  let putM := fun (u : State) (x : Tensor) =>
    let x' : Tensor := { x with base := c.r.altM, index := c.r.altIndex }
    let bx := build x'
    let v := u.zeroPieces ([{ unit := x'.base, cap := 0, bit := 0, pieces := x'.basePieces bx.st }] : List Region)
    blocks.foldl (fun w (g, _) =>
      let ps := bx.st.places.filter fun (p : Place) => p.group == g
      match ps with
      | [] => w
      | p :: _ =>
        let xs := ps.map (valOf x)
        let e8 := momScale x.fmt xs
        (w.write p.scaleAt [BitVec.ofNat 8 e8]).putCodes x.fmt ((ps.zip xs).map fun (y : Place × Num) =>
          (y.1.valAt, y.1.idx, if e8 = 0 then 0 else (convNarrow x.fmt .rne y.2 ((e8 : Int) - 127)).1))) v
  let b1 := match c.mom with | some x => putM b0 x | none => b0
  let copy' := c.copy.map fun x => ({ x with base := c.r.altC, index := c.r.altIndex, twin := if x.hasTwin then c.r.altTwin else x.twin, skim := if x.hasSkim then c.r.altSkim else x.skim } : Tensor)
  let ctx : UpdCtx := { d := c.d, i := c.i, m := m', st := bm.st, mom := none, copy := copy'.map fun x => (x, (build x).st) }
  let b2 := match copy' with
    | none => b1
    | some x =>
      let v := b1.zeroPieces (([{ unit := x.base, cap := 0, bit := 0, pieces := x.basePieces (build x).st }] : List Region) ++
        (if x.hasSkim then ([{ unit := x.skim, cap := 0, bit := 0, pieces := [(x.skim, units (x.skimSize bm.st))] }] : List Region) else []))
      (blocks.foldl (fun (u : State) (y : Nat × List Place) => u.renderBlock k ctx y.1 step false) v).finishCopy k ctx
  let twin := match copy' with
    | some x => if x.hasTwin then some (twinBytes x.nc (c.r.epoch + 1) bm.st.nStrips bm.st.strips) else none
    | none => none
  let b3 := b2.rawWrite (64 * c.r.altIndex) bm.index
  let b4 := match twin with | some b => b3.rawWrite (64 * c.r.altTwin) b | none => b3
  let cap := fun i => c.r.caps.getD i 0
  let rs : List Region :=
    [{ unit := c.r.altIndex, cap := cap 0, bit := 0, pieces := [(c.r.altIndex, units bm.index.length)] }] ++
    (match twin with | some b => [{ unit := c.r.altTwin, cap := cap 1, bit := 1, pieces := [(c.r.altTwin, units b.length)] }] | none => []) ++
    [{ unit := m'.base, cap := cap 2, bit := 2, pieces := m'.basePieces bm.st }] ++
    (match c.mom with
     | some x => let x' : Tensor := { x with base := c.r.altM }; [{ unit := c.r.altM, cap := cap 3, bit := 3, pieces := x'.basePieces bm.st }]
     | none => []) ++
    (match copy' with
     | some x => [{ unit := x.base, cap := cap 4, bit := 4, pieces := x.basePieces bm.st }] ++
        (if x.hasSkim then [{ unit := x.skim, cap := cap 5, bit := 5, pieces := [(x.skim, units (x.skimSize bm.st))] }] else [])
     | none => [])
  match rs.find? (·.overflows) with
  | some o =>
    let s1 := (rs.takeWhile fun r => !r.overflows).foldl (fun u r => u.writeRegion b4 r) s
    let s2 := (s1.writeRegion b4 o).maskWrite c.r.unit [(7, leBytes 1 0)]
    let s3 := s2.withheld k c c.m.id 1 o.need
    (s3.relayCount t fun x => { x with cntCap := x.cntCap.satAdd 1 }).finish k t.h .formatError
  | none =>
    let s1 := rs.foldl (fun u r => u.writeRegion b4 r) s
    let s2 := match copy' with
      | none => s1
      | some x => if t.recompute then s1 else blocks.foldl (fun (u : State) (y : Nat × List Place) =>
          let g := y.1
          let src := (bm.st.places.filter fun (p : Place) => p.group == g).map fun p => b4.readAt .m16 0 p
          let sr := s.slotSR k x
          u.countPuts k x c.t (((build x).st.places.filter fun (p : Place) => p.group == g).zip src |>.map fun (y : Place × Ent) =>
            ({ place := y.1, src := ⟨y.2.v, false, updMode s.suites[k].seed sr 1 x.id step (x.lin y.1.row y.1.col)⟩ } : Put))) s1
    let badOf := fun (x : Tensor) => bm.st.places.filter fun (p : Place) => match readOf x p with | some e => e.pois | none => false
    let badW := badOf c.m
    let badM := match c.mom with | some x => badOf x | none => []
    let hit := fun (l : List Place) (p : Place) => l.any fun (q : Place) => q.row == p.row && q.col == p.col
    let cand := !c.r.sandOnly && sched.any fun r => s.poisonIn (c.r.candAt r) (8 * c.r.cand)
    let s3 := if cand then rs.foldl (fun u r => u.poisonRegion r) s2 else if badW.isEmpty && badM.isEmpty then s2 else
      let u1 := s2.poisonGroups m' bm.st (hit badW)
      let u2 := match copy' with | some x => u1.poisonGroups x (build x).st (hit badW) | none => u1
      match c.mom with
      | some x => let x' : Tensor := { x with base := c.r.altM, index := c.r.altIndex }; u2.poisonGroups x' (build x').st (hit badM)
      | none => u2
    let s4 := s3.maskWrite c.r.unit [(7, leBytes 1 2), (0x6C, leBytes 4 c.t)]
    let rec_ : BuiltRec :=
      { addr := c.r.unit, step := c.t, sanded := sumL (picks.map (·.sanded)), feathered := sumL (picks.map (·.add.length)),
        short := (picks.filter (·.short)).length, missing := sumL (picks.map (·.missing)) }
    let s5 := s4.modSuite k fun u => { u with builtRecs := (u.builtRecs.filter fun (x : BuiltRec) => x.addr != c.r.unit) ++ [rec_] }
    let s6 := if t.desc.arg 8 4 = 0xFFFFFFFF then s5 else s5.commitMask k rec_
    (s6.reportAccess k t (if badW.isEmpty && badM.isEmpty && !cand then none
      else some ((s.poisonOf [(c.m.base, cap 2), (c.r.candArea, units (8 * c.r.cand * c.m.nr))]).getD 0)) none).finish k t.h .done

/-- The built records of a suite whose STATE still reads BUILT (R294, R297, R299). -/
def State.builtNow (s : State) (k : Fin 8) : List BuiltRec := s.suites[k].builtRecs.filter fun b => s.byte (64 * b.addr + 7) == 2

/-- A BUILD that runs stands in `builds` with its step; the tasks dispatched before it are marked, since R284 does not refuse them. -/
def State.noteBuild (s : State) (k : Fin 8) (h unit step : Nat) : State :=
  let before := (s.suites[k].tasks.takeWhile fun x => x.h != h).filter fun x => x.state != .fetched
  before.foldl (fun u x => u.modTask k x.h fun y => { y with logged := (0xB1, unit) :: y.logged })
    (s.modSuite k fun v => { v with builds := (unit, step) :: v.builds })

/-- MASK BUILD (R284, R288 to R293, R297): sands, feathers and writes the next epoch into the alternates. A mask unit that drains takes no BUILD that
started after its drain began (R52, R299). -/
def State.maskBuild (s : State) (k : Fin 8) (t : Task) : State :=
  s.runMask k t fun s c =>
  let blocks := List.range (c.m.nBlocks c.st)
  let unit := s.dies[c.d].msk.fn
  if unit.st = .stopped ∨ (unit.st = .draining ∧ unit.since < t.waitFrom) then s.finish k t.h .disabled
  else if !c.r.sandOnly && !(c.r.state == 1 && c.r.candStep == c.t) then s.finish k t.h .formatError
  else if blocks.any fun g => s.tagOf c.m g != c.t % 2 ^ 24 then (s.withheld k c c.m.id 0 0).finish k t.h .busy
  else if 256 ≤ ((s.builtNow k).filter fun b => b.addr != c.r.unit).length then s.finish k t.h .busy
  else
    let live := (s.maskLive k c).map fun x => (x.1, x.2.1)
    match s.bindTo k live c.r.alts [] with
    | none => (s.boundRefused k t c.m.id 2).finish k t.h .accessDenied
    | some u => (u.noteBuild k t.h c.r.unit c.t).buildEpoch k t c

/-- MASK BUILD as a command: its effect on a started task (R284, R288 to R293, R297). -/
def execMaskBuild (k : Fin 8) (h : Nat) (s : State) : Out :=
  .next (s.runTask k h 6 2 fun u t => u.maskBuild k t)

/-- An aborted BUILD (R293): the alternates hold free values, STATE returns to IDLE and MASK_WITHHELD gives reason 3. -/
def State.abortBuild (s : State) (k : Fin 8) (t : Task) : State :=
  match s.maskCheck k t with
  | .error _ => s
  | .ok c => if c.change then ((c.r.alts.foldl State.freeRegion s).maskWrite c.r.unit [(7, leBytes 1 0)]).withheld k c c.m.id 3 0 else s

end Sys2Proof.Machine
end

