-- ==== Sys2Proof/Machine/Mem.lean ====
section
/-! DEFINITION. The memory path (R190 to R217): C0 budgets, routes between dies, served reads and writes, poison, pseudo-channel
moves, flit replays, and memory key rotation (R304, R305). -/

namespace Sys2Proof.Machine

/-! ## C0 at a point (R208) -/

/-- The pseudo-channel that holds a block (R194); which one is not defined. -/
def Stack.pcOf (x : Stack) (ms block : Nat) : Nat :=
  let live := (List.range 64).filter fun p => !x.pcRetired.getLsbD p
  live.getD (Config.pcMap ms x.pcRetired block % live.length) 0

/-- A C0 request at a pseudo-channel takes a token, or is served as C1 and counted (R208). -/
def Stack.takeC0 (x : Stack) (pc now : Nat) : Stack :=
  let e := (x.c0.find? fun (y : Nat × Nat × Nat) => y.1 == pc).getD (pc, bucketMax, now)
  let f := refill e.2.1 e.2.2 now x.tokenRate
  let rest := x.c0.filter fun (y : Nat × Nat × Nat) => y.1 != pc
  if tokenUnit ≤ f then { x with c0 := (pc, f - tokenUnit, now) :: rest }
  else { x with c0 := (pc, f, now) :: rest, c0Over := x.c0Over.satAdd 1 }

/-- A C0 request at an outbound edge direction (R208). -/
def Edge.takeC0 (x : Edge) (now : Nat) : Edge :=
  let f := refill x.c0.1 x.c0.2 now x.tokenRate
  if tokenUnit ≤ f then { x with c0 := (f - tokenUnit, now) } else { x with c0 := (f, now), c0Over := x.c0Over.satAdd 1 }

/-! ## Routes (R203, R204) -/

/-- The die at the far end of a local edge (R215). -/
def edgeFar (d e : Nat) : Nat := match e with | 0 => d ^^^ 1 | 1 => d - 2 | _ => d + 2

/-- Whether an edge exists in this variant (R15, R215). -/
def State.edgePresent (s : State) (d : Fin 8) (e : Fin 3) : Bool :=
  s.populated d && (if e.val = 1 then decide (2 ≤ d.val) else s.populated (edgeFar d e))

/-- The edges from a die along its row to a column. -/
def rowPath : Nat → Nat → Nat → List (Nat × Nat)
  | 0, _, _ => []
  | n + 1, d, col =>
    if d / 2 = col then [] else if d / 2 < col then (d, 2) :: rowPath n (d + 2) col else (d, 1) :: rowPath n (d - 2) col

/-- The dimension-order route: along the row, then the column edge (R203). -/
def rowFirst (a b : Nat) : List (Nat × Nat) :=
  rowPath 4 a (b / 2) ++ (if a % 2 = b % 2 then [] else [(2 * (b / 2) + a % 2, 0)])

/-- The other route order: the column edge, then along the row (R204). -/
def columnFirst (a b : Nat) : List (Nat × Nat) :=
  if a % 2 = b % 2 then rowPath 4 a (b / 2) else (a, 0) :: rowPath 4 (a ^^^ 1) (b / 2)

/-- The edge at the far end that leads back. -/
def edgeBack (e : Nat) : Nat := match e with | 0 => 0 | 1 => 2 | _ => 1

/-- Whether every edge of a route has a lane group in service in both directions and both its ends lie in the suite. -/
def State.routeOk (s : State) (k : Fin 8) (p : List (Nat × Nat)) : Bool :=
  p.all fun (d, e) =>
    let far := edgeFar d e
    (s.dies[fin8 d].edges.toList[e]?.any fun x => x.groups != 0) &&
    (s.dies[fin8 far].edges.toList[edgeBack e]?.any fun x => x.groups != 0) &&
    decide (s.owner (fin8 d) = some k) && decide (s.owner (fin8 far) = some k)

/-- The route of a request between two dies of a suite, and whether it takes the order of R204; none where no route lies inside the
suite. -/
def State.route (s : State) (k : Fin 8) (a b : Nat) : Option (List (Nat × Nat) × Bool) :=
  if s.routeOk k (rowFirst a b) then some (rowFirst a b, false)
  else if columnFirst a b ≠ rowFirst a b ∧ s.routeOk k (columnFirst a b) then some (columnFirst a b, true)
  else none

/-- A request crosses the edges of its route: reroutes are counted (R204), and a C0 request takes a token at each (R208). -/
def State.crossEdges (s : State) (p : List (Nat × Nat)) (rerouted c0 : Bool) : State :=
  p.foldl (fun t x => t.modEdge (fin8 x.1) (Fin.ofNat 3 x.2) fun y =>
    let z := if c0 then y.takeC0 s.clk.time else y
    if rerouted then { z with rerouted := z.rerouted.satAdd 1 } else z) s

/-! ## Reads -/

/-- Poisoned lines of one pseudo-channel that mark it failing (R382, R394: a field beyond the primer's limit acts as it). -/
def State.pcLimit (s : State) : Nat := min (s.hlt.ctrl.toNat / 65536 % 256) s.policy.pcPoison

/-- 24 hours of module time. -/
def dayTclk : Nat := 86400000000000

/-- Count a line poisoned under R200 against its pseudo-channel, which fails at the limit within 24 h (R382). -/
def State.countPoison (s : State) (d : Fin 8) (i : Fin 12) (u : Nat) : State :=
  let x := s.stack d i
  let pc := x.pcOf (u / 2 ^ 30) (u / 16)
  let recent := (pc, s.clk.time) :: x.pcPoison.filter fun (y : Nat × Nat) => decide (s.clk.time < y.2 + dayTclk)
  let t := s.modStack d i fun y => { y with pcPoison := recent }
  if s.pcLimit ≤ (recent.filter fun (y : Nat × Nat) => y.1 == pc).length then t.failPc d i pc 5 else t

/-- A demanded line carries the marker: the task completes POISONED and one MEM_ERROR of kind 1 is logged for it (R200, R201). -/
def State.demandPoisoned (s : State) (k : Fin 8) (h : Option Nat) (u cls : Nat) : State :=
  match h.bind (s.task? k) with
  | some t => (s.taskMemError k t u 1 cls).worsen k t.h .poisoned
  | none => s

/-- A line outside the suite or unmapped: ACCESS_DENIED and one MEM_ERROR of kind 2 for the task (R195). -/
def State.demandDenied (s : State) (k : Fin 8) (h : Option Nat) (u cls : Nat) : State :=
  match h.bind (s.task? k) with
  | some t => (s.taskMemError k t u 2 cls).worsen k t.h .accessDenied
  | none => s.memError k u 2 cls 0xFFFFFFFF

/-- Poison a line whose three reads failed (R200, R217); the event names the task that read it. -/
def State.failLine (s : State) (d : Fin 8) (i : Fin 12) (h : Option Nat) (u cls : Nat) : State :=
  let t := (s.poisonLine u).modStack d i fun y => { y with poisonCnt := y.poisonCnt.satAdd 1 }
  let step := match s.owner d with | some k => s.suites[k].step.toNat | none => 0xFFFFFFFF
  let id := ((s.owner d).bind fun k => (h.bind (s.task? k)).map (·.desc.taskId)).getD 0xFFFFFFFF
  (t.dieEvent d 0x150 i (pack [(5, u), (1, u / 2 ^ 30), (1, 0), (1, cls), (4, id), (4, step)])).countPoison d i u

/-- Serve the read of one reachable line whose tag fails `n` times (R200): a set marker returns at once. -/
def State.readLine (s : State) (k : Fin 8) (h : Option Nat) (u n cls : Nat) : State :=
  match homeOf u with
  | none => s
  | some (d, i) =>
    if s.poisoned u then s.demandPoisoned k h u cls
    else if 3 ≤ n ∨ !(s.stack d i).filled then (s.failLine d i h u cls).demandPoisoned k h u cls
    else if 0 < n then s.modStack d i fun y => { y with tagRetry := y.tagRetry.satAdd 1 }
    else s

/-- The read of a partial write or of a merge add (R197, R200): one that a re-read heals is counted, and a third failing read poisons the line. -/
def State.rmwRead (s : State) (h : Option Nat) (u n cls : Nat) : State :=
  match homeOf u with
  | none => s
  | some (d, i) =>
    if s.poisoned u then s
    else if 3 ≤ n ∨ !(s.stack d i).filled then s.failLine d i h u cls
    else if n = 0 then s
    else s.modStack d i fun y => { y with tagRetry := y.tagRetry.satAdd 1 }

/-- Bytes that the panels and the relay engine read, for the step's report (R24): those of PRODUCT, SKIM, RELAY, EXCHANGE, MASK and TOPK tasks. -/
def State.countRead (s : State) (k d : Fin 8) (h : Option Nat) (u lines : Nat) : State :=
  match h.bind (s.task? k), homeOf u with
  | some t, some (src, _) =>
    if t.desc.type ∈ [1, 2, 3, 4, 6, 7] then s.modSuite k fun v => { v with reads := (d.val, src.val, 64 * lines) :: v.reads } else s
  | _, _ => s

/-! ## Requests (R203 to R211) -/

/-- A demand request holds an entry of the die's table (R206, R216). -/
def State.useEntry (s : State) (d : Fin 8) : State :=
  s.modDie d fun x => { x with trw := { x.trw with rqtPeakRun := max x.trw.rqtPeakRun (x.entriesUsed + 1) } }

/-- Whether a request names a die and a panel that can issue it, and a running task where it names one. -/
def State.mayRequest (s : State) (k d : Fin 8) (who : Option (Fin 104)) (h : Option Nat) : Bool :=
  decide (s.owner d = some k) && s.dies[d].inService && (match who with | some p => (s.panel d p).role == .enabled | none => true) &&
  (match h with | some n => (s.task? k n).any (fun t => decide (t.state = .running)) | none => true)

/-- The traffic class of a request (R207): C3 where it is speculative, C1 of an EXCHANGE task's data, C0 of a BARRIER, C2 of every other task's
loads, drains and fetches. A request of no task has the class that its sender gives it. -/
def State.classOf (s : State) (k : Fin 8) (h : Option Nat) (speculative : Bool) (cls : Fin 4) : Nat :=
  if speculative then 3
  else match h.bind (s.task? k) with
    | some t => if t.desc.type = 4 then 1 else if t.desc.type = 8 then 0 else 2
    | none => cls.val

/-- A demand request that finds no free entry of its class (R166, R206): it takes the entry of the panel's youngest speculative read, which is
cancelled. None where the panel holds none: the request waits, and the panel's owner yields the array (R42). -/
def State.takeEntry (s : State) (d : Fin 8) (who : Option (Fin 104)) (full : Bool) : State × Bool :=
  if !full then (s, true)
  else match who with
    | none => (s, false)
    | some p =>
      match (s.panel d p).spec.find? fun y => !y.came with
      | some y => ((s.countAhead d 0 0 y.lines).modPanel d p fun x => { x with spec := x.spec.erase y }, true)
      | none =>
        (s.modPanel d p fun x => match x.owner with
          | none => x
          | some o => { x with owner := none, bankA := .free, bankB := .free,
                               threads := x.threads.map fun w => if w.id == o && w.started && w.saved.isNone then
                                 { w with saved := some (x.bankA, x.bankB), readyAt := s.clk.time } else w }, false)

/-- A request crosses to its home stack (R203, R204, R208): edges, tokens, reroutes. None where no route lies inside the suite: the task's part
completes DISABLED. -/
def State.travel (s : State) (k d : Fin 8) (h : Option Nat) (unit : Nat) (home : Fin 8) (i : Fin 12) (c0 : Bool) : State × Bool :=
  match s.route k d home with
  | none => (match h with | some n => s.worsen k n .disabled | none => s, false)
  | some (p, alt) =>
    let s1 := (s.useEntry d).crossEdges p alt c0
    (if c0 then s1.modStack home i fun y => y.takeC0 (y.pcOf (unit / 2 ^ 30) (unit / 16)) s.clk.time else s1, true)

/-- The number of failing reads that a command gives for line `j` of its request. -/
def failsOf (fails : List (Nat × Nat)) (j : Nat) : Nat := ((fails.find? fun (y : Nat × Nat) => y.1 == j).map (·.2)).getD 0

/-- A speculative read of a panel (R166): it holds an entry while fewer than RA_DEPTH do, is never issued outside the suite, and no failure or
correction of it is counted. -/
def State.specIssue (s : State) (k d : Fin 8) (who : Option (Fin 104)) (h : Option Nat) (unit lines : Nat) : State :=
  match who, h with
  | some p, some n =>
    let x := s.dies[d].skm
    if !x.raEn || decide (x.depth ≤ (s.panel d p).specHeld) || !s.reachable k unit then s
    else
      let s1 := (s.countAhead d lines 0 0).modPanel d p fun y => { y with spec := { unit := unit, lines := lines, h := n, came := false } :: y.spec }
      s1.modDie d fun y => { y with trw := { y.trw with rqtPeakRun := max y.trw.rqtPeakRun y.entriesUsed } }
  | _, _ => s

/-- MEMORY_READ (R195, R200, R201, R203 to R208, R213): a read request of 1 to 16 lines within one 1 KiB block, by panel `who` or by the relay
engine. `fails` gives, by line of the request, how many of its reads fail the tag; `ecc` the on-die corrections the DRAM reports; `late` a C0 read
beyond its bound; `full` that no entry of its class is free. -/
def execMemoryRead (k d : Fin 8) (who : Option (Fin 104)) (h : Option Nat) (unit lines : Nat) (fails : List (Nat × Nat)) (ecc : Nat)
    (cls : Fin 4) (speculative late full : Bool) (s : State) : Out :=
  .next <|
    if lines = 0 ∨ unit / 16 ≠ (unit + lines - 1) / 16 ∨ !s.mayRequest k d who h then s
    else if speculative then s.specIssue k d who h unit lines
    else
      let c := s.classOf k h false cls
      match homeOf unit with
      | none => s.demandDenied k h unit c
      | some (home, i) =>
        if !s.reachable k unit then s.demandDenied k h unit c
        else match s.takeEntry d who full with
          | (s0, false) => s0
          | (s0, true) => match s0.travel k d h unit home i (c == 0) with
            | (s1, false) => s1
            | (s1, true) =>
              let s2 := s1.modStack home i fun y => { y with eccCorr := y.eccCorr.satAdd ecc }
              let s3 := if c == 0 && late then s2.modDie d fun x => { x with trw := { x.trw with c0Late := x.trw.c0Late.satAdd 1 } } else s2
              ((List.range lines).foldl (fun t j => t.readLine k h (unit + j) (failsOf fails j) c) s3).countRead k d h unit lines

/-- The first line, the number of lines, and whether line `j` is wholly supplied, of a write of `n` bytes at offset `off` of line `unit`. -/
def wholeLine (off n j : Nat) : Bool := decide (off ≤ 64 * j) && decide (64 * j + 64 ≤ off + n)

/-- MEMORY_WRITE (R195, R197, R200, R206): bytes of the lines of one 1 KiB block, from offset `off` of line `unit`. A whole line clears the marker;
a partial write into a line that is poisoned, or whose read fails its tag three times, stores its bytes and leaves the line poisoned. `fails` and
`ecc` are those of the lines that a partial write reads. -/
def execMemoryWrite (k d : Fin 8) (who : Option (Fin 104)) (h : Option Nat) (unit off : Nat) (bytes : List Byte) (cls : Fin 4)
    (fails : List (Nat × Nat)) (ecc : Nat) (full : Bool) (s : State) : Out :=
  .next <|
    let lines := cdiv (off + bytes.length) 64
    if bytes = [] ∨ 64 ≤ off ∨ unit / 16 ≠ (unit + lines - 1) / 16 ∨ !s.mayRequest k d who h then s
    else
      let c := s.classOf k h false cls
      match homeOf unit with
      | none => s.demandDenied k h unit c
      | some (home, i) =>
        if !s.reachable k unit then s.demandDenied k h unit c
        else match s.takeEntry d who full with
          | (s0, false) => s0
          | (s0, true) => match s0.travel k d h unit home i (c == 0) with
            | (s1, false) => s1
            | (s1, true) =>
              let part := (List.range lines).filter fun j => !wholeLine off bytes.length j
              let s2 := if part.isEmpty then s1 else s1.modStack home i fun y => { y with eccCorr := y.eccCorr.satAdd ecc }
              let s3 := part.foldl (fun t j => t.rmwRead h (unit + j) (failsOf fails j) c) s2
              let s4 := s3.write (64 * unit + off) bytes
              let scaleTask := (h.bind (s.task? k)).any fun t => decide (t.desc.type = 9 ∨ (t.desc.type = 2 ∧ 2 ≤ t.desc.mode))
              if scaleTask then s4 else s4.slotWrite k (64 * unit + off) bytes.length

/-! ## Retirement moves and flit replays -/

/-- PC_RETIREMENT_MOVE (R196): the base die moves lines before the commit; a line that cannot be read is poisoned and counted in the
CAPACITY_CHANGED event. In a die of no suite the retirement commits at once. -/
def execPcRetirementMove (d : Fin 8) (i : Fin 12) (pc : Fin 64) (unreadable : List Nat) (s : State) : Out :=
  let x := s.stack d i
  if !(x.pcPending.any fun (q : Nat × Nat) => q.1 == pc.val) then .next s
  else
    let w := (12 * d.val + i.val) * 2 ^ 30
    let cap := x.cap - 0xFC0000 * x.pcPending.length
    let bad := unreadable.filter fun u => decide (w ≤ u) && decide (u < w + cap) && !s.poisoned u
    let s1 := bad.foldl (fun t u => t.poisonLine u) s
    let s2 := s1.modStack d i fun y => { y with moveLost := y.moveLost + bad.length }
    .next (if s.owner d = none then s2.commitStack d i 0xFFFFFFFF else s2)

/-- D2D_FLIT_REPLAY (R382, R383): `replays` on the group within 1 ms; more than 16 x EDGE_RETRY retire it. -/
def execD2dFlitReplay (d : Fin 8) (e : Fin 3) (g : Fin 16) (replays : Nat) (s : State) : Out :=
  let lim := 16 * min (s.hlt.ctrl.toNat / 256 % 256) s.policy.edgeRetry
  if s.edgePresent d e && decide (lim < replays) then .next (s.retireGroup d e g 7) else .next s

/-! ## Line metadata (R199) -/

/-- The key epoch of a page of a stack (R199): while a re-encryption runs, the record tells for each page whether it is still under the epoch
before; the order in which pages are done is free (log 6). -/
def State.pageEpoch (s : State) (d : Fin 8) (i : Fin 12) (page : Nat) : Nat :=
  let x := s.stack d i
  if x.reenc && Config.pageBehind (12 * d.val + i.val) x.pages page then x.prevEpoch else x.epoch

/-- The 8 metadata bytes of a line (R199): its 56-bit tag, bound to its address, the epoch of its page and its bytes, and 8 bits of line state, one
of which is the poison marker. -/
def State.lineMeta (s : State) (u : Nat) : BitVec 64 :=
  let epoch := match homeOf u with | some (d, i) => s.pageEpoch d i (u % 2 ^ 30 / 1024) | none => 0
  let st := Config.lineState u
  let bit := Config.poisonBit.val
  let marked := if s.poisoned u then st ||| ((1 : BitVec 8) <<< bit) else st &&& ~~~((1 : BitVec 8) <<< bit)
  Config.lineTag epoch u (s.bytes (64 * u) 64) ++ marked

/-! ## Memory key rotation -/

/-- Start a rotation on a stack, or queue it behind the one that runs (R305). The epoch skips 0, which only a scrub fill uses. -/
def Stack.rotate (x : Stack) : Stack :=
  if x.reenc then { x with rotQueued := true }
  else { x with reenc := true, prevEpoch := x.epoch, epoch := if x.epoch = 0xFFFF then 1 else x.epoch + 1, pages := x.cap / 1024 }

/-- Start a rotation on every stack of a suite (R305). -/
def State.rotateSuite (s : State) (k : Fin 8) : State :=
  (s.liveDies k).foldl (fun t d => t.modDie d fun x => { x with stks := x.stks.map Stack.rotate }) s

/-- MEM_KEY_ROTATION_START (R305): the interval of SUI_MEMROTk has elapsed; 0 sets no interval. -/
def execMemKeyRotationStart (k : Fin 8) (s : State) : Out :=
  let u := s.suites[k]
  if u.memRot = 0 ∨ u.key = none ∨ u.st = .absent then .next s else .next (s.rotateSuite k)

/-- REENCRYPTION_DONE (R304, R305): the old epoch's keys are destroyed, KEY_ROTATED is logged, and a queued rotation starts. -/
def execReencryptionDone (d : Fin 8) (i : Fin 12) (s : State) : Out :=
  let x := s.stack d i
  if !x.reenc then .next s
  else
    let s1 := s.modStack d i fun y => { y with reenc := false, pages := 0, rotQueued := false }
    let s2 := s1.dieEvent d 0x193 i (pack [(1, 0), (3, 0), (2, x.epoch), (2, 0), (4, 12 * d.val + i.val), (4, 0)])
    .next (if x.rotQueued then s2.modStack d i Stack.rotate else s2)

end Sys2Proof.Machine
end

