-- ==== Sys2Proof/Machine/Panel.lean ====
section
/-! DEFINITION. Panels and threads: the array's owner, banks, preemption, drains and the checker (R42 to R44, R96 to R99), paired products
(R175, R176), spares (R385), panel-store errors (R382), and stealing (R49). -/

namespace Sys2Proof.Machine

/-- The task of a tile. -/
def State.tileTask (s : State) (x : Tile) : Option Task := s.task? (fin8 x.k) x.h

/-- Whether a task is a deferred one on a die (R178): FLAGS.DEFERRED, or a PHASE 3 PRODUCT under FORCE_DEFER. -/
def TaskDesc.defers (t : TaskDesc) (force : Bool) : Bool := t.deferred || (t.type == 1 && t.phase == 3 && force)

/-- Whether a die's trowel still has a non-deferred task of the step to dispatch (R178): one that is fetched, or one that the program holds before
its next END. -/
def State.moreOrdinary (s : State) (k d : Fin 8) : Bool :=
  let u := s.suites[k]
  let force := s.dies[d].trw.bwd.getLsbD 31
  let on := fun (t : TaskDesc) => t.dieMask.getLsbD d && !t.defers force
  u.tasks.any (fun t => t.program && t.state == .fetched && on t.desc) ||
  (match u.run with
   | none => false
   | some r => r.ended == 0 &&
      (((List.range (r.count - r.pc)).map fun i => parseTask (s.bytes (64 * r.prog + 128 * (r.pc + i)) 128)).takeWhile fun t =>
        !(t.type == 10 && t.mode == 1)).any on)

/-- Whether a thread's tile belongs to a deferred weight-gradient task (R178): until its die's trowel has dispatched the step's last non-deferred
task. -/
def State.isDeferred (s : State) (d : Fin 8) (x : Thread) : Bool :=
  match s.tileTask x.tile with
  | none => false
  | some t => t.desc.type == 1 && t.desc.phase == 3 && t.desc.defers (s.dies[d].trw.bwd.getLsbD 31) && s.moreOrdinary (fin8 x.tile.k) d

/-- A thread of a panel by number: the tile it holds is the first of its queue. -/
def Panel.thread? (x : Panel) (t : Nat) : Option Thread := x.threads.find? fun y => y.id == t

/-- Update the tile that thread `t` holds. -/
def modFirst (t : Nat) (f : Thread → Thread) : List Thread → List Thread
  | [] => []
  | x :: l => if x.id = t then f x :: l else x :: modFirst t f l

/-- Drop the tile that thread `t` holds, and put tiles in its place. -/
def swapFirst (t : Nat) (new : List Thread) : List Thread → List Thread
  | [] => []
  | x :: l => if x.id = t then new ++ l else x :: swapFirst t new l

/-- The threads ready to compute: a held tile that has not started, or whose banks are saved (R42, R43). -/
def Panel.ready (x : Panel) : List Thread := ((List.range 64).filterMap x.thread?).filter fun y => !y.started || y.saved.isSome

/-! ## Paired products (R175, R176) -/

/-- Whether a tile is to run paired on a die (R175, R176): stolen slices do not. -/
def State.isPaired (s : State) (d : Fin 8) (x : Tile) : Bool :=
  match s.tileTask x with
  | none => false
  | some t => t.paired.contains (d.val, x)

/-- The threads of a panel whose tiles run paired, of the suite of a thread. -/
def State.pairThreads (s : State) (d : Fin 8) (p : Fin 104) (x : Thread) : List Thread :=
  if s.isPaired d x.tile then (s.panel d p).threads.filter fun y => y.tile.k == x.tile.k && s.isPaired d y.tile else []

/-- The dispatch order of a thread: a pair competes as a unit (R176). -/
def State.orderOf (s : State) (d : Fin 8) (p : Fin 104) (x : Thread) : Nat := (s.pairThreads d p x).foldl (fun a y => min a y.order) x.order

/-- Whether strict alternation gives the array to the other task of a thread's pair (R176): an input-gradient tile comes first, and after a tile
of one task one of the other, while the panel holds any. -/
def State.pairTurn (s : State) (d : Fin 8) (p : Fin 104) (x : Thread) : Bool :=
  let ts := s.pairThreads d p x
  let isW := fun (y : Tile) => (s.tileTask y).any fun t => t.desc.mode == 2
  let ran := fun (y : Thread) => (s.panel d p).lastRun == some (y.tile.k, y.tile.h)
  let mate := ts.filter fun y => y.tile.h != x.tile.h
  !mate.isEmpty && (ran x || (isW x.tile && !mate.any ran))

/-- Urgency of a thread: deferred last (R178), then the PRIORITY lowered by its age boosts, then dispatch order (R42), then alternation (R176). -/
def State.before (s : State) (d : Fin 8) (p : Fin 104) (a b : Thread) : Bool :=
  let pa : Int := (a.prio : Int) - a.boosts
  let pb : Int := (b.prio : Int) - b.boosts
  let da := s.isDeferred d a
  let db := s.isDeferred d b
  let oa := s.orderOf d p a
  let ob := s.orderOf d p b
  (!da && db) || (da == db && (decide (pa < pb) || (decide (pa = pb) && (decide (oa < ob) || (decide (oa = ob) && !s.pairTurn d p a && s.pairTurn d p b)))))

/-! ## A unit on the array -/

/-- A tile's unit: its task, the checked product, the product whose operands it reads (the skim copies in the skim of a SKIM), and its rows. -/
structure UnitCtx where
  t : Task
  p : Prod
  q : Prod
  rows : List ARow
  skim : Bool
  deriving DecidableEq, Repr

/-- The unit of a tile of a running task (R132, R153), as its suite sees memory (R195). -/
def State.unitCtx (s : State) (x : Tile) : Option UnitCtx :=
  let k := fin8 x.k
  match s.tileTask x with
  | none => none
  | some t =>
    if t.state ≠ .running then none
    else
      let v := s.view k
      match v.panelCheck k t with
      | .error _ => none
      | .ok p =>
        let skim := p.r.skim && x.part == 0
        let q := if skim then p.skimProd else p
        some { t := t, p := p, q := q, skim := skim, rows := if skim then v.tileRows k q x.batch x.row x.col else v.unitRows k p x }

/-- Pairs per TCLK of the product's formats (R82). -/
def pairRate (fa fb : Fmt) : Nat :=
  let four := fun (f : Fmt) => f == .t2 || f == .int4 || f == .e2m1
  if fa = .t2 ∧ fb = .t2 then 4 else if four fa && four fb then 2 else 1

/-- Operands that a row issues for each K position (R133, R136, R138): one, or the pair rate where each TCLK of issue counts as one. -/
def Prod.perK (p : Prod) : Nat := if p.A.layout = .st ∨ p.r.mode ≠ 0 then pairRate p.A.fmt p.B.fmt else 1

/-- The operands of a row that have entered the array after `kPos` K positions: an M4 row walks all positions (R133, R145), the others issue what
they store. -/
def Prod.entered (p : Prod) (kPos : Nat) (ops : List (Nat × Ent)) : List (Nat × Ent) :=
  if p.A.layout = .m4 then ops.filter fun x => decide (x.1 < p.perK * kPos) else ops.take (p.perK * kPos)

/-- The K positions that a unit enters. -/
def UnitCtx.kEnd (c : UnitCtx) : Nat :=
  (c.rows.map fun r => cdiv (if c.q.A.layout = .m4 then r.ops.foldl (fun a x => max a (x.1 + 1)) 0 else r.ops.length) c.q.perK).foldl max 0

/-- Let a bank's unit enter K positions up to `kPos`: its cells and its checker cells accumulate (R84, R96). -/
def State.advance (s : State) (c : UnitCtx) (kPos : Nat) (b : Bank) : Bank :=
  let k := match b.tile with | some x => fin8 x.k | none => 0
  let v := s.view k
  let step := fun (r : ARow) => (c.q.entered kPos r.ops).drop (c.q.entered b.kPos r.ops).length
  { b with kPos := max b.kPos kPos,
           cells := (c.rows.zip b.cells).map fun x => v.runRow k c.q x.1 (step x.1) x.2,
           checker := (c.rows.zip b.checker).map fun x => x.1.cells.foldl (fun a y => chkRun a (v.cellOps k c.q x.1.b y.1 (step x.1))) x.2 }

/-- A bank that takes a unit (R85, R98, R142): the pre-pass fixes the grids, the accumulator input is loaded, and the checker starts from it. -/
def State.newBank (s : State) (x : Tile) (c : UnitCtx) : Bank :=
  let k := fin8 x.k
  let v := s.view k
  let u := v.unitStart k c.t c.q [] x c.rows
  let cells := u.rows.map (·.2)
  { state := .computing, tile := some x, kPos := 0, cells := cells,
    checker := cells.map fun l => l.foldl (fun a y => exAdd a (y.v, y.g)) (0, 0), drained := 0 }

/-- A unit as its bank holds it. -/
def State.bankRun (s : State) (x : Tile) (c : UnitCtx) (cells : List (List Cell)) : UnitRun :=
  let v := s.view (fin8 x.k)
  let u := v.unitStart (fin8 x.k) c.t c.q [] x c.rows
  { u with rows := (c.rows.zip cells) }

/-- The bank of a panel whose unit computes: its last products enter and it settles (R98). -/
def State.settleBank (s : State) (b : Bank) : Bank :=
  match b.state, b.tile with
  | .computing, some x => match s.unitCtx x with
    | some c => { s.advance c c.kEnd b with state := .settling }
    | none => { b with state := .settling }
  | _, _ => b

/-- The owner's unit has entered its last K position: its bank settles, and the array is free (R44, R98). -/
def State.settleOwner (s : State) (d : Fin 8) (p : Fin 104) : State :=
  s.modPanel d p fun y => { y with owner := none, bankA := s.settleBank y.bankA, bankB := s.settleBank y.bankB }

/-- What a task does before its first unit starts (R156, R181 to R183): its stack frame, and the binding of its map. None when it does not run: its
status is then set. -/
def State.openTask (s : State) (x : Tile) (c : UnitCtx) : State × Bool :=
  let k := fin8 x.k
  let (s1, run) := ((s.view k).beginProd k c.t c.p)
  let s2 := s.merge k s1
  if !run then (s2.finish k x.h .formatError, false)
  else if c.p.r.skim then
    (if s2.suites[k].bindFull c.p.r.map then (s2.finish k x.h .busy, false)
     else (s2.modSuite k fun v => v.bind c.p.r.map (c.t.desc.arg 10 2), true))
  else (s2, true)

/-- The run-ahead of the skim that a thread starts (R165 to R167): the panel keeps the speculative reads until the skim has drained. At most
RA_DEPTH of them hold an entry: the responses of the older ones have arrived. -/
def State.fetchAhead (s : State) (d : Fin 8) (p : Fin 104) (x : Tile) (c : UnitCtx) : State :=
  if !c.skim || !s.runsAhead c.t c.p d then s
  else
    let ls := (s.view (fin8 x.k)).aheadLines c.p x
    let young := ls.length - s.dies[d].skm.depth
    let new := (ls.zipIdx.map fun l => ({ unit := l.1.2, lines := 1, h := x.h, came := decide (l.2 < young) } : SpecRead)).reverse
    let s1 := (s.countAhead d ls.length 0 0).modPanel d p fun y => { y with spec := new ++ y.spec.map fun z => { z with came := true } }
    s1.modDie d fun y => { y with trw := { y.trw with rqtPeakRun := max y.trw.rqtPeakRun y.entriesUsed } }

/-- Thread `t` takes the array of a panel whose owner has gone (R42, R43, R85, R98): its saved banks are restored, or a free bank takes its tile.
None where it cannot start: no bank is free, its task does not run, or its grid group's extremes are not complete. The state then tells what was
done on the way. -/
def State.takeArray (s : State) (d : Fin 8) (p : Fin 104) (th : Thread) : State × Bool :=
  let x := s.panel d p
  let own := fun (u : State) => u.modPanel d p fun y =>
    { y with owner := some th.id, lastRun := some (th.tile.k, th.tile.h),
             threads := modFirst th.id (fun w => { w with started := true, saved := none }) y.threads }
  match th.saved with
  | some (a, b) =>
    if x.bankA.state = .free ∧ x.bankB.state = .free then (own (s.modPanel d p fun y => { y with bankA := a, bankB := b }), true) else (s, false)
  | none =>
    if x.bankA.state ≠ .free ∧ x.bankB.state ≠ .free then (s, false)
    else match s.unitCtx th.tile with
      | none => (s, false)
      | some c =>
        let k := fin8 th.tile.k
        let (s1, run) := s.openTask th.tile c
        let ts := if c.p.r.epi.groupEn then rowTiles c.rows else []
        let s2 := if run then s1.merge k ((s1.view k).reportExtremes k th.tile.h c.q ts) else s1
        if !run || !s2.groupReady k th.tile.h c.q ts then (s2, false)
        else
          let bank := s2.newBank th.tile c
          ((own (s2.modPanel d p fun y => if y.bankA.state = .free then { y with bankA := bank } else { y with bankB := bank })).fetchAhead d p
            th.tile c, true)

/-- TILE_START (R42, R85, R98, R142): the most urgent ready thread takes the array; the tile that held it has entered its last K position and
settles. Any other thread, and a panel that is not in service and RUNNING, leaves the array as it is. -/
def execTileStart (d : Fin 8) (p : Fin 104) (t : Fin 64) (s : State) : Out :=
  let x := s.panel d p
  .next <|
    match x.ready.find? fun y => y.id == t.val with
    | none => s
    | some th =>
      if x.role != .enabled || x.fn.st != .running || x.ready.any (fun y => y.id != t.val && s.before d p y th) then s
      else
        let (u, ok) := (s.settleOwner d p).takeArray d p th
        if ok || x.owner.isNone then u
        else (u.modPanel d p fun y => { y with owner := x.owner, bankA := x.bankA, bankB := x.bankB })

/-- THREAD_AGE_PROMOTION (R42, R178): a ready thread that has waited longer than TRW_AGE.LIMIT for another period becomes one level
more urgent; a deferred weight-gradient task does not while non-deferred tasks of the step remain to dispatch. -/
def execThreadAgePromotion (d : Fin 8) (p : Fin 104) (t : Fin 64) (s : State) : Out :=
  let x := s.panel d p
  .next <|
    match x.ready.find? fun y => y.id == t.val with
    | none => s
    | some th =>
      let limit := s.dies[d].trw.age.toNat % 2 ^ 20 * 16384
      if decide (s.clk.time ≤ th.readyAt + limit * (th.boosts + 1)) || s.isDeferred d th then s
      else s.modPanel d p fun y => { y with threads := modFirst t (fun w => { w with boosts := w.boosts + 1 }) y.threads }

/-- The next screed window boundary of a bank (R43): a multiple of 256 K positions beyond those entered. DESIGN CHOICE (log 63) for a unit that
stands at a boundary: the window it is about to enter still runs. -/
def Bank.boundary (b : Bank) : Nat := 256 * (b.kPos / 256 + 1)

/-- Let the owner's computing bank run to its window boundary (R43). -/
def State.toBoundary (s : State) (c : UnitCtx) (b : Bank) : Bank :=
  if b.state = .computing then s.advance c b.boundary b else b

/-- THREAD_PREEMPT (R43, R44, R99): a ready thread of more urgent priority takes the array from its owner at the owner's next window boundary; both
banks are saved with their flags, checker cells, grids, K and drain positions, and the incoming thread's are restored. An owner that reaches its
last K position there completes, and nothing is saved. A deferred task never preempts (R178), and the owner's speculative reads are cancelled
(R167). -/
def execThreadPreempt (d : Fin 8) (p : Fin 104) (t : Fin 64) (s : State) : Out :=
  let x := s.panel d p
  .next <|
    match x.owner.bind x.thread?, x.ready.find? fun y => y.id == t.val with
    | some ow, some th =>
      if s.isDeferred d th || !decide ((th.prio : Int) - th.boosts < (ow.prio : Int) - ow.boosts) ||
         x.ready.any (fun y => y.id != t.val && s.before d p y th) then s
      else match s.unitCtx ow.tile with
        | none => s
        | some c =>
          let kp := if x.bankA.tile = some ow.tile then x.bankA.boundary else x.bankB.boundary
          if c.kEnd ≤ kp then s.settleOwner d p
          else
            let s1 := (s.cancelSpec d p fun y => y.h == ow.tile.h).modPanel d p fun y =>
              { y with owner := none, bankA := .free, bankB := .free,
                       threads := modFirst ow.id (fun w => { w with saved := some (s.toBoundary c y.bankA, s.toBoundary c y.bankB),
                                                                    readyAt := s.clk.time }) y.threads }
            let (u, ok) := s1.takeArray d p th
            if ok then u else s
    | _, _ => s

/-! ## Drain and checker -/

/-- The tile that drains next: the one that settles, or else the owner's, which completes. -/
def Panel.drainTile (x : Panel) : Option Tile :=
  if x.bankA.state = .settling then x.bankA.tile
  else if x.bankB.state = .settling then x.bankB.tile
  else if x.bankA.state = .computing then x.bankA.tile
  else if x.bankB.state = .computing then x.bankB.tile
  else none

/-- The tile that waits for its recompute. -/
def Panel.failedTile (x : Panel) : Option Tile :=
  if x.bankA.state = .draining then x.bankA.tile else if x.bankB.state = .draining then x.bankB.tile else none

/-- The bank that holds a tile. -/
def Panel.bankOf (x : Panel) (tl : Tile) : Bank := if x.bankA.tile = some tl then x.bankA else x.bankB

/-- The thread that holds a tile. -/
def Panel.holder (x : Panel) (tl : Tile) : Option Thread := x.threads.find? fun y => y.tile == tl

/-- Free the bank that holds a tile and put `new` tiles in its place in its thread; the thread's next tile becomes ready now. -/
def Panel.release (x : Panel) (time : Nat) (tl : Tile) (new : List Tile) : Panel :=
  let y := { x with bankA := if x.bankA.tile = some tl then .free else x.bankA, bankB := if x.bankB.tile = some tl then .free else x.bankB }
  match x.holder tl with
  | none => y
  | some th =>
    let fresh := new.map fun z => ({ th with tile := z, started := false, tries := 0, boosts := 0, saved := none } : Thread)
    { y with owner := if x.owner = some th.id then none else x.owner,
             threads := modFirst th.id (fun w => { w with readyAt := time }) (swapFirst th.id fresh x.threads) }

/-- Faults of the accumulators and of the checker cells (R96): row, cell (64 is the checker's), and the units by which it is off. -/
abbrev Upsets := List (Fin 64 × Fin 65 × Int)

/-- The cells and the checker cells of a unit with faults in them. -/
def upsetCells (us : Upsets) (cells : List (List Cell)) (chk : List (Int × Int)) : List (List Cell) × List (Int × Int) :=
  let off := fun r c => (us.filter fun u => u.1.val == r && u.2.1.val == c).foldl (fun a u => a + u.2.2) 0
  (cells.zipIdx.map fun x => x.1.zipIdx.map fun y => { y.1 with v := y.1.v + off x.2 y.2 },
   chk.zipIdx.map fun x => exAdd x.1 (off x.2 64, ((cells.getD x.2 []).head?.map (·.g)).getD 0))

/-- Number of the first row of a unit that fails its check (R96). -/
def failRow (cells : List (List Cell)) (chk : List (Int × Int)) : Option Nat :=
  (cells.zip chk).findIdx? fun x => !rowPasses x.1 x.2

/-- Write what a unit drains (R97, R101, R139), and release its panel's bank and thread: C and the other outputs, or the map of a skim, whose
product its thread then takes up; the raw parts of split rows wait for their merge adds. `fed` says that the unit is written poisoned, every
computation having failed (R97). -/
def State.unitDone (s : State) (d : Fin 8) (p : Fin 104) (tl : Tile) (c : UnitCtx) (cells : List (List Cell)) (fed : Bool) : State :=
  let k := fin8 tl.k
  let run0 := s.bankRun tl c cells
  let run := { run0 with pois := run0.pois || fed, tiles := run0.tiles.map fun x => { x with pois := x.pois || fed } }
  let v := s.view k
  let outs := v.unitOuts k c.q run
  let parts := run.parts d p
  let x : SkimTile :=
    let o := (run.tiles.head?.map fun y => { y with els := outs.flatMap (·.els) }).getD (v.outTile k c.t c.q tl.batch tl.row tl.col)
    let (rows, bad) := v.skimTile k c.p (s.suites[k].skimAddr (c.t.desc.arg 10 2)) o
    { run := run, out := o, rows := rows, pois := o.pois || bad }
  let done := (v.prodUnits k tl.h c.p).filter c.t.tilesDone.contains
  let before := if c.p.r.mode = 2 ∧ !c.p.r.epi.raw then done.flatMap fun z => v.unitOuts k c.p (v.unitRun k c.t c.p [] z (v.unitRows k c.p z)) else []
  let s1 := s.confine k fun u =>
    if c.skim then u.skimDrain k c.t c.p [x] else u.tilesDrain u k c.t c.p outs (c.p.closeGroups true outs before)
  let s2 := (s1.chargeUnits k c.t (some (d, p)) [run]).modTask k tl.h fun y => { y with tilesDone := tl :: y.tilesDone, parts := y.parts ++ parts }
  let s3 := if c.skim && s2.runsAhead c.t c.p d then
      let on := (s2.view k).issuedRows c.p tl.batch tl.row tl.col
      let lines := on.flatMap c.p.rowLines
      let mine := (s2.panel d p).spec.filter fun y => y.h == tl.h
      let used := sumL ((mine.filter fun y => lines.contains y.unit).map (·.lines))
      let n := sumL (mine.map (·.lines))
      (s2.countAhead d 0 used (n - used)).modPanel d p fun y => { y with spec := y.spec.filter fun z => z.h != tl.h }
    else s2
  let bad := if c.skim then x.pois else outs.any (·.pois) || parts.any (·.pois)
  let s4 := if bad && !fed then s3.reportAccess k c.t (some (s.firstPoison c.q)) none else if fed then s3.worsen k tl.h .poisoned else s3
  let next := if c.skim && !c.p.r.predict then (s4.view k).fusedUnits c.p tl else []
  s4.modPanel d p fun y => { y.release s.clk.time tl next with chkSkipped := sat16 y.chkSkipped run.satRows }

/-- Log CHECK_MISMATCH and count the tile (R97, R105, R106). The flags say whether it repeats within the window and whether the panel
is retired for it. -/
def State.mismatch (s : State) (d : Fin 8) (p : Fin 104) (tl : Tile) (c : UnitCtx) (row : Nat) (rep ret : Bool) : State :=
  let s1 := s.modPanel d p fun y => { y with chkMismatch := sat16 y.chkMismatch 1, lastMismatch := some s.clk.time }
  let at_ : Nat × Nat := match c.rows[row]? with
    | some r => (64 * (r.m / 64), 64 * (((r.cells.head?.map (·.1)).getD 0) / 64))
    | none => (64 * tl.row, 64 * tl.col)
  s1.suiteEvent (fin8 tl.k) 0x111 d 0 (pack [(4, c.t.desc.taskId), (1, p.val), (1, b2n rep + 2 * b2n ret), (4, at_.1), (4, at_.2)])

/-- Whether a mismatch now would be the second within PNL_CHK_CTRL.WINDOW (R97, units of 2^20 TCLK). -/
def State.repeats (s : State) (d : Fin 8) (p : Fin 104) : Bool :=
  match (s.panel d p).lastMismatch with
  | none => false
  | some m => decide (s.clk.time - m ≤ (s.panel d p).chkCtrl.toNat % 2 ^ 24 * 2 ^ 20)

/-- Whether a checker failure may retire a panel (R97, R388). -/
def State.chkRetire (s : State) (d : Fin 8) (p : Fin 104) : Bool := (s.panel d p).chkCtrl.getLsbD 31 && s.retireAllowed

/-- A computation of a tile on a panel has failed its check (R97): the mismatch is logged, the attempt counted, and the panel retired, or its
retirement withheld, where `again` or a repeat within the window asks for it. Its tiles then move. -/
def State.failUnit (s : State) (d : Fin 8) (p : Fin 104) (tl : Tile) (c : UnitCtx) (row : Nat) (again : Bool) : State :=
  let rep := s.repeats d p
  let want := rep || again
  let s1 := s.mismatch d p tl c row rep (want && s.chkRetire d p)
  let s2 := s1.modPanel d p fun y =>
    let mark := fun (b : Bank) => if b.tile = some tl then { b with state := .draining, drained := row } else b
    { y with bankA := mark y.bankA, bankB := mark y.bankB,
             threads := y.threads.map fun w => if w.tile = tl then { w with tries := w.tries + 1 } else w }
  if want && (s.panel d p).chkCtrl.getLsbD 31 then s2.retirePanel d p 1 else s2

/-- The failed computations of a tile (R97). -/
def Panel.triesOf (x : Panel) (tl : Tile) : Nat := ((x.holder tl).map (·.tries)).getD 0

/-- TILE_DRAIN (R96 to R98, R101): the oldest tile's accumulators settle and drain. A passing tile is written and its bank cleared. A tile with a
failing row is not written: it waits for its recompute, or moves with the panel's other tiles when the panel is retired for a repeat; a third
failing computation writes it poisoned. A tile whose values wait for an APPLY to open stays in its bank (R256). `upsets` are the faults of this
computation. -/
def execTileDrain (d : Fin 8) (p : Fin 104) (upsets : Upsets) (s : State) : Out :=
  .next <|
    match (s.panel d p).drainTile with
    | none => s
    | some tl =>
      match s.unitCtx tl with
      | none => s.modPanel d p fun y => y.release s.clk.time tl []
      | some c =>
        if (s.view (fin8 tl.k)).streamWaits (fin8 tl.k) c.p then s else
        let b := s.settleBank ((s.panel d p).bankOf tl)
        let (cells, chk) := upsetCells upsets b.cells b.checker
        match failRow cells chk with
        | none => s.unitDone d p tl c cells false
        | some r =>
          if 2 ≤ (s.panel d p).triesOf tl then (s.unitDone d p tl c b.cells true).failUnit d p tl c r false
          else
            let s1 := (s.modPanel d p fun y => if y.bankA.tile = some tl then { y with bankA := b } else { y with bankB := b }).failUnit d p tl c r false
            if ((s1.panel d p).holder tl).isNone then s1.modTask (fin8 tl.k) tl.h fun y => { y with retried := true } else s1

/-- TILE_RECOMPUTE (R97): the failing tile of a panel is recomputed with the same grids. `own` are the faults of this computation, `other` those of
the one on another panel, which follows when this one fails too and the panel stays in service; when all fail, or the die has no other panel, the
tile is written poisoned. -/
def execTileRecompute (d : Fin 8) (p : Fin 104) (own other : Upsets) (s : State) : Out :=
  .next <|
    match (s.panel d p).failedTile with
    | none => s
    | some tl =>
      match s.unitCtx tl with
      | none => s.modPanel d p fun y => y.release s.clk.time tl []
      | some c =>
        if (s.view (fin8 tl.k)).streamWaits (fin8 tl.k) c.p then s else
        let s0 := s.modTask (fin8 tl.k) tl.h fun y => { y with retried := true }
        let b := s.settleBank (s.newBank tl c)
        let (cells, chk) := upsetCells own b.cells b.checker
        let third := decide (2 ≤ (s.panel d p).triesOf tl)
        match failRow cells chk with
        | none => s0.unitDone d p tl c cells false
        | some r =>
          if third then (s0.unitDone d p tl c b.cells true).failUnit d p tl c r true
          else
            let s1 := s0.failUnit d p tl c r true
            if ((s1.panel d p).holder tl).isNone then s1
            else match s1.otherPanel d p with
              | none => s1.unitDone d p tl c b.cells true
              | some q =>
                let (cells', chk') := upsetCells other b.cells b.checker
                match failRow cells' chk' with
                | none => s1.unitDone d p tl c cells' false
                | some r' => (s1.unitDone d p tl c b.cells true).failUnit d q tl c r' false

/-- SPARE_SELF_TEST_DONE (R12, R385): a spare that passes is reset and enabled; one that fails is retired and the next is tried. -/
def execSpareSelfTestDone (d : Fin 8) (p : Fin 104) (pass : Bool) (s : State) : Out :=
  .next <|
    if (s.panel d p).role ≠ .spare ∨ !(s.panel d p).selfTest then s
    else if pass then
      (if s.roleCount d .enabled < 96 then
        s.resetPanel d p fun x => { x with role := .enabled, fn := .running, selfTest := false }
       else s.modPanel d p fun x => { x with selfTest := false })
    else (s.retirePanel d p 4).startSpare d

/-- PANEL_STORE_ERROR (R382): a single-bit error is corrected and counted; a double-bit error makes the tile reload its operands and recompute, and
in a saved context makes the tiles of the context restart from their first K position; a second within the window marks the panel failing. -/
def execPanelStoreError (d : Fin 8) (p : Fin 104) (t : Fin 64) (double inContext : Bool) (s : State) : Out :=
  .next <|
    if !double then s.modPanel d p fun x => { x with storeCorr := sat16 x.storeCorr 1 }
    else
      let x := s.panel d p
      let again := match x.lastDouble with
        | none => false
        | some m => decide (s.clk.time - m ≤ x.chkCtrl.toNat % 2 ^ 24 * 2 ^ 20)
      let hit : List Tile := match x.thread? t with
        | none => []
        | some th => th.tile :: (if inContext then (match th.saved with | some (a, b) => a.tile.toList ++ b.tile.toList | none => []) else [])
      let s1 := s.modPanel d p fun y =>
        let clear := fun (b : Bank) => if !inContext && b.tile.any hit.contains then Bank.free else b
        { y with lastDouble := some s.clk.time, bankA := clear y.bankA, bankB := clear y.bankB,
                 owner := if !inContext && y.owner = some t.val then none else y.owner,
                 threads := y.threads.map fun w => if hit.contains w.tile then { w with started := false, saved := none } else w }
      let s2 := hit.foldl (fun u (z : Tile) => u.modTask (fin8 z.k) z.h fun y => { y with retried := true }) s1
      if again then s2.retirePanel d p 2 else s2

/-- Whether every tile of a slice on a panel is unstarted. -/
def Panel.sliceFree (x : Panel) (k h sl : Nat) : Bool :=
  x.threads.all fun y => !(y.tile.k == k && y.tile.h == h && y.slice == sl) || !y.started

/-- Unstarted tiles of a panel. -/
def Panel.unstarted (x : Panel) : Nat := (x.threads.filter fun y => !y.started).length

/-- The panel of a die with the most unstarted tiles. DESIGN CHOICE (log 62): among panels with equally many, the lowest-numbered. -/
def State.busiest (s : State) (d : Fin 8) : Option (Fin 104) :=
  (List.finRange 104).foldl (fun b q =>
    match b with
    | none => if 0 < (s.panel d q).unstarted then some q else none
    | some r => if (s.panel d r).unstarted < (s.panel d q).unstarted then some q else some r) none

/-- SLICE_STEAL (R49): with STEAL = 1, an enabled panel that holds no work takes the last unstarted slice from the panel of its die with
the most unstarted tiles. Stolen tiles run unpaired (R176). -/
def execSliceSteal (d : Fin 8) (thief : Fin 104) (s : State) : Out :=
  .next <|
    let x := s.panel d thief
    if !s.dies[d].trw.slice.getLsbD 31 || !x.threads.isEmpty || x.role != .enabled || x.fn.st != .running then s
    else match s.busiest d with
      | none => s
      | some v =>
        let y := s.panel d v
        match (y.threads.filter fun z => !z.started && y.sliceFree z.tile.k z.tile.h z.slice).getLast? with
        | none => s
        | some z =>
          let mine := fun (w : Thread) => w.tile.k == z.tile.k && w.tile.h == z.tile.h && w.slice == z.slice
          let s1 := s.modPanel d v fun u => { u with threads := u.threads.filter fun w => !mine w }
          let s2 := s1.modPanel d thief fun u => { u with threads := u.threads ++ y.threads.filter mine }
          let gone := (y.threads.filter mine).map (·.tile)
          s2.modTask (fin8 z.tile.k) z.tile.h fun w => { w with stolen := true, paired := w.paired.filter fun q => !gone.contains q.2 }

end Sys2Proof.Machine
end

