-- ==== Sys2Proof/Machine/Merge.lean ====
section
/-! DEFINITION. Merge rows (R139, R140): the adds of the memory controller, and the drain of a merged row. -/

namespace Sys2Proof.Machine

/-- MERGE_ADD (R92, R139, R197, R200): the oldest raw part that a panel has drained for a merge row writes the row, or adds into it exactly. `fails`
gives the lines of the row whose read fails its tag, with the number of failing reads. -/
def execMergeAdd (k : Fin 8) (h : Nat) (row : Nat) (fails : List (Fin 4 × Nat)) (s : State) : Out :=
  .next <| s.onRunning k h fun t =>
    match t.parts.find? fun x => x.row == row with
    | none => s
    | some x => s.confine k fun u =>
      let m := t.desc.arg 16 5
      let u1 := if (t.merged.lookup row).isNone then u else 
        (List.range 4).foldl (fun v j => v.rmwRead (some h) (m + 4 * row + j) (failsOf (fails.map fun f => (f.1.val, f.2)) j) 1) u
      ((u1.addPart k h m x).modTask k h fun y => { y with parts := y.parts.erase x })

/-- MERGED_ROW_DRAIN (R101, R139): once every part of a merge row has been counted, the merged row is read back and drained once through the
epilogue, starting from acc = the merged value. A row whose values wait for an APPLY to open stays in the merge area (R256). -/
def execMergedRowDrain (k : Fin 8) (h : Nat) (row : Nat) (s : State) : Out :=
  .next <| s.onRunning k h fun t => s.confine k fun u =>
    match u.panelCheck k t with
    | .error _ => u
    | .ok p =>
      if !(u.mergeDone k h p).contains row || u.streamWaits k p then u
      else match u.mergedOut u k t p row with
        | none => u
        | some o =>
          let u1 := (u.tilesDrain u k t p [o] [o]).modTask k h fun y => { y with mergedDone := row :: y.mergedDone }
          if o.pois then u1.reportAccess k t (some (u.firstPoison p)) none else u1

end Sys2Proof.Machine
end

