-- ==== Sys2Proof/Machine/Tasks.lean ====
section
/-! DEFINITION. The life of a task (R25 to R46): fetch, dispatch and start, sync waits, slices, pairing, completion, watchdog and timeout,
barriers, and the MARK modes but for the step boundary. -/

namespace Sys2Proof.Machine

/-! ## The completion ring (R25, R38, R39) -/

/-- Entries of a ring from its SIZE register; 0 where SIZE is outside 4 to 16 (DEDUCED, log 16). -/
def ringLen (size : Word) : Nat := if 4 ≤ size.toNat % 32 ∧ size.toNat % 32 ≤ 16 then 2 ^ (size.toNat % 32) else 0

/-- Entries between two indices of a ring. -/
def ringUsed (n tail head : Nat) : Nat := if n = 0 then 0 else (tail + n - head % n) % n

/-- Whether the completion ring has an entry that is neither written nor reserved. -/
def CompRing.room (c : CompRing) : Bool := decide (ringUsed (ringLen c.size) c.tail c.head + c.reserved + 1 < ringLen c.size)

/-! ## Fetch (R28, R34, R36, R180, R186) -/

/-- A fetched task. `st` is its marker: a status other than DONE for a task that will not run. -/
def newTask (h : Nat) (d : TaskDesc) (queue : Nat) (program : Bool) (st : Status) (time : Nat) : Task :=
  { h := h, desc := d, queue := queue, program := program, state := .fetched, status := st, count := 0, sliced := false, stolen := false,
    retried := false, reserved := false, recompute := false, frame := none, waitFrom := time, wdLogged := false, arrived := 0,
    sent := [], railsLogged := [], seq := 0, got := [], deferred := d.deferred, took := 0, tilesDone := [], tilesOff := [], paired := [],
    parts := [], merged := [], mergedDone := [], stats := [], rowPois := [], satBy := [], logged := [] }

/-- The recompute segment after a program task (R186): open or not, the recorded ids, and whether this task opens or lies in a segment. -/
def segmentAfter (u : Suite) (d : TaskDesc) (rejected : Bool) : Bool × List Nat × Bool :=
  if d.type = 10 ∧ d.mode = 2 ∧ !rejected then
    let id := d.arg 0 4
    if u.ckpts.contains id then (true, u.ckpts, true)
    else if u.ckpts.length < 256 then (false, id :: u.ckpts, false)
    else (false, u.ckpts, false)
  else if u.recompute ∧ d.phase ≤ 1 then (true, u.ckpts, true)
  else (false, u.ckpts, false)

/-- The frames on the stack: pushed and not popped. -/
def AstState.live (a : AstState) : List AstFrame := a.frames.filter fun f => f.popTask.isNone

/-- Push a frame of `n` units for task `h` (R180 to R182): lost when it ends beyond SFN_AST_SIZE or an earlier push of the step is lost. -/
def AstState.push (a : AstState) (h n : Nat) : AstState :=
  let start := sumL (a.live.map (·.units))
  let lost := decide (a.size.toNat < start + n) || a.frames.any (·.lost)
  let peak := max a.peak.toNat (min (2 ^ 32 - 1) (start + n))
  { a with frames := a.frames ++ [{ pos := a.depth, units := n, start := start, pushTask := h, popTask := none, lost := lost }],
           depth := a.depth + 1, written := if lost then a.written else a.written + 1, used := if lost then a.used else a.used + n,
           demanded := max a.demanded (start + n), peak := BitVec.ofNat 32 peak }

/-- Pop the top frame for task `h` (R180); at depth 0 nothing is popped (R183). -/
def AstState.pop (a : AstState) (h : Nat) : AstState :=
  match a.live.getLast? with
  | none => a
  | some f => { a with frames := a.frames.map (fun x => if x.pushTask = f.pushTask then { x with popTask := some h } else x),
                       depth := a.depth - 1 }

/-- Release the frame that a completed task popped (R184). -/
def AstState.release (a : AstState) (h : Nat) : AstState :=
  match a.frames.find? fun f => f.popTask == some h && !f.lost with
  | none => a
  | some f => { a with frames := a.frames.filter (fun x => x.popTask != some h), written := a.written - 1, used := a.used - f.units }

/-- The stack operation of a PRODUCT or a TOPK PRODUCT_SCAN when its trowel takes it (R170, R180, R187): only a program task outside a recompute
segment that names the stack with a FUNC that has a source. -/
def State.astTake (s : State) (k : Fin 8) (h : Nat) (d : TaskDesc) (recompute : Bool) : AstState :=
  let a := s.suites[k].ast
  let r := d.panelReq
  let kind := dKind r.epi.func
  if !((d.type == 1 && d.mode != 2) || (d.type == 7 && d.mode == 1)) ∨ recompute ∨ kind = .none ∨ !s.suites[k].isAst r.dsrc then a
  else if r.epi.deriv then a.pop h
  else match s.tensor? k r.dsrc with
    | none => a
    | some x =>
      if kind ≠ .bit ∧ !valueSourceFmt x.fmt then a
      else a.push h (frameUnits x.fmt (d.dim 1) (d.dim 0) (d.dim 3) (kind == .bit))

/-- Append a task to a suite's tasks and count its handle; an EXCHANGE among the members of a group takes its task sequence (R238; log 65). -/
def Suite.addTask (u : Suite) (t : Task) : Suite :=
  let (n, v) := if t.desc.type = 4 ∧ t.desc.mode ≠ 9 ∧ t.status = .done then u.nextSeq (t.desc.arg 0 2) else (0, u)
  { v with tasks := v.tasks ++ [{ t with seq := n }], nextH := v.nextH + 1 }

/-- TASK_FETCH (R28, R30, R34, R36): the entry at HEAD of a queue, as the DMA returned it, or the next task of the running program. A
task that R30 rejects, and one that comes from a queue or to a suite that drains (R52), is fetched with the status it will complete with. DESIGN
CHOICE (log 62): a program task has queue number 0, which bits [1:0] of QUEUE in its completion record hold. -/
def execTaskFetch (k : Fin 8) (src : FetchSource) (s : State) : Out :=
  .next <|
    let u := s.suites[k]
    let mask := dieMaskOf (s.suiteDies k)
    if (s.coordinator k).isNone || !(u.st == .running || u.st == .draining) then s
    else match src with
      | .queue q bytes =>
        let sq := u.sq[q]
        let n := ringLen sq.size
        if sq.err || sq.fn.st == .stopped || n == 0 || sq.head == sq.tail then s
        else
          let bs := (bytes ++ List.replicate 128 0).take 128
          let st : Status := if taskRejected mask bs then .formatError
            else if sq.fn.st ≠ .running ∨ u.st ≠ .running then .disabled else .done
          s.modSuite k fun v =>
            ({ v with sq := v.sq.set q { sq with head := (sq.head + 1) % n }, clean := false }).addTask
              (newTask u.nextH (parseTask bs) q false st s.clk.time)
      | .program =>
        match u.run with
        | none => s
        | some r =>
          if r.steps = 0 ∨ r.ended ≠ 0 ∨ r.count ≤ r.pc then s
          else
            let a := 64 * r.prog + 128 * r.pc
            let bs := s.bytes a 128
            let d := parseTask bs
            let bad := taskRejected mask bs
            let pois := s.poisonIn a 128
            let (seg, ids, mine) := segmentAfter u d bad
            let end_ := d.type == 10 && d.mode == 1 && !bad && !pois
            let s1 := if pois then s.memError k ((s.poisonOf [(a / 64, 2)]).getD 0) 1 2 d.taskId else s
            let ast := if bad || pois then u.ast else s.astTake k u.nextH d mine
            let late := d.type == 1 && d.phase == 3 && (maskDies d.dieMask).any fun i => s.dies[i].trw.bwd.getLsbD 31
            s1.modSuite k fun v =>
              ({ v with run := some { r with pc := r.pc + 1, ended := if end_ then 0xFF else 0 }, recompute := seg, ckpts := ids,
                        ast := ast }).addTask
                { newTask u.nextH d 0 true (if pois then .poisoned else if bad then .formatError else .done) s.clk.time with
                  recompute := mine, deferred := d.deferred || late
                  frame := (ast.frames.find? fun (f : AstFrame) => f.pushTask == u.nextH || f.popTask == some u.nextH).map fun (f : AstFrame) => f.pos }

/-! ## What holds a task back (R28, R34, R37, R39, R80, R183, R184) -/

/-- The tasks of a suite that stand before task `h`: dispatched tasks in dispatch order, then fetched ones in fetch order. -/
def Suite.earlier (u : Suite) (h : Nat) : List Task := u.tasks.takeWhile fun t => t.h != h

/-- Tasks of the same queue, or of the program. -/
def Task.sameSource (a b : Task) : Bool := a.program == b.program && (a.program || a.queue == b.queue)

/-- The slots that a SCALE or slot-mode SKIM task changes: whether scale slots, first, count (R79, R164). -/
def TaskDesc.slotSpan (d : TaskDesc) : Option (Bool × Nat × Nat) :=
  if d.type = 9 then some (true, d.arg 0 2, d.arg 2 2)
  else if d.type = 2 ∧ 2 ≤ d.mode then some (false, d.arg 0 2, d.arg 2 2)
  else none

/-- Whether a task names a tensor whose scale slot, or a skim slot, lies in a span (R80, R164). -/
def State.usesSlot (s : State) (k : Fin 8) (d : TaskDesc) (x : Bool × Nat × Nat) : Bool :=
  let inside := fun (i : Nat) => decide (x.2.1 ≤ i) && decide (i < x.2.1 + x.2.2)
  if x.1 then d.tensors.any fun id => match s.tensor? k id with | some t => t.fmt.narrow && t.slot != 0xFFFF && inside t.slot | none => false
  else (d.type == 2 && decide (d.mode ≤ 1) && inside (d.arg 10 2)) ||
    d.tensors.any fun id => match s.suites[k].bindings.lookup id with | some i => inside i | none => false

/-- Whether the slot ordering of R80 lets a task start. -/
def State.slotOrder (s : State) (k : Fin 8) (t : Task) : Bool :=
  let before := (s.suites[k].earlier t.h).filter fun (x : Task) => x.state != .fetched
  (match t.desc.slotSpan with
   | some x => before.all fun y => !s.usesSlot k y.desc x
   | none => true) &&
  before.all fun y => match y.desc.slotSpan with | some x => !s.usesSlot k t.desc x | none => true

/-- Whether the activation stack lets a task start (R183, R184): the pushing task of a popped frame has completed; a pushed frame
overlaps no units still to be released, whether their pop runs or ended in a mismatch. -/
def Suite.astReady (u : Suite) (h : Nat) : Bool :=
  (match u.frameOf h true with
   | some f => !(u.tasks.any fun t => t.h == f.pushTask)
   | none => true) &&
  (match u.frameOf h false with
   | some f => f.lost || !((u.ast.frames.takeWhile (· != f)).any fun g => !g.lost && rangesMeet (f.start, f.units) (g.start, g.units))
   | none => true)

/-- Whether a task's sync-counter wait is over (R37). -/
def Suite.syncOk (u : Suite) (d : TaskDesc) : Bool := !decide (d.waitCtr < 1024) || ctrReached (u.ctr d.waitCtr) d.waitValue

/-- The members of the mask record of a MASK task: master, momentum, copy (R281). -/
def State.maskMembers (s : State) (rec_ : Nat) : List Nat :=
  ([0, 2, 4].map fun o => s.le (64 * rec_ + o) 2).filter (· != 0xFFFF)

/-- The tensors whose data an UPDATE, RELAY or EXCHANGE task writes (R118, R238, R255). -/
def TaskDesc.writesIds (d : TaskDesc) : List Nat :=
  (match d.type, d.mode with
   | 3, 5 | 3, 6 => []
   | 3, 4 => [d.tensor 0, d.tensor 1]
   | 3, _ => [d.tensor 1]
   | 4, 4 | 4, 7 | 4, 8 | 4, 9 => []
   | 4, _ => [d.tensor 1]
   | 5, 0 | 5, 4 => [d.tensor 0, d.tensor 1, d.tensor 2]
   | 5, 5 => [d.tensor 2]
   | _, _ => []).filter (· != 0xFFFF)

/-- Whether R284 sets a task against a mask record: a MASK task that names it, or a task that would write one of its members. -/
def State.meetsRecord (s : State) (d : TaskDesc) (rec_ : Nat) : Bool :=
  if d.type = 6 then d.arg 0 5 == rec_
  else decide (3 ≤ d.type) && decide (d.type ≤ 5) && d.writesIds.any (s.maskMembers rec_).contains

/-- Whether an earlier task that has not finished holds a task back under R284: a MASK task of its record, or a BUILD whose record it meets. -/
def State.maskHeld (s : State) (k : Fin 8) (t : Task) : Bool :=
  (s.suites[k].earlier t.h).any fun (x : Task) =>
    x.desc.type == 6 && (x.state == .waiting || x.state == .running) && (t.desc.type == 6 || x.desc.mode == 2) && s.meetsRecord t.desc (x.desc.arg 0 5)

/-- The step of a task (R285): that of its STEP argument where a MASK task names one, else SFN_STEP. -/
def State.taskStep (s : State) (k : Fin 8) (d : TaskDesc) : Nat :=
  if d.type = 6 ∧ d.arg 8 4 ≠ 0xFFFFFFFF then d.arg 8 4 else s.suites[k].step.toNat

/-- Whether R284 refuses a task BUSY: a BUILD of a record that it meets ran in its step, and was dispatched before it. -/
def State.maskBusy (s : State) (k : Fin 8) (t : Task) : Bool :=
  s.suites[k].builds.any fun x => x.2 == s.taskStep k t.desc && !t.logged.contains (0xB1, x.1) && s.meetsRecord t.desc x.1

/-- Whether a task is a MASK BUILD. -/
def TaskDesc.isBuild (d : TaskDesc) : Bool := d.type == 6 && d.mode == 2

/-- Whether the compressor lets a task start (R291): it serves a BUILD in dispatch order among its die's RELAY parts. -/
def State.relayOrder (s : State) (k : Fin 8) (t : Task) : Bool :=
  let on := fun (d : TaskDesc) => d.type == 3 || d.isBuild
  !on t.desc || (s.suites[k].earlier t.h).all fun (x : Task) =>
    !on x.desc || !(x.desc.isBuild || t.desc.isBuild) || x.desc.dieMask &&& t.desc.dieMask == 0 || x.state == .fetched || x.state == .finished

/-- Whether a dispatched task may start: its sync wait is over; every earlier task of its queue has started (R28), or every earlier task of
its program that shares a die with it (R34; log 18); with FENCE every earlier task of its queue or program has completed (R29); slot, stack,
mask and compressor order allow it. -/
def State.mayStart (s : State) (k : Fin 8) (t : Task) : Bool :=
  let u := s.suites[k]
  let mine := (u.earlier t.h).filter fun (x : Task) => x.sameSource t
  u.syncOk t.desc &&
  mine.all (fun (x : Task) => x.state == .running || x.state == .finished || (t.program && x.desc.dieMask &&& t.desc.dieMask == 0)) &&
  (!t.desc.fence || mine.isEmpty) && s.slotOrder k t && u.astReady t.h && !s.maskHeld k t && s.relayOrder k t

/-! ## Refusals at dispatch (R32, R53, R60, R284, R412) -/

/-- Whether a task names a tensor that R32, R60, R180 or R412 refuses. -/
def State.namesBad (s : State) (k : Fin 8) (t : Task) : Bool :=
  let ids := t.desc.tensors.filter (· != 0xFFFF)
  (!t.program && ids.any fun id => !s.suites[k].tensSet.contains id || s.suites[k].isAst id) ||
  ids.any fun id => match s.tensor? k id with | some x => !s.slotOk k x | none => true

/-- Whether a task runs on panels: PRODUCT, SKIM PREDICT and FUSED, TOPK (R29, R53). -/
def TaskDesc.onPanels (d : TaskDesc) : Bool := d.type == 1 || (d.type == 2 && decide (d.mode ≤ 1)) || d.type == 7

/-- Whether a task needs a panel of its dies (R53, R285): MASK SAMPLE runs on panels and RANK on their drains. -/
def TaskDesc.needsPanel (d : TaskDesc) : Bool := d.onPanels || (d.type == 6 && decide (d.mode ≤ 1))

/-- The panels of a die that can take work. -/
def State.ableOf (s : State) (d : Fin 8) : List (Fin 104) :=
  (List.finRange 104).filter fun p => (s.panel d p).role == .enabled && (s.panel d p).fn.st == .running

/-- The status a task is refused with before any part runs, if any (R30, R32, R40, R52, R53, R284). -/
def State.refusal (s : State) (k : Fin 8) (t : Task) : Option Status :=
  if t.status ≠ .done then some t.status
  else if !t.program ∧ s.suites[k].st ≠ .running then some .disabled
  else if s.namesBad k t then some .formatError
  else if t.desc.needsPanel ∧ (maskDies t.desc.dieMask).all fun d => !s.dies[d].inService || (s.ableOf d).isEmpty then some .disabled
  else none

/-! ## Tiles, slices and pairs (R42, R48, R53, R175) -/

/-- TRW_SLICE.TOKENS of a die. -/
def State.tokens (s : State) (d : Fin 8) : Nat := s.dies[d].trw.slice.toNat / 64 % 1024

/-- Token extent of a SLICEABLE task (R131 SHAPE[4]: 0 N, 1 M, 2 K). -/
def TaskDesc.tokenExtent (d : TaskDesc) : Nat := match d.dim 4 with | 0 => d.dim 1 | 1 => d.dim 0 | _ => d.dim 2

/-- Number of slices a task is cut into on a die (R48). -/
def State.sliceCount (s : State) (d : Fin 8) (x : TaskDesc) : Nat :=
  if x.sliceable ∧ x.onPanels ∧ s.tokens d ≠ 0 ∧ x.tokenExtent > 64 * s.tokens d then cdiv x.tokenExtent (64 * s.tokens d) else 1

/-- The slice of a tile (R48): by its column for N, its row for M; a tile holds every part of a split K (R93). -/
def State.sliceOf (s : State) (d : Fin 8) (x : TaskDesc) (row col : Nat) : Nat :=
  if s.sliceCount d x = 1 then 0 else match x.dim 4 with | 0 => col / s.tokens d | 1 => row / s.tokens d | _ => 0

/-- The home dies, in service in the suite, of the regions that a task names. -/
def State.homeDies (s : State) (k : Fin 8) (d : TaskDesc) : List (Fin 8) :=
  (((s.taskRegions k d).filter fun r => r.2 != 0).flatMap fun r =>
    (List.range ((r.1 + r.2 - 1) / 2 ^ 30 - r.1 / 2 ^ 30 + 1)).filterMap fun i => (homeOf ((r.1 / 2 ^ 30 + i) * 2 ^ 30)).map (·.1)).eraseDups.filter
      fun x => decide (s.owner x = some k) && s.dies[x].inService

/-- Whether a task's parts issue requests to the homes of its tensors (R203, R204): those of the panels, the relay engine and the exchange. -/
def TaskDesc.crosses (d : TaskDesc) : Bool := d.needsPanel || d.type == 3 || d.type == 4

/-- The dies of a task that run no part of it though they are in service: a request of theirs has no route inside the suite (R204), they have no
panel to run on (R53), or their skim controller does not run (R168). DESIGN CHOICE (log 63): a part needs the home dies of every tensor that
the task names. -/
def State.idleDies (s : State) (k : Fin 8) (d : TaskDesc) : List (Fin 8) :=
  let homes := if d.crosses then (s.view k).homeDies k d else []
  (maskDies d.dieMask).filter fun x => s.dies[x].inService &&
    (homes.any (fun y => (s.route k x y).isNone) || (d.needsPanel && (s.ableOf x).isEmpty) ||
     (d.type == 2 && decide (d.mode ≤ 1) && s.dies[x].skm.fn.st != .running))

/-- Queue a unit to a thread of a panel. -/
def State.queueUnit (s : State) (d : Fin 8) (q : Fin 104) (id : Nat) (t : TaskDesc) (x : Tile) : State :=
  s.modPanel d q fun y => { y with threads := y.threads ++
    [{ id := id, tile := x, prio := t.prio.toNat, order := y.threads.foldl (fun a (z : Thread) => max a (z.order + 1)) 0, readyAt := s.clk.time,
       boosts := 0, started := false, slice := s.sliceOf d t x.row x.col, tries := 0, saved := none }] }

/-- Queue the units of a started panel task to threads (R42): unit n to the dies of its mask in turn, then to a die's panels in turn, then to a
panel's threads in turn, where the skims of one row group count as one (DESIGN CHOICE, log 12; R50 and R177: no result depends on it). The
units of dies that run no part stay unrun (R53, R168, R204, R274). `on` are the dies that run a part. -/
def State.placeTiles (s : State) (k : Fin 8) (t : Task) (on : List (Fin 8)) : State :=
  if !t.desc.onPanels || (t.desc.type == 7 && t.desc.mode == 0) then s
  else match (s.view k).panelCheck k t with
    | .error _ => s
    | .ok p =>
      let ds := maskDies t.desc.dieMask
      let able := ds.map fun d => (d, if on.contains d then s.ableOf d else [])
      let xs := (((s.view k).taskUnits k t.h p).zipIdx).map fun x =>
        let n := if p.r.skim then x.1.batch * cdiv p.M 64 + x.1.row else x.2
        (able.getD (n % ds.length) (0, []), n / ds.length, x.1)
      let s1 := xs.foldl (fun u x =>
        if x.1.2.isEmpty then u
        else u.queueUnit x.1.1 (x.1.2.getD (x.2.1 % x.1.2.length) 0) (x.2.1 / x.1.2.length % 64) t.desc x.2.2) s
      s1.modTask k t.h fun y => { y with took := dieMaskOf on, tilesOff := (xs.filter fun x => x.1.2.isEmpty).map fun x => x.2.2 }

/-- The tiles of a task on a panel. -/
def Panel.tilesFor (x : Panel) (k : Fin 8) (h : Nat) : List Tile :=
  (x.threads.filter fun y => y.tile.k == k.val && y.tile.h == h).map (·.tile)

/-- The TURNED task that a started SAMPLED task pairs with on a die (R175): the nearest earlier PHASE 2 TURNED of the program that meets its
conditions, with no other PHASE 3 SAMPLED between them. -/
def State.partner (s : State) (k d : Fin 8) (t : Task) : Option Task :=
  let isW := fun (x : Task) => x.program && x.desc.type == 1 && x.desc.mode == 2 && x.desc.phase == 3
  if !isW t || t.desc.deferred || !s.dies[d].trw.bwd.getLsbD 30 || s.dies[d].trw.bwd.getLsbD 31 then none
  else ((s.suites[k].earlier t.h).reverse.takeWhile fun x => !isW x).find? fun y =>
    y.program && y.desc.type == 1 && y.desc.mode == 1 && y.desc.phase == 2 && !y.desc.deferred && y.desc.tensor 1 == t.desc.tensor 0 &&
    y.desc.prio == t.desc.prio && y.desc.dieMask == t.desc.dieMask

/-- Pair a started SAMPLED task (R175, R176): on each panel its run groups pair with the input-gradient tiles there, one with one. -/
def State.pairUp (s : State) (k : Fin 8) (t : Task) : State :=
  (maskDies t.desc.dieMask).foldl (fun u d =>
    match s.partner k d t with
    | none => u
    | some y =>
      let both := (s.dies[d].panels.toList).map fun x =>
        let ins := x.tilesFor k y.h
        let ws := (x.tilesFor k t.h).take ins.length
        (ws, if ws.isEmpty then [] else ins)
      let tag := fun (l : List Tile) => l.map fun (x : Tile) => (d.val, x)
      (u.modTask k t.h fun z => { z with paired := z.paired ++ tag (both.flatMap (·.1)) }).modTask k y.h fun z =>
        { z with paired := z.paired ++ tag (both.flatMap (·.2)) }) s

/-- Start a task: its units are queued, its slices counted and its pair formed. The parts on dies out of service are ABORTED (R274), those on dies
that cannot run them DISABLED (R53, R168, R204); a task without any other part runs nothing. -/
def State.startTask (s : State) (k : Fin 8) (t : Task) : State :=
  let ds := maskDies t.desc.dieMask
  let off := s.idleDies k t.desc
  let on := ds.filter fun d => s.dies[d].inService && !off.contains d
  let n := ds.foldl (fun a d => max a (s.sliceCount d t.desc)) 1
  let queued := t.desc.onPanels && !(t.desc.type == 7 && t.desc.mode == 0)
  let s1 := s.modTask k t.h fun x =>
    { x with state := .running, sliced := decide (1 < n), waitFrom := s.clk.time, wdLogged := false, took := if queued then 0 else dieMaskOf on }
  let s2 := if ds.any fun d => !s.dies[d].inService then s1.worsen k t.h .aborted else s1
  let s3 := if off.isEmpty then s2 else s2.worsen k t.h .disabled
  if on.isEmpty then s3.finish k t.h .done else (s3.placeTiles k t on).pairUp k t

/-- Finish a task that runs no part, with one status (R40). -/
def State.refuseTask (s : State) (k : Fin 8) (h : Nat) (st : Status) : State :=
  s.modTask k h fun x => { x with state := .finished, status := st }

/-- Start a task whose waits are over, unless R284 refuses it. -/
def State.launch (s : State) (k : Fin 8) (t : Task) : State := if s.maskBusy k t then s.refuseTask k t.h .busy else s.startTask k t

/-- Put a task behind the last dispatched one, so that dispatched tasks stand in dispatch order. -/
def Suite.dispatched (u : Suite) (t : Task) : Suite :=
  let rest := u.tasks.filter fun x => x.h != t.h
  { u with tasks := (rest.filter fun x => x.state != .fetched) ++ t :: rest.filter fun x => x.state == .fetched,
           cq := { u.cq with reserved := u.cq.reserved + 1 } }

/-- Whether the next task in its order may be dispatched (R28, R34, R39): a completion slot is free, every earlier task of its queue or
program has been dispatched, and no RUN holds its queue. -/
def State.mayDispatch (s : State) (k : Fin 8) (t : Task) : Bool :=
  let u := s.suites[k]
  let mine := (u.earlier t.h).filter fun (x : Task) => x.sameSource t
  u.cq.room && mine.all (fun (x : Task) => x.state != .fetched) &&
  (t.program || mine.all fun (x : Task) => !(x.desc.type == 10 && x.desc.mode == 0 && (x.state == .waiting || x.state == .running)))

/-- TASK_DISPATCH (R28, R34, R39, R48, R53): a slot is reserved; a task refused before it runs is finished with its status; any other
starts at once or waits. DESIGN CHOICE (log 62): the refusal of R32 is made here, without a wait for WAIT_CTR. -/
def execTaskDispatch (k : Fin 8) (h : Nat) (s : State) : Out :=
  .next <|
    match s.task? k h with
    | none => s
    | some t =>
      if t.state ≠ .fetched ∨ !s.mayDispatch k t then s
      else match s.refusal k t with
        | some st => s.modSuite k fun u => u.dispatched { t with reserved := true, state := .finished, status := st }
        | none =>
          let t1 : Task := { t with reserved := true, state := .waiting, waitFrom := s.clk.time }
          let s1 := s.modSuite k fun u => u.dispatched t1
          if s1.mayStart k t1 then s1.launch k t1 else s1

/-- SYNC_WAIT_SATISFIED (R37): a waiting task whose waits are over starts; a queue task of a suite that drains completes DISABLED (R52). -/
def execSyncWaitSatisfied (k : Fin 8) (h : Nat) (s : State) : Out :=
  .next <|
    match s.task? k h with
    | none => s
    | some t =>
      if t.state ≠ .waiting then s
      else if !t.program && s.suites[k].st != .running then s.refuseTask k h .disabled
      else if s.mayStart k t then s.launch k t else s

/-! ## Completion (R37, R38, R40) -/

/-- The tensors that a task writes whole, for the poison of an ABORTED task (R37); UPDATE poisons nothing (R272). -/
def TaskDesc.outIds (d : TaskDesc) : List Nat :=
  (match d.type with
   | 1 => [d.tensor 2] ++ (if d.epi.deriv then [] else [d.tensor 4]) ++ [d.tensor 6, d.tensor 7]
   | 2 => if d.mode ≤ 1 then [d.tensor 2, d.tensor 3, d.tensor 6, d.tensor 7] else []
   | 3 | 4 => d.writesIds
   | 6 => if d.mode = 0 then [d.tensor 3] else []
   | 7 => if d.mode = 0 then [d.tensor 1, d.tensor 2] else (if d.epi.deriv then [] else [d.tensor 4]) ++ [d.tensor 6, d.tensor 7]
   | _ => []).filter (· != 0xFFFF)

/-- The regions of a tensor that is written whole: BASE, the grid record of an INT32 tensor and SKIM. -/
def State.wholeRegions (s : State) (k : Fin 8) (id : Nat) : List (Nat × Nat) :=
  match s.tensor? k id with
  | none => []
  | some x =>
    let st := match s.opStruct k x with | .ok y => y | .error _ => Struct.empty
    [(x.base, units (x.baseSize st))] ++ (if x.fmt = .int32 then [(x.index, units x.gridBytes)] else []) ++
    (if x.hasSkim then [(x.skim, units (x.skimSize st))] else [])

/-- The regions that a task writes, as (unit, units): a build into a sparse tensor its capacities, HOST_IN its images, TWIN the twin, MARK
LOAD the program, a SAVE of slots its copy, MASK RANK the candidate area; any other task its output tensors, where the activation stack stands for the
source rows of the frame that the task pushes, unless it is lost (R33, R79, R118, R164, R181, R182, R286). -/
def State.outRegions (s : State) (k : Fin 8) (t : Task) : List (Nat × Nat) :=
  let d := t.desc
  let id := d.tensor 1
  match d.type, d.mode with
  | 3, 0 | 3, 2 =>
    match s.tensor? k id with
    | none => []
    | some x =>
      if x.layout = .d then s.wholeRegions k id
      else [(x.base, d.arg 0 4), (x.index, d.arg 4 4)] ++ (if bitOf (d.arg 12 1) 0 then [(x.twin, d.arg 8 4)] else []) ++
        (if x.hasSkim then [(x.skim, d.arg 0 4)] else [])
  | 3, 4 => match s.tensor? k id with | none => [] | some x => (hostRegions x d).map fun r => (r.1, r.2.1)
  | 3, 5 | 3, 6 => []
  | 3, 7 => match s.tensor? k id with | none => [] | some x => [(x.twin, d.arg 8 4)]
  | 6, 1 =>
    match parseMask (s.bytes (64 * d.arg 0 5) 128) (d.arg 0 5) with
    | none => []
    | some r => match s.tensor? k r.master with | none => [] | some x => [(r.candArea, units (8 * r.cand * x.nr))]
  | 10, 3 => [(d.arg 8 5, 2 * d.arg 13 4)]
  | 9, 2 | 2, 4 => [(d.arg 4 5, 2 * d.arg 2 2)]
  | _, _ =>
    (d.outIds.filter fun x => !s.suites[k].isAst x).flatMap (s.wholeRegions k) ++
    (match s.suites[k].frameOf t.h false with
     | some f => if f.lost then [] else [(s.suites[k].astBase + f.start + 1, f.units - 1)]
     | none => [])

/-- What a task writes beside its outputs (R81): a product's merge area and frame header, an UPDATE's members, state and retention areas, the
alternates and the record of a MASK task. -/
def State.sideRegions (s : State) (k : Fin 8) (t : Task) : List (Nat × Nat) :=
  let d := t.desc
  let rcd := d.arg 0 5
  match d.type with
  | 1 | 2 | 7 =>
    (if d.onPanels then [(d.panelReq.merge, 4 * d.panelReq.mergeCap)] else []) ++
    (match s.suites[k].frameOf t.h false with | some f => if f.lost then [] else [(s.suites[k].astBase + f.start, 1)] | none => [])
  | 5 =>
    ([d.tensor 0, d.tensor 1, d.tensor 2].filter fun x => d.mode != 5 || x == d.tensor 2).flatMap (s.wholeRegions k) ++
    (match parseUpd (s.bytes (64 * rcd) 64), s.tensor? k (d.tensor 0) with
     | some r, some m =>
       let nb := match s.struct k m with | .ok st => m.nBlocks st | .error _ => 0
       if d.mode = 0 ∨ d.mode = 4 then [(r.stateAddr, units (r.stateSize m.nr m.nc)), (r.retainAddr, units (retainSize nb))] else []
     | _, _ => [])
  | 6 => match parseMask (s.bytes (64 * rcd) 128) rcd with
    | none => []
    | some r => (if d.mode = 0 then [] else [(rcd, 2)]) ++ (if d.mode = 2 then r.alts else [])
  | _ => []

/-- Poison the outputs of an ABORTED task (R37, R52). -/
def State.poisonOutputs (s : State) (k : Fin 8) (t : Task) : State :=
  s.confine k fun u => (u.outRegions k t).foldl (fun v r => v.poisonRange (64 * r.1) (64 * r.2)) u

/-- Outputs of a task that lie over scale slots (but for SCALE) or over skim slots (but for the slot modes of SKIM) while a RUN is in flight
leave those slots unspecified (R81, R164); a task that was refused has written nothing. -/
def State.slotTouch (s : State) (k : Fin 8) (t : Task) : State :=
  let d := t.desc
  if !s.suites[k].runInFlight || !(t.status ∈ [.done, .saturated, .poisoned, .aborted] || decide (t.status = .formatError ∧ 0 < t.count)) then s
  else (s.outRegions k t ++ s.sideRegions k t).foldl (fun v r =>
    let v1 := if d.type = 9 then v else v.scaleSlotWrite k (64 * r.1) (64 * r.2)
    if d.type = 2 ∧ 2 ≤ d.mode then v1 else v1.skimSlotWrite k (64 * r.1) (64 * r.2)) s

/-- A completion record (R38). -/
def completionRecord (t : Task) (wraps time : Nat) : List Byte :=
  leBytes 4 t.desc.taskId ++ leBytes 1 t.status.code ++ leBytes 1 (t.queue + 128 * b2n t.program) ++
  leBytes 1 (b2n t.sliced + 2 * b2n t.stolen + 4 * b2n t.retried + 128 * b2n (wraps % 2 == 0)) ++ [t.took] ++
  leBytes 6 (time % 2 ^ 48) ++ leBytes 2 (min 65535 t.count)

/-- Whether a completion record is written for a task (R38). -/
def Task.needsRecord (t : Task) : Bool := !t.program || t.desc.notify || t.status != .done

/-- Write a completion record at the ring's tail (R38) and raise vector 0 of the suite function (R366). -/
def State.writeRecord (s : State) (k : Fin 8) (t : Task) : State :=
  let c := s.suites[k].cq
  let n := ringLen c.size
  let a := c.base.toNat / 16 * 16 + 16 * c.tail
  let s1 := s.hostWrite a (completionRecord t c.wraps s.clk.time)
  (s1.modSuite k fun u => { u with cq := { u.cq with tail := (c.tail + 1) % n, wraps := if c.tail + 1 = n then c.wraps + 1 else c.wraps } }).raise
    (k.val + 1) 0

/-- Drop the tiles of a task from a panel. -/
def Panel.drop (p : Panel) (k : Fin 8) (h : Nat) : Panel :=
  let mine := fun (y : Thread) => y.tile.k == k.val && y.tile.h == h
  let bank := fun (b : Bank) => match b.tile with | some tl => if tl.k = k.val ∧ tl.h = h then Bank.free else b | none => b
  let own := match p.owner with | some o => if (p.thread? o).any mine then none else some o | none => none
  if p.threads.any mine then
    { p with threads := p.threads.filter (fun y => !mine y), bankA := bank p.bankA, bankB := bank p.bankB, owner := own }
  else p

/-- Drop a task's tiles from every panel; the speculative reads that it leaves are cancelled (R167). -/
def State.dropTiles (s : State) (k : Fin 8) (h : Nat) : State :=
  { s with dies := Vector.ofFn fun (i : Fin 8) =>
      let d := s.dies[i]
      if s.owner i ≠ some k then d
      else
        let n := sumL (d.panels.toList.map fun p => sumL ((p.spec.filter fun y => y.h == h).map (·.lines)))
        { d with panels := d.panels.map fun (p : Panel) => { p.drop k h with spec := p.spec.filter fun y => y.h != h },
                 skm := { d.skm with cancelled := d.skm.cancelled.satAdd n } } }

/-- Count the weight-gradient groups that a SAMPLED task ran paired, by die (R176, R177). -/
def State.countPairs (s : State) (t : Task) : State :=
  if t.desc.mode ≠ 2 then s
  else (t.paired.filter fun x => t.tilesDone.contains x.2).foldl (fun u x => u.modDie (fin8 x.1) fun y =>
    { y with trw := { y.trw with pairsRun := y.trw.pairsRun + 1 } }) s

/-- Complete a finished task once (R37, R38, R40, R184): an ABORTED task's outputs are poisoned, the signal is applied, its paired groups are
counted, the popped stack frame is released, and the completion record is written where required; a task that holds no slot waits for one. -/
def State.completeTask (s : State) (k : Fin 8) (h : Nat) : State :=
  match s.task? k h with
  | none => s
  | some t =>
    if t.state ≠ .finished ∨ (t.needsRecord && !t.reserved && !s.suites[k].cq.room) then s
    else
      let s1 := ((if t.status = .aborted then s.poisonOutputs k t else s).closeSat k h).countPairs t
      let s2 := (s1.slotTouch k t).signal k t.desc
      let s3 := (s2.dropTiles k h).modSuite k fun u =>
        { u with tasks := u.tasks.filter (fun x => x.h != h), ast := u.ast.release h, extremes := u.extremes.filter (fun x => x.h != h),
                 cq := { u.cq with reserved := u.cq.reserved - b2n t.reserved } }
      if t.needsRecord then s3.writeRecord k t else s3

/-- TASK_COMPLETE (R37, R38, R40). -/
def execTaskComplete (k : Fin 8) (h : Nat) (s : State) : Out := .next (s.completeTask k h)

/-! ## Watchdog, timeout and barriers (R45, R46) -/

/-- What a task waits on, as the counter or barrier id of the WATCHDOG event (R46, R184, R253, R257); 0xFFFF for a stack frame and for
gradient values. -/
def State.waitsOn (s : State) (k : Fin 8) (t : Task) : Option Nat :=
  let u := s.suites[k]
  match t.state with
  | .waiting => if !u.syncOk t.desc then some t.desc.waitCtr else if !u.astReady t.h then some 0xFFFF else none
  | .running =>
    if t.desc.type = 8 then some (t.desc.arg 0 2)
    else if t.desc.type = 5 ∧ (t.desc.mode = 0 ∨ t.desc.mode = 4) then some 0xFFFF
    else none
  | _ => none

/-- End a task's wait TIMEOUT: an APPLY or REPLAY keeps its complete blocks (R257). -/
def State.timeOut (s : State) (k : Fin 8) (t : Task) : State :=
  if t.desc.type = 5 ∧ t.state = .running then s.confine k fun u => u.endApply k t.h 4 .timeout else s.finish k t.h .timeout

/-- The die whose trowel watches a task. DESIGN CHOICE (log 62): of a task on several dies, the lowest of its mask. -/
def Task.die0 (t : Task) : Fin 8 := (maskDies t.desc.dieMask).headD 0

/-- WATCHDOG (R46): a wait longer than TRW_WDOG.LIMIT logs one event, and ends TIMEOUT with ACTION = 1; a shorter descriptor TIMEOUT
applies first. -/
def execWatchdog (k : Fin 8) (h : Nat) (s : State) : Out :=
  .next <|
    match s.task? k h with
    | none => s
    | some t =>
      let w := s.dies[t.die0].trw.wdog
      let limit := w.toNat % 2 ^ 24
      match s.waitsOn k t with
      | none => s
      | some id =>
        if limit = 0 ∨ t.wdLogged ∨ s.clk.time ≤ t.waitFrom + 16384 * limit ∨ (t.desc.timeout ≠ 0 ∧ t.desc.timeout < limit) then s
        else
          let s1 := (s.modTask k h fun x => { x with wdLogged := true }).suiteEvent k 0x0005 t.die0 0
            (pack [(4, t.desc.taskId), (2, id), (2, 0), (8, s.clk.time - t.waitFrom)])
          if w.getLsbD 31 then s1.timeOut k t else s1

/-- TASK_TIMEOUT (R46, R242, R257): the descriptor's TIMEOUT expires on a wait, or on an EXCHANGE, whose APPLY then stops waiting (R273). -/
def execTaskTimeout (k : Fin 8) (h : Nat) (s : State) : Out :=
  .next <|
    match s.task? k h with
    | none => s
    | some t =>
      if t.desc.timeout = 0 ∨ s.clk.time ≤ t.waitFrom + 16384 * t.desc.timeout then s
      else if t.state = .running ∧ t.desc.type = 4 then s.exchangeTimeout k t
      else match s.waitsOn k t with
        | none => s
        | some _ => s.timeOut k t

/-- A barrier's count and arrivals (R45); an unlisted barrier has neither. -/
def Suite.barrier? (u : Suite) (id : Nat) : Nat × Nat := ((u.barriers.find? fun b => b.1 == id).map (·.2)).getD (0, 0)

/-- Set a barrier. -/
def Suite.setBarrier (u : Suite) (id count arrivals : Nat) : Suite :=
  { u with barriers := (id, count, arrivals) :: u.barriers.filter fun b => b.1 != id }

/-- Finish the BARRIER tasks of an id whose count is reached and whose dies have all arrived (R45). -/
def State.barrierDone (s : State) (k : Fin 8) (id : Nat) : State :=
  let (count, n) := s.suites[k].barrier? id
  if n < count then s
  else (s.suites[k].tasks.filter fun t => t.desc.type == 8 && t.desc.arg 0 2 == id && t.state == .running &&
      (maskDies t.desc.dieMask).all fun d => t.arrived.getLsbD d || !s.dies[d].inService).foldl (fun u t => u.finish k t.h .done) s

/-- BARRIER (R45): the trowel of one die of the task arrives once. The count is that of the first arrival (DEDUCED, log 17); an arrival
beyond it completes FORMAT_ERROR. -/
def execBarrier (k : Fin 8) (h : Nat) (d : Fin 8) (s : State) : Out :=
  .next <| s.onRunning k h fun t =>
    if t.desc.type ≠ 8 ∨ !t.desc.dieMask.getLsbD d ∨ t.arrived.getLsbD d ∨ !s.dies[d].inService then s
    else
      let id := t.desc.arg 0 2
      let b := s.suites[k].barrier? id
      let count := if b.1 = 0 then t.desc.arg 4 4 else b.1
      let s1 := (s.modTask k h fun x => { x with arrived := x.arrived ||| (1 <<< d.val) }).modSuite k fun u => u.setBarrier id count (b.2 + 1)
      let s2 := if count < b.2 + 1 then s1.worsen k h .formatError else s1
      s2.barrierDone k id

/-! ## MARK (R33, R34, R186) -/

/-- Set FORCE_DEFER on every die of a suite for the step that starts, or log it as withheld (R179). -/
def State.forceDefer (s : State) (k : Fin 8) (step : Word) : State :=
  let ds := s.suiteDies k
  let ok := s.allows 4
  let s1 := s.suiteEvent k 0x144 0xFF 0 (pack [(1, (dieMaskOf ds).toNat), (1, b2n (!ok)), (2, 0), (4, step.toNat), (8, 0)])
  let s2 := s1.modSuite k fun u => { u with forceNext := false, forced := ok }
  if ok then ds.foldl (fun u d => u.modDie d fun x => { x with trw := { x.trw with bwd := x.trw.bwd ||| 0x80000000 } }) s2 else s2

/-- MARK RUN (R33, R34, R37, R412): the program of a completed, untouched LOAD runs; the sync counters are reset. A second RUN waits for
the first; a RUN of no steps is DONE at once; a RUN inside a program is FORMAT_ERROR (DEDUCED, log 18). -/
def execMarkRun (k : Fin 8) (h : Nat) (s : State) : Out :=
  .next <| s.onRunning k h fun t =>
    let u := s.suites[k]
    if t.desc.type ≠ 10 ∨ t.desc.mode ≠ 0 ∨ u.run.isSome then s
    else if t.program then s.finish k h .formatError
    else
      let prog := t.desc.arg 0 5
      let count := t.desc.arg 5 4
      let table := t.desc.arg 9 5
      let steps := t.desc.arg 14 4
      if !(u.programs.any fun p => p.addr == prog && p.count == count && p.intact) then s.finish k h .accessDenied
      else
        let s1 := s.modSuite k fun v => { v with ctrs := [], lastTable := some (prog, count, table), tensSet := (s.programTensors prog count).eraseDups }
        if steps = 0 then s1.finish k h .done
        else
          let s2 := s1.modSuite k fun v =>
            { v with run := some { h := h, prog := prog, count := count, table := table, steps := steps, pc := 0, ended := 0 } }
          if u.forceNext then s2.forceDefer k u.step else s2

/-- MARK STEP_END (R35): the trowel of one die reaches the end of the step; the task is DONE when every die of its mask has. -/
def execMarkStepEnd (k : Fin 8) (h : Nat) (d : Fin 8) (s : State) : Out :=
  .next <| s.onRunning k h fun t =>
    if t.desc.type ≠ 10 ∨ t.desc.mode ≠ 1 ∨ !t.desc.dieMask.getLsbD d then s
    else
      let a := t.arrived ||| (1 <<< d.val)
      let s1 := s.modTask k h fun x => { x with arrived := a }
      if (maskDies t.desc.dieMask).all fun i => a.getLsbD i || !s.dies[i].inService then s1.finish k h .done else s1

/-- MARK CHECKPOINT (R186, R189): logs CHECKPOINT. A program's MARK has recorded its id, or opened its segment, when its trowel took it;
one from a queue does so now. Beyond 256 ids it is FORMAT_ERROR. -/
def execMarkCheckpoint (k : Fin 8) (h : Nat) (s : State) : Out :=
  .next <| s.onRunning k h fun t =>
    if t.desc.type ≠ 10 ∨ t.desc.mode ≠ 2 then s
    else
      let id := t.desc.arg 0 4
      let (seg, ids, re) := if t.program then (s.suites[k].recompute, s.suites[k].ckpts, t.recompute) else segmentAfter s.suites[k] t.desc false
      let s1 := s.modSuite k fun u => { u with recompute := seg, ckpts := ids }
      if !re && !ids.contains id then s1.finish k h .formatError
      else (s1.suiteEvent k 0x145 0xFF 0 (pack [(4, id), (4, t.desc.taskId), (1, b2n re), (3, 0), (4, s.suites[k].step.toNat)])).finish k h .done

/-- Extend a chained digest log by an entry (R310). -/
def chain (l : Nat × List Byte) (entry : List Byte) : Nat × List Byte := (l.1 + 1, Config.sha384 (l.2 ++ entry))

/-- MARK LOAD (R33, R310): the program that the DMA returned is placed in suite memory and measured. It touches no other LOADed program. -/
def State.markLoad (s : State) (k : Fin 8) (t : Task) (bytes : List Byte) : State :=
  let prog := t.desc.arg 8 5
  let count := t.desc.arg 13 4
  let bs := (bytes ++ List.replicate (128 * count - bytes.length) 0).take (128 * count)
  if !s.regionOk k prog (2 * count) then (s.taskMemError k t ((s.firstBad k prog (2 * count)).getD prog) 2 2).finish k t.h .accessDenied
  else
    let dg := Config.sha384 bs
    let entry := dg ++ leBytes 4 count
    ((s.rawWrite (64 * prog) (s.keepFlags (64 * prog) bs)).modSuite k fun u =>
      { u with programs := { addr := prog, count := count, digest := dg, intact := true } ::
                 u.programs.filter fun p => !(p.addr == prog && p.count == count)
               progLog := chain u.progLog entry, progEntries := u.progEntries ++ [entry] }).finish k t.h .done

/-- MARK LOAD as a command: its effect on a started task (R33, R310). -/
def execMarkLoad (k : Fin 8) (h : Nat) (bytes : List Byte) (s : State) : Out :=
  .next (s.runTask k h 10 3 fun u t => u.markLoad k t bytes)

end Sys2Proof.Machine
end

