-- ==== Sys2Proof/Machine/Boundary.lean ====
section
/-! DEFINITION. The step boundary (R21, R22, R35): mask commits, the scale and skim slots, the statistics fold, boundary renders, FREEZE and
THAW, the gradient norm, rebalancing, deferral forcing, the step's events, retirements, and the start of the next step. -/

namespace Sys2Proof.Machine

/-! ## Scale slots (R74 to R78) -/

/-- The narrow tensors of the tensor set that name a scale slot (R74). -/
def State.slotTensors (s : State) (k : Fin 8) (set : List Nat) (slot : Nat) : List Tensor :=
  (set.eraseDups.filterMap (s.tensor? k)).filter fun t => t.fmt.narrow && t.slot == slot

/-- What the boundary has done to the slots so far: those whose exponent the raise rule changed, promotions made, tensors promoted, and
the slots whose SCALE or format changed. -/
structure SlotSum where
  s : State
  raised : Nat
  promos : Nat
  tensors : Nat
  changed : List Nat

/-- The history exponent of R74: none without an entry above zero. -/
def histExp (hist : Nat → Nat) (headroom : Nat) (t h d q : Nat) (old : Int) : Int :=
  let us := (List.range h).filterMap fun (j : Nat) =>
    let u : Int := (t : Int) + 2 - d - h + j
    if u < 0 then none else some (hist (u.toNat % 24))
  let vals := (us.filter (· != 0x7FC0)).map decE8M7
  match amaxOf vals, decE8M7 headroom with
  | .fin _ m e, .fin _ hm he => if m = 0 then old else leastExp (m * hm) (e + he) q
  | .inf _, _ => 127
  | _, _ => old

/-- The UPDATE tasks of a program that render a copy, as RENDER tasks, one per copy (R269). -/
def State.renderTasks (s : State) (r : Run) : List TaskDesc :=
  let ds := (List.range r.count).map fun i => parseTask (s.bytes (64 * r.prog + 128 * i) 128)
  let us := ds.filter fun d => d.type == 5 && (d.mode == 0 || d.mode == 5) && d.tensor 2 != 0xFFFF
  (us.foldl (fun (a : List TaskDesc) d => if a.any fun x => x.tensor 2 == d.tensor 2 then a else a ++ [d]) [])

/-- The data of a promoted tensor that is no rendered copy become free values (R77); its lines keep their markers. -/
def State.scramble (s : State) (k : Fin 8) (t : Tensor) : State :=
  match s.struct k t with
  | .error _ => s
  | .ok x => (t.basePieces x).foldl State.freeRegion s

/-- Promote a slot's 4-bit tensors (R76, R78), or log the promotion as withheld. A promoted tensor that is no rendered copy of the program loses
its contents (R77). -/
def State.promote (s : State) (k : Fin 8) (slot : Nat) (ts : List Tensor) (withheld : Bool) : State :=
  let copies := (s.suites[k].run.map fun r => (s.renderTasks r).map fun d => d.tensor 2).getD []
  let one := fun (u : State) (old new : Fmt) =>
    let l := ts.filter fun (t : Tensor) => t.fmt == old
    if l.isEmpty then u
    else
      let v := u.suiteEvent k 0x101 0xFF 0 (pack [(2, slot), (2, l.length), (4, (s.suites[k].step + 1).toNat), (1, old.code), (1, new.code),
        (1, b2n withheld), (5, 0)])
      if withheld then v
      else
        let w := l.foldl (fun w t => w.write (t.at_ + 2) (leBytes 1 new.code)) v
        (l.filter fun t => !copies.contains t.id).foldl (fun w t => w.scramble k { t with fmt := new }) w
  one (one s .int4 .int8) .e2m1 .e4m3

/-- Process one scale slot at the boundary of the step (R74, R75, R76, R78, R81). A slot with a field outside its range, or written as R81 forbids,
holds free values for its exponent, counts and history after it. DESIGN CHOICE (log 62): a SCALE_RAISED event of a raise that is not made gives
the exponent of the history rule as the old and the new one. -/
def SlotSum.slot (a : SlotSum) (k : Fin 8) (set : List Nat) (slot : Nat) : SlotSum :=
  let s := a.s
  let u := s.suites[k]
  let at_ := u.slotAddr slot
  let t := u.step.toNat
  let bs := s.bytes at_ 128
  let known := scaleSlotOk bs && !u.unspecScale.contains slot
  let flags := field bs 0x31 1
  let conv := field bs 0x40 8
  let sat := field bs 0x48 8
  let ufl := field bs 0x50 8
  let failSat := decide (0 < conv) && decide (field bs 0x36 2 * conv < sat * 65536)
  let failUfl := decide (0 < conv) && decide (field bs 0x38 2 * conv < ufl * 65536)
  let persist := if failSat || failUfl then min 255 (field bs 0x3B 1 + 1) else 0
  let auto := bitOf flags 0
  let old := signed 8 (field bs 0x30 1)
  let ts := s.slotTensors k set slot
  let four := ts.filter fun (x : Tensor) => x.fmt == .int4 || x.fmt == .e2m1
  let due := auto && bitOf flags 2 && decide (field bs 0x3A 1 ≤ persist) && !four.isEmpty
  let lim := s.policy.promoteMax
  let make := due && s.allows 1 && (lim == 0 || decide (a.promos < lim))
  let s1 := if due then s.promote k slot four (!make) else s
  let ts1 := s1.slotTensors k set slot
  let qmax := (ts1.foldl (fun (m : Option Fmt) (x : Tensor) => match m with
    | none => some x.fmt
    | some f => if x.fmt.code < f.code then some x.fmt else some f) none).map Fmt.qmax
  let hist := fun i => field bs (2 * i) 2
  let (new, up, s2) := match auto, qmax with
    | true, some q =>
      let h := histExp hist (field bs 0x34 2) t (field bs 0x32 1) (field bs 0x33 1) q old
      let cap := min (old + 1) s.policy.scaleMax
      let lift := failSat && decide (h < old + 1)
      let done := lift && s.allows 0 && decide (h < cap)
      let fin := if done then cap else h
      let new := min 127 (max (-127) fin)
      let ev := fun (v : State) (x y : Int) => v.suiteEvent k 0x100 0xFF 0
        (pack [(2, slot), (1, unsigned 8 x), (1, unsigned 8 y), (4, (u.step + 1).toNat), (8, sat)])
      (new, done, if done then ev s1 old new else if lift then ev s1 new new else s1)
    | _, _ => (old, false, s1)
  let fl := if make then flags ||| 8 else flags
  let s3 := s2.write (at_ + 0x30) (leBytes 1 (unsigned 8 new) ++ leBytes 1 fl)
  let s4 := (s3.write (at_ + 0x3B) (leBytes 1 (if make then 0 else persist) ++ leBytes 4 t)).write (at_ + 0x60) ((bs.drop 0x40).take 32)
  let s5 := (s4.write (at_ + 0x40) (List.replicate 32 0)).write (at_ + 2 * ((u.step + 1).toNat % 24)) (leBytes 2 0x7FC0)
  { s := if known then s5 else s5.freeScaleSlot at_, raised := a.raised + b2n up, promos := a.promos + b2n make,
    tensors := a.tensors + (if make then four.length else 0),
    changed := if make || new != old || !known then slot :: a.changed else a.changed }

/-- Process every scale slot (R74), and the counts of R70. -/
def State.scaleBoundary (s : State) (k : Fin 8) (set : List Nat) : State :=
  let a := (List.range s.suites[k].slots).foldl (fun (x : SlotSum) i => x.slot k set i) { s := s, raised := 0, promos := 0, tensors := 0, changed := [] }
  a.s.modSuite k fun u =>
    { u with sclRaised := BitVec.ofNat 32 a.raised, sclPromoted := u.sclPromoted.satAdd a.tensors, slotsChanged := a.changed }

/-! ## Skim slots (R162, R163) -/

/-- Process one skim slot at the boundary (R162, R163). Its counts and margin stay free values where a write has left it unspecified (R81,
R164). -/
def State.skimSlotBoundary (s : State) (k : Fin 8) (slot : Nat) : State :=
  let u := s.suites[k]
  let at_ := u.skimAddr slot
  let bs := s.bytes at_ 128
  let f := fun o => field bs o 8
  let flags := field bs 0 1
  let margin := field bs 1 1
  let go := bitOf flags 0 && decide (field bs 6 2 ≤ f 0x28 + f 0x38)
  let est := f 0x30 + f 0x40 * 2 ^ field bs 2 1
  let (v, s0) := if go && f 0x48 == 0 then s.drawFree else (0, s)
  let rate := if f 0x48 = 0 then (Config.freeBits 32 v).toNat else min 0xFFFFFFFF (est * 65536 / f 0x48)
  let due := go && bitOf flags 1 && decide (field bs 4 2 < rate)
  let sum := margin + field bs 3 1
  let wmax := s.policy.widenMax
  let guard := decide (16 ≤ sum) && wmax == 16
  let new := min sum wmax
  let make := due && s.allows 2 && (guard || decide (margin < new))
  let s1 := if !due then s0 else
    s0.suiteEvent k 0x130 0xFF 0 (pack [(2, slot), (1, margin), (1, if !make then margin else if guard then 0 else new),
      (4, (u.step + 1).toNat), (1, b2n (make && guard) + 2 * b2n (!make)), (3, 0), (4, rate)])
  let s2 := if make then (s1.write at_ (leBytes 1 (if guard then flags - 1 else flags) ++ leBytes 1 (if guard then 0 else new))).modSuite k
      fun x => { x with skmWidened := x.skmWidened.satAdd 1 }
    else s1
  let s3 := if go then (s2.write (at_ + 0x68) (leBytes 4 rate)).write (at_ + 0x28) (List.replicate 40 0) else s2
  (((s3.write (at_ + 0x50) ((bs.drop 0x10).take 24)).write (at_ + 0x10) (List.replicate 24 0)).write (at_ + 8) (leBytes 4 u.step.toNat)).respoilSkim
    k slot

/-- Process every skim slot (R162), and count those widened (R169). -/
def State.skimBoundary (s : State) (k : Fin 8) : State :=
  (List.range s.suites[k].skimSlots).foldl (fun v i => v.skimSlotBoundary k i) (s.modSuite k fun u => { u with skmWidened := 0 })

/-! ## Mask commits (R294 to R296) -/

/-- Commit, or undo, the records whose STATE is BUILT and whose BUILD_STEP is the step that ends (R294, R296): a commit is undone, with reason 2,
when the die of its master is out of service. -/
def State.maskBoundary (s : State) (k : Fin 8) : State :=
  let step := s.suites[k].step.toNat
  (s.suites[k].builtRecs.foldl (fun u b =>
    match (parseMask (u.bytes (64 * b.addr) 128) b.addr).filter fun r => r.state == 2 && r.buildStep == step with
    | none => u
    | some r =>
      match u.tensor? k r.master with
      | none => u
      | some m =>
        let (d, i) := (homeOf m.base).getD (0, 0)
        if u.dies[d].inService then u.confine k fun v => v.commitMask k b
        else
          let v := u.suiteEvent k 0x181 d (12 * d.val + i.val) (pack [(2, m.id), (1, 2), (1, 0), (4, step), (4, 0), (4, 0)])
          v.modDie d fun x => { x with msk := { x.msk with withheld := x.msk.withheld.satAdd 1 } }) s).modSuite k fun u =>
    { u with builtRecs := u.builtRecs.filter fun b => s.byte (64 * b.addr + 7) == 2 }

/-! ## Fold, render, norm (R267, R269, R245) -/

/-- Fold, or only clear, the scratch of every master whose APPLY of the step ended (R267). -/
def State.foldBoundary (s : State) (k : Fin 8) : State :=
  let u := s.suites[k]
  let s1 := u.folds.foldl (fun v (x : Nat × UpdRec × Bool) =>
    match v.tensor? k x.1 with
    | none => v
    | some m => v.confine k fun w =>
      let w1 := if x.2.2 then w.foldTensor x.2.1 m.nr m.nc u.step.toNat (u.sumSat.contains x.1) else w
      w1.clearScratch x.2.1 m.nr m.nc) s
  s1.modSuite k fun v => { v with folds := [], sumSat := v.sumSat.filter fun id => !(u.folds.any fun x => x.1 == id && x.2.2) }

/-- Poison every line of a copy's value, scale and skim regions, and log UPD_INCOMPLETE with reason 3 (R269): of a copy whose index fails, the
regions that its header or its directory's last word gives. -/
def State.renderFailed (s : State) (k : Fin 8) (m c : Tensor) : State :=
  let n0 := match c.layout with
    | .st => (s.stHdr (64 * c.index)).strips
    | .bk => s.le (64 * c.index + 4 * cdiv c.nr 16) 4
    | _ => 0
  let st := match s.struct k c with | .ok x => x | .error _ => { Struct.empty with nStrips := n0 }
  let n := match s.struct k c with | .ok x => c.nBlocks x | .error _ => 0
  let (d, i) := (homeOf m.base).getD (0, 0)
  let s1 := s.poisonRange (64 * c.base) (c.baseSize st)
  let s2 := if c.hasSkim then s1.poisonRange (64 * c.skim) (c.skimSize st) else s1
  s2.suiteEvent k 0x171 d (12 * d.val + i.val) (pack [(4, 0xFFFFFFFF), (2, c.id), (1, 3), (1, 0), (4, n), (4, s.suites[k].step.toNat)])

/-- Render again the copies whose slot changed (R269); `s` is at the next step, so the conversions count there. -/
def State.renderBoundary (s : State) (k : Fin 8) (r : Run) (changed : List Nat) : State :=
  (s.renderTasks r).foldl (fun u d =>
    match u.tensor? k (d.tensor 2), u.tensor? k (d.tensor 0) with
    | some c, m? =>
      if !c.fmt.narrow || c.slot == 0xFFFF || !changed.contains c.slot then u
      else u.confine k fun v =>
        match v.updCheck k (newTask 0 { d with mode := 5 } 0 true .done 0) with
        | .ok (x, _, _) => v.renderAll k x v.suites[k].step.toNat true
        | .error _ => v.renderFailed k (m?.getD c) c
    | none, _ => u) s

/-- SFN_GNORM at the boundary (R245): the square root of the step's exact sum, rounded toward +∞. -/
def Suite.normBoundary (u : Suite) : Suite :=
  match u.normNext with
  | none => u
  | some (sum, sat) =>
    let w : Word := if sum = 0 then 0 else let (r, e) := sqrtSticky sum (-256); f32enc .up (.fin false r e)
    { u with gnorm := w, gnormStep := u.step, gnormFlags := if sat then 3 else 1, normNext := none }

/-! ## Rebalancing (R51) -/

/-- Distribute `total` tokens in whole units of 64 by the rates r, remainders going to the largest, ties to the lower die. -/
def spread (total : Nat) (rs : List Nat) : List Nat :=
  let sum := sumL rs
  if sum = 0 then rs.map fun _ => 0
  else
    let fl := rs.map fun r => (total * r / (64 * sum), total * r % (64 * sum))
    let left := total / 64 - sumL (fl.map (·.1))
    let rank := fun i x => (fl.zipIdx.filter fun y => decide (x < y.1.2) || (y.1.2 == x && decide (y.2 < i))).length
    fl.zipIdx.map fun y => 64 * (y.1.1 + if rank y.2 y.1.2 < left then 1 else 0)

/-- Clamp each change to c tokens, returning the excess to the unclamped dies in the same way. -/
def clampShares (olds rs caps : List Nat) : Nat → List (Option Nat) → List (Option Nat)
  | 0, fixed => fixed
  | n + 1, fixed =>
    let total := sumL olds - sumL (fixed.map fun x => x.getD 0)
    let prop := spread total ((rs.zip fixed).map fun x => if x.2.isSome then 0 else x.1)
    let rows := (olds.zip caps).zip (prop.zip fixed)
    let next := rows.map fun x =>
      match x.2.2 with
      | some v => some v
      | none => if x.1.1 + x.1.2 < x.2.1 then some (x.1.1 + x.1.2) else if x.2.1 + x.1.2 < x.1.1 then some (x.1.1 - x.1.2) else none
    if next == fixed then rows.map fun x => some (x.2.2.getD x.2.1) else clampShares olds rs caps n next

/-- The new shares of R51 for shares s and busy times b; none when the rule makes no change. DESIGN CHOICE (log 62): none either where a die has
busy time 0, whose rate is not defined; a clamp is rounded down to whole units of 64 tokens. -/
def rebalance (ss bs : List Nat) (thresh clamp : Nat) : Option (List Nat) :=
  let n := bs.length
  if bs.any (· == 0) ∨ n = 0 ∨ 100 * bs.foldl max 0 * n ≤ (100 + thresh) * sumL bs then none
  else
    let prod := bs.foldl (· * ·) 1
    let rs := (ss.zip bs).map fun x => x.1 * prod / x.2
    let caps := ss.map fun x => x * clamp / 100 / 64 * 64
    some ((clampShares ss rs caps (n + 1) (ss.map fun _ => none)).map fun x => x.getD 0)

/-- Rebalance the suite's shares for the next step (R51, R335), one REBALANCE event per die. Shares the host never told the module are
free values (log 19). DESIGN CHOICE (log 62): REBAL must be 1 on every die in service, and THRESH is the coordinator's. -/
def State.rebalanceStep (s : State) (k : Fin 8) : State :=
  let ds := s.liveDies k
  let u := s.suites[k]
  let p := s.policy
  let (olds, s0) := if u.shares.length = ds.length then (u.shares, s)
    else ds.foldl (fun (a : List Nat × State) _ => let (v, t) := a.2.drawFree; (a.1 ++ [64 * (1 + Config.freeNat v)], t)) ([], s)
  let busy := ds.map fun d => sumL ((List.range 4).map fun i => (s.dies[d].trw.phaseRun.toList.getD i 0))
  let s1 := s0.modSuite k fun v => { v with shares := olds, sinceRebal := v.sinceRebal + 1 }
  match s.coordinator k with
  | none => s1
  | some c =>
    let thresh := s.dies[c].trw.slice.toNat / 2 ^ 24 % 64
    if !s.allows 3 || !(ds.all fun d => s.dies[d].trw.slice.getLsbD 30) || decide (u.sinceRebal + 1 < p.rebalMinSteps) then s1
    else match rebalance olds busy thresh (min 25 p.rebalClamp) with
      | none => s1
      | some new =>
        let s2 := s1.modSuite k fun v => { v with shares := new, sinceRebal := 0 }
        (ds.zip (olds.zip new)).foldl (fun v (x : Fin 8 × Nat × Nat) =>
          v.suiteEvent k 0x0006 x.1 0 (pack [(4, (u.step + 1).toNat), (4, x.2.2), (4, x.2.1), (4, 0)])) s2

/-! ## Deferral forcing (R179), buffered writes (R362) -/

/-- Force deferral for the first step that the suite runs from now on (R179): the next RUN's first step, or the step after the one in
flight. -/
def State.armDefer (s : State) (k : Fin 8) : State := s.modSuite k fun u => { u with forceNext := true }

/-- Clear FORCE_DEFER at the boundary of the step it was set for. -/
def State.endDefer (s : State) (k : Fin 8) : State :=
  if !s.suites[k].forced then s
  else ((s.suiteDies k).foldl (fun u d => u.modDie d fun x => { x with trw := { x.trw with bwd := x.trw.bwd &&& 0x7FFFFFFF } }) s).modSuite k
    fun u => { u with forced := false }

/-- Apply the pending RWB writes of a TRW block in arrival order (R8, R21, R362). -/
def Trowel.applyPend (x : Trowel) : Trowel :=
  { x.pend.foldl (fun (y : Trowel) (w : Nat × Word) =>
      if w.1 = 0x18 then { y with slice := w.2 &&& 0xFF00FFC0 }
      else if w.1 = 0x20 then { y with bwd := w.2 &&& 0xC0000000 } else y) x with pend := [] }

/-! ## The step's events and timers (R24, R47) -/

/-- Close the timers of a die for a step of `len` TCLK (R47): time that no tick charged goes to phase 7. `used` request entries are held (R216). -/
def Trowel.closeStep (x : Trowel) (len : Nat) (step : Word) (used : Nat) : Trowel :=
  let run := x.phaseRun.toList
  let idle := len - sumL (run.take 7)
  { x with phase := Vector.ofFn fun (i : Fin 8) => BitVec.ofNat 64 (if i.val = 7 then idle else run.getD i.val 0)
           phaseRun := Vector.replicate 8 0, step := step, bwdPairs := BitVec.ofNat 32 x.pairsRun, pairsRun := 0,
           rqtPeak := BitVec.ofNat 16 x.rqtPeakRun, rqtPeakRun := used }

/-- Bytes a die read from a source in the step. -/
def Suite.readBytes (u : Suite) (d src : Nat) : Nat := sumL ((u.reads.filter fun x => x.1 == d && x.2.1 == src).map fun x => x.2.2)

/-- Whether a die's reads set SPILL (R24). -/
def Suite.spills (u : Suite) (d : Nat) : Bool :=
  let own := u.readBytes d d
  let pkg := sumL (((List.range 8).filter (· != d)).map fun e => u.readBytes d e)
  decide (16 * own < 100 * pkg) || decide (own < 100 * u.readBytes d 0xFF)

/-- Log the step summary, the phase records and the read records (R24, R41). The working set is a free value: the spec gives no rule to
count it (log 20). -/
def State.stepSummary (s : State) (k : Fin 8) : State :=
  let u := s.suites[k]
  let ds := s.liveDies k
  let (w, s0) := s.drawFree
  let flags := b2n (ds.any fun d => u.spills d) + 2 * b2n u.satStep + 4 * b2n u.fmtStep
  let s1 := s0.suiteEvent k 0x0001 0xFF 0 (pack [(4, u.step.toNat), (4, (Config.freeBits 32 w).toNat), (4, s.capacityMiB k), (1, flags), (3, 0)])
  let s2 := ds.foldl (fun v d =>
    let ph := fun i => (4, (s.dies[d].trw.phase.toList.getD i 0).toNat / 16)
    (v.suiteEvent k 0x0003 d 0 (pack [ph 0, ph 1, ph 2, ph 3])).suiteEvent k 0x0004 d 0 (pack [ph 4, ph 5, ph 6, ph 7])) s1
  ds.foldl (fun v d => ((List.range 8) ++ [0xFF]).foldl (fun w src =>
    let n := u.readBytes d src
    if n = 0 then w else w.suiteEvent k 0x0002 d 0 (pack [(1, d.val), (1, src), (6, 0), (8, n)])) v) s2

/-- Empty the activation stack at the boundary (R185): frames not popped are discarded and logged. -/
def State.astBoundary (s : State) (k : Fin 8) : State :=
  let a := s.suites[k].ast
  let s1 := if a.live.isEmpty then s else s.suiteEvent k 0x143 0xFF 0
    (pack [(4, a.live.length), (4, sumL ((a.live.filter fun f => !f.lost).map (·.units))), (4, 0), (4, s.suites[k].step.toNat)])
  s1.modSuite k fun u => { u with ast := { u.ast with frames := [], depth := 0, written := 0, used := 0, demanded := 0 } }

/-! ## The boundary -/

/-- Whether a suite's step may end (R35): every die has taken its last task and every program task has completed. -/
def State.stepOver (s : State) (k : Fin 8) (r : Run) : Bool :=
  (s.coordinator k).isSome && decide (0 < r.steps) && (r.ended != 0 || decide (r.count ≤ r.pc)) && s.suites[k].tasks.all fun t => !t.program

/-- The start of the next step, or the end of the RUN (R34, R52). The tasks after a STEP_END form the next step (log 18). DESIGN CHOICE (log 62): a
RUN that a drain cuts at the boundary completes DISABLED. -/
def State.nextStep (s : State) (k : Fin 8) (r : Run) : State :=
  let st := s.suites[k].st
  if r.steps ≤ 1 then (s.modSuite k fun u => { u with run := none }).finish k r.h .done
  else if st = .draining then (s.modSuite k fun u => { u with run := none }).finish k r.h .disabled
  else s.modSuite k fun u => { u with run := some { r with steps := r.steps - 1, pc := if r.count ≤ r.pc then 0 else r.pc, ended := 0 } }

/-- Forget what lasts for one step: sync counters and barriers without waiters (R37), checkpoints (R186), bindings (R156), once-per-step
events, BUILDs (R284), and exchange sequence numbers (R238). -/
def Suite.clearStep (u : Suite) (now : Nat) : Suite :=
  let waits := fun (id : Nat) => u.tasks.any fun (t : Task) => t.desc.type == 8 && t.desc.arg 0 2 == id && t.state == .running
  { u with ctrs := [], barriers := u.barriers.filter fun b => waits b.1
           ckpts := [], recompute := false, bindings := [], once := [], builds := [], groupSeq := [], stepStart := now,
           satStep := false, fmtStep := false, reads := [], frozenPend := [] }

/-- The boundary work on the step that ends (R21 to R24, R295): masks, scale and skim slots, folds, norms, the activation stack, frozen flags, shares,
timers and summary, retired pseudo-channels, deferral and buffered writes, in this order. `s` has the boundary value as its time. -/
def State.boundaryWork (s : State) (k : Fin 8) (len : Nat) : State :=
  let step := s.suites[k].step
  let s1 := s.maskBoundary k
  let set := s1.suites[k].tensSet
  let s2 := s1.confine k fun u => u.scaleBoundary k set
  let s3 := s2.confine k fun u => u.skimBoundary k
  let s4 := s3.foldBoundary k
  let s5 := (s4.modSuite k fun u => u.normBoundary).astBoundary k
  let s6 := s5.suites[k].frozenPend.foldl (fun u x => u.setFrozen [x.1] x.2) s5
  let s7 := s6.rebalanceStep k
  let s8 := (s7.liveDies k).foldl (fun u d => u.modDie d fun x => { x with trw := x.trw.closeStep len step x.entriesUsed }) s7
  let s9 := s8.stepSummary k
  let s10 := (s9.suiteDies k).foldl (fun u d => (List.finRange 12).foldl (fun v i => v.commitStack d i (step + 1).toNat) u) s9
  let s11 := (s10.endDefer k)
  (s11.suiteDies k).foldl (fun u d => u.modDie d fun x => { x with trw := x.trw.applyPend }) s11

/-- The step that begins at a boundary (R34, R35, R37, R179, R269): what lasts one step is forgotten, the step count is one higher, copies of raised
scales are rendered, and the RUN goes on or ends. -/
def State.beginStep (s : State) (k : Fin 8) (r : Run) : State :=
  let s1 := s.modSuite k fun u => { u.clearStep s.clk.time with step := u.step + 1 }
  let s2 := s1.renderBoundary k r s1.suites[k].slotsChanged
  (if s2.suites[k].forceNext then s2.forceDefer k s2.suites[k].step else s2).nextStep k r

/-- STEP_BOUNDARY (R35, R21 to R24): the coordinator holds every report; the boundary value is this time plus 2,048 TCLK; the boundary work
runs in the order of R295. -/
def execStepBoundary (k : Fin 8) (s : State) : Out :=
  .next <|
    match s.suites[k].run with
    | none => s
    | some r =>
      if !s.stepOver k r then s
      else
        let b := (s.clk.time + 2048) % 2 ^ 64
        ({ s with clk := { s.clk with time := b } }.boundaryWork k (b - s.suites[k].stepStart)).beginStep k r

end Sys2Proof.Machine
end

