-- ==== Sys2Proof/Machine/Functions.lean ====
section
/-! DEFINITION. Functions that can be disabled (R52 to R54, R302, R365, R395): disable, enable, the end of a drain and its limit; the
abort of tasks; the state of a Scrim port. -/

namespace Sys2Proof.Machine

/-! ## Run states -/

/-- A write of STOPPED (R52, R54). -/
def FnState.disable (x : FnState) (now : Nat) : FnState :=
  if x.st = .running then { st := .draining, held := false, since := now } else x

/-- A write of RUNNING (R54, R365). -/
def FnState.enable (x : FnState) : FnState :=
  match x.st with
  | .stopped => { x with st := .running }
  | .draining => { x with held := true }
  | .running => x

/-- The end of a drain (R52, R54): STOPPED, or RUNNING where an enable is held. -/
def FnState.ended (x : FnState) : FnState :=
  if x.st = .draining then { x with st := if x.held then .running else .stopped, held := false } else x

/-- The run state of a suite's state; none for SCRUBBING and ABSENT. -/
def SuiteState.run? : SuiteState → Option RunState
  | .stopped => some .stopped | .running => some .running | .draining => some .draining | .scrubbing => none | .absent => none

/-- Function and offset of the register that holds a function's STATE (R25, R168, R249, R279, R299, R322, R395). -/
def fnLoc : FuncId → Nat × Nat
  | .queue k q => (k.val + 1, 0x40 * q.val + 0x14)
  | .suite k => (0, 0x60010 + 4 * k.val)
  | .panel d p => (0, dieOff d + 0x40000 + p.val * 0x400)
  | .skim d => (0, dieOff d + 0x20000)
  | .update d i => (0, dieOff d + 0x80000 + i.val * 0x2000 + 0x100)
  | .mask d => (0, dieOff d + 0x30000)
  | .port d q => (0, dieOff d + 0xC0000 + q.val * 0x4000 + 4)

/-- The die whose block holds a function, if any. -/
def fnDie : FuncId → Option (Fin 8)
  | .queue _ _ => none
  | .suite _ => none
  | .panel d _ => some d
  | .skim d => some d
  | .update d _ => some d
  | .mask d => some d
  | .port d _ => some d

/-- The run state of a function; none for a suite that is SCRUBBING or ABSENT. -/
def State.fnOf (s : State) : FuncId → Option FnState
  | .queue k q => some s.suites[k].sq[q].fn
  | .suite k => s.suites[k].st.run?.map fun st => { st := st, held := s.suites[k].held, since := s.suites[k].since }
  | .panel d p => some (s.panel d p).fn
  | .skim d => some s.dies[d].skm.fn
  | .update d i => some (s.stack d i).upd.fn
  | .mask d => some s.dies[d].msk.fn
  | .port d q => some (s.port d q).fn

/-- Set a suite's run state (R302). -/
def State.setSuiteRun (s : State) (k : Fin 8) (x : FnState) : State :=
  let st : SuiteState := match x.st with | .stopped => .stopped | .running => .running | .draining => .draining
  (s.setSuiteState k st).modSuite k fun u => { u with held := x.held }

/-- Set the run state of a function. -/
def State.setFn (s : State) (f : FuncId) (x : FnState) : State :=
  match f with
  | .queue k q => s.modSuite k fun u => { u with sq := u.sq.set q { u.sq[q] with fn := x } }
  | .suite k => s.setSuiteRun k x
  | .panel d p => s.modPanel d p fun y => { y with fn := x }
  | .skim d => s.modDie d fun y => { y with skm := { y.skm with fn := x } }
  | .update d i => s.modStack d i fun y => { y with upd := { y.upd with fn := x } }
  | .mask d => s.modDie d fun y => { y with msk := { y.msk with fn := x } }
  | .port d q => s.modPort d q fun y => { y with fn := x }

/-! ## Scrim port states (R225, R226) -/

/-- Code of a width given in lanes (R249). -/
def widthCode (pairs : Nat) : Nat := if 10 ≤ pairs then 0 else if 8 ≤ pairs then 1 else if 5 ≤ pairs then 2 else 3

/-- Move a port to a training state; each change logs LINK_STATE in the management log (R226, R252). Outside ACTIVE and RETRAIN a port has no
width, and training that starts anew forgets the failures. -/
def State.setPort (s : State) (d : Fin 8) (q : Fin 2) (st : PortState) : State :=
  let x := s.port d q
  if x.st = st then s
  else
    let w := if st = .active then widthCode (popcount x.chosen.toNat 10) else 3
    let s0 := if s.clk.avoid = some (2 * d.val + q.val) ∧ st ≠ .active then { s with clk := { s.clk with avoid := none } } else s
    let s1 := s0.modPort d q fun y => { y with st := st, width := w, replaysSince := 0, fails := if st = .active ∨ st = .disabled then 0 else y.fails }
    s1.mgtEvent 0x160 d q (pack [(1, 2 * d.val + q.val), (1, x.st.code), (1, st.code), (1, w), (2, x.pairs.toNat), (2, 0), (4, x.replaysSince), (4, 0)])

/-- Whether the ports train: a start-up that has reached stage 0x6 (R329), outside the reduced states (R350, R351). -/
def State.portsTrain (s : State) : Bool := s.mgt.stage == .scrubTime || s.mgt.stage == .ready

/-- Whether the variant carries a die's ports: a populated die in service, or one being recycled (R405). -/
def State.portPresent (s : State) (d : Fin 8) : Bool := s.populated d && (s.dies[d].inService || s.dies[d].recycling)

/-- Enter DETECT from DISABLED when a port is enabled (R225). -/
def State.startPort (s : State) (d : Fin 8) (q : Fin 2) : State :=
  if (s.port d q).fn.st = .running ∧ (s.port d q).st = .disabled ∧ s.portsTrain ∧ s.portPresent d then s.setPort d q .detect else s

/-! ## Aborts -/

/-- Stop one task ABORTED (R52, R272, R293); its outputs are poisoned when it completes (R37). An APPLY or REPLAY leaves its blocks whole. -/
def State.abortTask (s : State) (k : Fin 8) (t : Task) (reason : Nat) : State :=
  if t.state = .finished then s
  else if t.desc.type = 5 ∧ (t.desc.mode = 0 ∨ t.desc.mode = 4) then s.confine k fun u => u.endApply k t.h reason .aborted
  else if t.desc.type = 6 ∧ t.desc.mode = 2 ∧ t.state = .running then (s.confine k fun u => u.abortBuild k t).finish k t.h .aborted
  else s.stopTask k t .aborted

/-- Abort the tasks of a suite that satisfy a test; a RUN that is aborted ends with its program's tasks. -/
def State.abortTasks (s : State) (k : Fin 8) (p : Task → Bool) (reason : Nat) : State :=
  let u := s.suites[k]
  let hit := fun (t : Task) => p t || (t.program && (match u.run with | some r => u.tasks.any (fun x => x.h == r.h && p x) | none => false))
  let s1 := (u.tasks.filter hit).foldl (fun v t => v.abortTask k t reason) s
  match u.run with
  | some r => if u.tasks.any (fun x => x.h == r.h && p x) then s1.modSuite k fun v => { v with run := none } else s1
  | none => s1

/-! ## Drains -/

/-- TRW_DRAIN.LIMIT that bounds a drain, in TCLK: that of the function's die; for a queue or a suite the shortest of its dies (log 21). -/
def State.drainLimit (s : State) (f : FuncId) : Nat :=
  let of_ := fun (k : Fin 8) =>
    match (s.liveDies k).map fun d => s.dies[d].trw.drain.toNat with
    | [] => 0
    | x :: l => l.foldl min x
  1000 * (match f with
    | .queue k _ => of_ k
    | .suite k => of_ k
    | .panel d _ => s.dies[d].trw.drain.toNat
    | .skim d => s.dies[d].trw.drain.toNat
    | .update d _ => s.dies[d].trw.drain.toNat
    | .mask d => s.dies[d].trw.drain.toNat
    | .port d _ => s.dies[d].trw.drain.toNat)

/-- Whether an update unit holds a block of which some elements have arrived and some have not (R52, R257). -/
def State.midBlock (s : State) (d : Fin 8) (i : Fin 12) : Bool :=
  (s.stack d i).upd.opened.any fun o =>
    !o.frozen && (match s.task? (fin8 o.k) o.h with
      | none => false
      | some t => match s.updCtx (fin8 o.k) t fun _ _ _ => [] with
        | .error _ => false
        | .ok c => o.arrived.any fun a => (c.st.places[a.p]?).any fun x => !o.blocksDone.contains x.group)

/-- Whether a thread computes the skim of a tile (R165). -/
def State.skims (s : State) (x : Thread) : Bool :=
  x.tile.part == 0 && (s.tileTask x.tile).any fun t => t.desc.type == 2 && decide (t.desc.mode ≤ 1)

/-- Whether a task is a BUILD that runs on a die. -/
def Task.buildsOn (t : Task) (d : Fin 8) : Bool := t.desc.isBuild && t.state == .running && t.desc.dieMask.getLsbD d

/-- Whether work of a function is short of its natural boundary: a started skim tile, a started BUILD. A frame passes whole in one command, so a
port is always at its boundary. -/
def State.inFlight (s : State) : FuncId → Bool
  | .queue k q => s.suites[k].tasks.any fun t => !t.program && t.queue == q.val
  | .suite k => s.suites[k].run.isSome || !s.suites[k].tasks.isEmpty
  | .panel d p => (s.panel d p).threads.any fun t => t.started
  | .update d i => s.midBlock d i
  | .skim d => s.dies[d].panels.toList.any fun p => p.threads.any fun t => t.started && s.skims t
  | .mask d => (s.owner d).any fun k => s.suites[k].tasks.any fun t => t.buildsOn d
  | .port _ _ => false

/-- The tasks that an update unit holds open or waiting. -/
def UpdUnit.tasks (u : UpdUnit) : List (Nat × Nat) := (u.opened.map fun o => (o.k, o.h)) ++ u.waiting

/-- End the APPLYs and REPLAYs of an update unit (R52, R272, R279). -/
def State.endUnit (s : State) (d : Fin 8) (i : Fin 12) (st : Status) : State :=
  (s.stack d i).upd.tasks.foldl (fun v x => v.confine (fin8 x.1) fun w => w.endApply (fin8 x.1) x.2 1 st) s

/-- A function reaches STOPPED, or RUNNING again (R52, R54): an update unit's open tasks end DISABLED beyond its boundary (log 21); a port
is DISABLED (R225). -/
def State.drained (s : State) (f : FuncId) : State :=
  match s.fnOf f with
  | none => s
  | some x =>
    let s1 := s.setFn f x.ended
    match f with
    | .update d i => if (s.stack d i).upd.tasks.isEmpty then s1 else s1.endUnit d i .disabled
    | .port d q => (s1.setPort d q .disabled).startPort d q
    | _ => s1

/-- Take threads' tiles out of the panels of a die, with the banks and the array that they hold. -/
def State.dropThreads (s : State) (d : Fin 8) (ths : List Thread) : State :=
  let gone := ths.map (·.tile)
  s.modDie d fun x => { x with panels := x.panels.map fun (p : Panel) =>
    let mine := fun (b : Bank) => b.tile.any gone.contains
    { p with threads := p.threads.filter fun y => !gone.contains y.tile,
             owner := p.owner.filter fun o => !(p.thread? o).any fun y => gone.contains y.tile,
             bankA := if mine p.bankA then .free else p.bankA, bankB := if mine p.bankB then .free else p.bankB } }

/-- The work of a function that its drain limit cuts off: how many tasks it aborts, and the state after. -/
def State.cutOff (s : State) (f : FuncId) : Nat × State :=
  let count := fun (k : Fin 8) (p : Task → Bool) => ((s.suites[k].tasks.filter fun t => t.state != .finished).filter p).length
  match f with
  | .queue k q =>
    let p := fun (t : Task) => !t.program && t.queue == q.val
    (count k p, s.abortTasks k p 1)
  | .suite k => (count k fun _ => true, s.abortTasks k (fun _ => true) 1)
  | .panel d p =>
    let ths := (s.panel d p).threads
    (((ths.map fun t => (t.tile.k, t.tile.h)).eraseDups).length, (s.tilesGone ths .aborted).modPanel d p fun y =>
      { y with threads := [], owner := none, bankA := .free, bankB := .free })
  | .skim d =>
    let ths := s.dies[d].panels.toList.flatMap fun p => p.threads.filter fun t => t.started && s.skims t
    (((ths.map fun t => (t.tile.k, t.tile.h)).eraseDups).length, (s.tilesGone ths .aborted).dropThreads d ths)
  | .update d i => ((s.stack d i).upd.tasks.length, s.endUnit d i .aborted)
  | .mask d =>
    match s.owner d with
    | none => (0, s)
    | some k =>
      (count k fun t => t.buildsOn d, s.abortTasks k (fun t => t.buildsOn d) 1)
  | .port _ _ => (0, s)

/-- The suite whose log takes a function's events, and the die and the instance it names. -/
def State.drainEvent (s : State) (f : FuncId) (n : Nat) : State :=
  let data := fun (i c : Nat) => pack [(1, (Config.functionCode c).toNat), (1, i), (2, 0), (4, n), (8, 0)]
  match f with
  | .queue k q => s.suiteEvent k 0x0008 0xFF q (data q 0)
  | .suite k => s.suiteEvent k 0x0008 0xFF 0 (data k 1)
  | .panel d p => s.dieEvent d 0x0008 p (data p 2)
  | .port d q => s.dieEvent d 0x0008 q (data q 3)
  | .skim d => s.dieEvent d 0x0008 0 (data 0 4)
  | .update d i => s.dieEvent d 0x0008 i (data i 5)
  | .mask d => s.dieEvent d 0x0008 0 (data 0 6)

/-- The drain limit has passed: the remaining work stops ABORTED, DRAIN_TIMEOUT is logged, and the function ends its drain. -/
def State.drainTimeout (s : State) (f : FuncId) : State :=
  let (n, s1) := s.cutOff f
  (s1.drainEvent f n).drained f

/-- Tiles of a draining panel that no array has started go to another panel (R53); its speculative reads are cancelled (R167). -/
def State.moveUnstarted (s : State) (d : Fin 8) (p : Fin 104) : State :=
  let ths := (s.panel d p).threads.filter fun t => !t.started
  let t := (s.cancelSpec d p fun _ => true).modPanel d p fun x => { x with threads := x.threads.filter fun y => y.started }
  match s.otherPanel d p with
  | some q => t.modPanel d q fun x => { x with threads := x.threads ++ ths }
  | none => t.tilesGone ths .disabled

/-- Cancel the speculative reads of every panel of a die (R167). -/
def State.cancelDie (s : State) (d : Fin 8) : State := (List.finRange 104).foldl (fun u p => u.cancelSpec d p fun _ => true) s

/-- The skim tiles that a die's panels have not started when its skim controller drains: those parts of their tasks complete DISABLED (R52, R168). -/
def State.stopSkims (s : State) (d : Fin 8) : State :=
  let ths := s.dies[d].panels.toList.flatMap fun p => p.threads.filter fun t => !t.started && s.skims t
  ((s.tilesGone ths .disabled).dropThreads d ths).cancelDie d

/-- What a function does as it enters DRAINING (R53, R167, R168). -/
def State.drainStarts (s : State) (f : FuncId) : State :=
  match f with
  | .panel d p => s.moveUnstarted d p
  | .skim d => s.stopSkims d
  | .suite k => (s.suiteDies k).foldl State.cancelDie s
  | _ => s

/-! ## Writes of STATE -/

/-- The violation kind that refuses any write to a function's registers: an unpopulated die's block is reserved (R375), the function of an
absent suite refuses every write (R381), as every suite function does in the reduced states (R350, R351). -/
def State.fnRefused (s : State) (f : FuncId) : Option Nat :=
  match f with
  | .queue k _ => if s.suites[k].st = .absent ∨ s.mgt.stage = .maintenance ∨ s.mgt.stage = .recovery then some 6 else none
  | .suite _ => none
  | f => match fnDie f with | some d => if s.populated d then none else some 1 | none => none

/-- Write STOPPED to a function (R52, R54). A limit of 0 aborts at once. -/
def State.disable (s : State) (f : FuncId) : State :=
  match s.fnOf f with
  | none => s
  | some x =>
    if x.st ≠ .running then s
    else
      let s2 := (s.setFn f (x.disable s.clk.time)).drainStarts f
      if s2.drainLimit f = 0 ∧ s2.inFlight f then s2.drainTimeout f else s2

/-- Whether a write of RUNNING to a STOPPED suite is refused (R330, R331, R371): the module is not READY, a die of the suite failed
start-up, or boundary scan is unlocked. -/
def State.suiteHeld (s : State) (k : Fin 8) : Bool :=
  s.mgt.stage != .ready || s.unlocked || (s.suiteDies k).any fun d => s.mgt.failed.getLsbD d

/-- Write RUNNING to a function (R54, R302, R365, R395). A panel that leaves STOPPED is reset (R404). -/
def State.enable (s : State) (f : FuncId) : State :=
  let refuse := fun (_ : Unit) => s.violation 6 (fnLoc f).1 (fnLoc f).2
  match s.fnOf f with
  | none => refuse ()
  | some x =>
    match f with
    | .suite k => if x.st = .stopped ∧ s.suiteHeld k then refuse () else s.setFn f x.enable
    | .panel d p =>
      if (s.panel d p).role ≠ .enabled then refuse ()
      else if x.st = .stopped then s.resetPanel d p fun y => { y with fn := x.enable }
      else s.setFn f x.enable
    | .port d q => (s.setFn f x.enable).startPort d q
    | _ => s.setFn f x.enable

/-- DISABLE_FUNCTION (R52, R54, R365). -/
def execDisableFunction (f : FuncId) (s : State) : Out :=
  match s.fnRefused f with
  | some kind => .next (s.violation kind (fnLoc f).1 (fnLoc f).2)
  | none => .next (s.disable f)

/-- ENABLE_FUNCTION (R54, R302, R331, R365). -/
def execEnableFunction (f : FuncId) (s : State) : Out :=
  match s.fnRefused f with
  | some kind => .next (s.violation kind (fnLoc f).1 (fnLoc f).2)
  | none => .next (s.enable f)

/-- DRAIN_COMPLETE (R52, R54): a draining function at its natural boundary with nothing in flight. -/
def execDrainComplete (f : FuncId) (s : State) : Out :=
  match s.fnOf f with
  | none => .next s
  | some x => if x.st = .draining ∧ !s.inFlight f then .next (s.drained f) else .next s

/-- DRAIN_TIMEOUT (R52, R54): the limit of a drain still short of its boundary has passed. -/
def execDrainTimeout (f : FuncId) (s : State) : Out :=
  match s.fnOf f with
  | none => .next s
  | some x =>
    if x.st = .draining ∧ s.inFlight f ∧ x.since + s.drainLimit f ≤ s.clk.time then .next (s.drainTimeout f) else .next s

end Sys2Proof.Machine
end

