-- ==== Sys2Proof/Machine/Map.lean ====
section
/-! DEFINITION. The register map as software reads it (R358, R373 to R381): every register's word at its offset; none for a reserved
offset. -/

namespace Sys2Proof.Machine

/-- A word from fields given as (lowest bit, value). -/
def mkWord (fs : List (Nat × Nat)) : Word := BitVec.ofNat 32 ((fs.map fun (i, v) => v * 2 ^ i).foldl (· + ·) 0)

/-- Bits of a list, element i at bit i. -/
def bitsOf (l : List Bool) : Nat := (l.zipIdx.map fun (b, i) => b2n b * 2 ^ i).foldl (· + ·) 0

/-- The low and the high word of a 64-bit value. -/
def loWord (v : Nat) : Word := BitVec.ofNat 32 v
def hiWord (v : Nat) : Word := BitVec.ofNat 32 (v / 2 ^ 32)

/-- The bytes of an event record (R41). -/
def Event.bytes (e : Event) : List Byte :=
  leBytes 8 e.time ++ leBytes 2 e.code ++ leBytes 1 e.die ++ leBytes 1 e.unit ++ leBytes 2 e.seq ++ leBytes 2 0 ++ e.data

/-- A word of a log ring (R25, R41, R372): the record with SEQ q stands in slot q − 1 modulo the capacity (DEDUCED, log 23). -/
def EventLog.word (l : EventLog) (cap o : Nat) : Word :=
  match l.recs.find? fun e => (e.seq + 65535) % 65536 % cap == o / 32 with
  | some e => BitVec.ofNat 32 (field e.bytes (o % 32) 4)
  | none => 0

/-! ## Module blocks (R378) -/

/-- A mask over the firmware classes as MGT_FW_STS shows it: from the status area, 0 where stage 0x2 has not ended (R377). -/
def State.classMask (s : State) (l : List Bool) : Nat := if s.mgt.stage ∈ [.rom, .firmware, .recovery] then 0 else bitsOf l

/-- MGT (R352, R359, R364, R366, R372). -/
def State.readMgt (s : State) (o : Nat) : Option Word :=
  let m := s.mgt
  let rb := fun i => s.fuses.rollback.getD i 0 % 128
  match o with
  | 0x000 => some (mkWord [(16, 0x8800), (12, s.fuses.dies), (8, s.fuses.rev.toNat)])
  | 0x010 => some m.accViol
  | 0x014 => some m.accCnt
  | 0x020 => some m.intSts
  | 0x024 => some m.intEn
  | 0x040 => some (mkWord [(0, b2n m.lock)])
  | 0x044 => some (~~~ mkWord [(0, b2n m.lock)])
  | 0x100 => some (mkWord [(28, m.stage.code), (27, b2n m.primerSlotB), (26, b2n m.primerFallback), (8, m.failed.toNat)])
  | 0x104 => some (mkWord [(28, m.fwState.code), (24, m.fwClass), (18, s.classMask s.flash.status.trial),
      (13, s.classMask s.flash.status.staged), (8, s.classMask s.flash.status.slotB), (0, min 255 m.fwPending.length)])
  | 0x108 => some (loWord m.fwTime.toNat)
  | 0x10C => some (hiWord m.fwTime.toNat)
  | 0x110 => some (mkWord [(24, rb 3), (16, rb 2), (8, rb 1), (0, rb 0)])
  | 0x114 => some (mkWord [(8, rb 5), (0, rb 4)])
  | 0x200 => some (mkWord [(0, m.log.seq)])
  | 0x204 => some m.log.overrun
  | _ => if 0x8000 ≤ o ∧ o < 0x10000 then some (m.log.word 1024 (o - 0x8000)) else none

/-- A mailbox (R367): MBX_CMD is write-only and reads 0. -/
def Mailbox.read (x : Mailbox) (o : Nat) : Option Word :=
  match o with
  | 0x00 => some 0
  | 0x04 => some (mkWord [(31, b2n x.busy), (30, b2n x.rejected), (16, x.cmd.toNat), (8, x.status.toNat), (0, x.seq.toNat)])
  | 0x40 => some x.progress
  | _ =>
    if 0x10 ≤ o ∧ o < 0x30 ∧ o % 4 = 0 then x.args[(o - 0x10) / 4]?
    else if 0x30 ≤ o ∧ o < 0x40 ∧ o % 4 = 0 then x.results[(o - 0x30) / 4]?
    else none

/-- SEC (R323). -/
def State.readSec (s : State) (o : Nat) : Option Word :=
  match o with
  | 0x000 => some (mkWord [(16, b2n s.power.strapDie1), (8, b2n s.sec.updStep), (0, bitsOf (s.dies.toList.map fun d => d.recycling))])
  | 0x004 => some s.sec.rotPair
  | _ => if 0x100 ≤ o ∧ o < 0x130 ∧ o % 4 = 0 then s.fuses.devKey[(o - 0x100) / 4]? else none

/-- CLK (R250, R411). -/
def State.readClk (s : State) (o : Nat) : Option Word :=
  let c := s.clk
  match o with
  | 0x000 => some c.pllSts
  | 0x004 => some c.tclkCap
  | 0x040 => some (loWord c.time)
  | 0x044 => some (hiWord c.time)
  | 0x100 => some (mkWord [(30, c.syncState.code), (24, c.depth), (23, b2n c.root), (16, c.parent), (0, c.rejects.toNat)])
  | 0x104 => some c.offset
  | _ => if 0x10 ≤ o ∧ o < 0x30 ∧ o % 4 = 0 then
      some (mkWord [(24, (c.cause.toList.getD ((o - 0x10) / 4) 0).toNat), (0, c.k.toList.getD ((o - 0x10) / 4) 0)]) else none

/-- PWR (R411). -/
def State.readPwr (s : State) (o : Nat) : Option Word :=
  let p := s.power
  match o with
  | 0x000 => some (mkWord [(31, b2n p.capped), (30, b2n p.holdup), (8, p.thermal.toNat), (0, p.budget.toNat)])
  | 0x004 => some p.cap
  | 0x008 => some (mkWord [(0, p.vin.toNat)])
  | 0x00C => some (mkWord [(0, p.iin.toNat)])
  | 0x010 => some (mkWord [(0, p.moduleW.toNat)])
  | 0x060 => some p.throtCnt
  | _ =>
    if 0x20 ≤ o ∧ o < 0x40 ∧ o % 4 = 0 then (p.dieW[(o - 0x20) / 4]?).map fun w => mkWord [(0, w.toNat)]
    else if 0x40 ≤ o ∧ o < 0x60 ∧ o % 4 = 0 then (p.suiteW[(o - 0x40) / 4]?).map fun w => mkWord [(0, w.toNat)]
    else none

/-- Whether a die is flagged for replacement (R386); lane groups count on the edges it has. -/
def State.replaceDie (s : State) (d : Fin 8) : Bool :=
  s.populated d && s.hlt.recordLoaded &&
  (decide (s.roleCount d .enabled < 92) || s.dies[d].stks.toList.any (fun x => decide (x.pcs < 56)) ||
   ((List.finRange 3).any fun e => s.edgePresent d e && decide (popcount s.dies[d].edges[e].groups.toNat 16 < 12)) ||
   !s.dies[d].inService)

/-- Whether a die has no spare left (R386). -/
def State.serviceDie (s : State) (d : Fin 8) : Bool := s.populated d && s.hlt.recordLoaded && s.roleCount d .spare == 0

/-- HLT_STS (R394). -/
def State.hltSts (s : State) : Word :=
  mkWord [(24, bitsOf ((List.finRange 8).map s.replaceDie)), (16, bitsOf ((List.finRange 8).map s.serviceDie)),
    (8, bitsOf ((List.finRange 8).map fun (d : Fin 8) => s.populated d && !s.dies[d].inService)), (0, b2n s.hlt.eol90)]

/-- HLT (R394); what comes from the retirement record reads 0 until it is loaded (R377). -/
def State.readHlt (s : State) (o : Nat) : Option Word :=
  match o with
  | 0x000 => some s.hltSts
  | 0x004 => some s.hlt.ctrl
  | 0x0C0 => some s.hlt.eol
  | 0x0C4 => some s.hlt.eolCi
  | 0x0D0 =>
    let n := s.flash.status.retired.length
    some (if s.hlt.recordLoaded then mkWord [(31, b2n (decide (4096 ≤ n))), (0, min n 4096)] else 0)
  | _ =>
    if 0x10 ≤ o ∧ o < 0x30 ∧ o % 4 = 0 then
      let d := fin8 ((o - 0x10) / 4)
      some (if s.populated d && s.hlt.recordLoaded then mkWord [(24, s.roleCount d .fusedOff), (16, s.roleCount d .retired),
        (8, s.roleCount d .spare), (0, s.roleCount d .enabled)] else 0)
    else if 0x40 ≤ o ∧ o < 0xC0 ∧ o % 4 = 0 then
      let d := fin8 ((o - 0x40) / 16)
      let w := (o - 0x40) / 4 % 4
      some (if s.populated d && s.hlt.recordLoaded then mkWord [(0, bitsOf ((List.range 32).map fun i =>
        (s.dies[d].panels.toList[32 * w + i]?).any fun p => p.role == .enabled))] else 0)
    else none

/-- The state code of a suite as registers show it; in MAINTENANCE every suite reads ABSENT (R350). -/
def State.suiteCode (s : State) (k : Fin 8) : Nat := if s.mgt.stage = .maintenance then 4 else s.suites[k].st.code

/-- SUI_STATEk and SFN_SUITE_STS (R322, R325). -/
def State.suiteSts (s : State) (k : Fin 8) : Word := mkWord [(31, b2n s.suites[k].clean), (0, s.suiteCode k)]

/-- SUI_LAYOUT (R322): the suite of each die, 0xF for none. -/
def State.layoutWord (s : State) : Word := mkWord ((List.finRange 8).map fun d => (4 * d.val, s.layout[d] % 16))

/-- SUI (R322). -/
def State.readSui (s : State) (o : Nat) : Option Word :=
  if o = 0 then some s.layoutWord
  else if 0x10 ≤ o ∧ o < 0x30 ∧ o % 4 = 0 then some (s.suiteSts (fin8 ((o - 0x10) / 4)))
  else if 0x40 ≤ o ∧ o < 0x80 ∧ o % 8 = 0 then some (loWord s.suites[fin8 ((o - 0x40) / 8)].scrubBytes)
  else if 0x40 ≤ o ∧ o < 0x80 ∧ o % 8 = 4 then some (hiWord s.suites[fin8 ((o - 0x40) / 8)].scrubBytes)
  else if 0x80 ≤ o ∧ o < 0xA0 ∧ o % 4 = 0 then some s.suites[fin8 ((o - 0x80) / 4)].memRot
  else none

/-! ## Die blocks (R374, R379) -/

/-- The value an RWB register reads: the last pending value, or the value in force (R360, R362). -/
def pendOr (pend : List (Nat × Word)) (o : Nat) (mask now : Word) : Word :=
  match pend.reverse.find? fun x => x.1 == o with
  | some x => (x.2 &&& mask) ||| (now &&& ~~~mask)
  | none => now

/-- TRW (R46, R47, R174, R205, R213, R216, R362); `free` request entries of the die are free. -/
def Trowel.read (x : Trowel) (free : Nat) (o : Nat) : Option Word :=
  match o with
  | 0x000 => some (mkWord [(0, b2n (!x.pend.isEmpty))])
  | 0x010 => some x.wdog
  | 0x014 => some x.age
  | 0x018 => some (pendOr x.pend 0x18 0xFF00FFC0 x.slice)
  | 0x01C => some x.drain
  | 0x020 => some (pendOr x.pend 0x20 0xC0000000 x.bwd)
  | 0x024 => some x.bwdPairs
  | 0x030 => some (mkWord [(16, x.rqtPeak.toNat), (0, free)])
  | 0x034 => some x.c0Late
  | 0x140 => some x.step
  | _ =>
    if 0x100 ≤ o ∧ o < 0x140 ∧ o % 8 = 0 then (x.phase[(o - 0x100) / 8]?).map fun v => loWord v.toNat
    else if 0x100 ≤ o ∧ o < 0x140 ∧ o % 8 = 4 then (x.phase[(o - 0x100) / 8]?).map fun v => hiWord v.toNat
    else none

/-- Whether a task that satisfies a test runs on a die of its suite. -/
def State.runsOn (s : State) (d : Fin 8) (p : Task → Bool) : Bool :=
  match s.owner d with
  | none => false
  | some k => s.suites[k].tasks.any fun t => t.state == .running && t.desc.dieMask.getLsbD d && p t

/-- RLY (R128). -/
def State.readRly (s : State) (d : Fin 8) (o : Nat) : Option Word :=
  let x := s.dies[d].rly
  match o with
  | 0x000 => some (mkWord [(8, x.lastStatus.toNat), (0, b2n (s.runsOn d fun t => t.desc.type == 3))])
  | 0x100 => some x.cntIndex
  | 0x104 => some x.cntTrim
  | 0x108 => some x.cntCap
  | _ => none

/-- SKM (R168). -/
def Skim.read (x : Skim) (o : Nat) : Option Word :=
  match o with
  | 0x000 => some (mkWord [(16, b2n x.raEn), (8, x.raDepth.toNat), (0, x.fn.st.code)])
  | 0x100 => some x.issued
  | 0x104 => some x.used
  | 0x108 => some x.cancelled
  | _ => none

/-- MSK (R299). -/
def State.readMsk (s : State) (d : Fin 8) (o : Nat) : Option Word :=
  let x := s.dies[d].msk
  match o with
  | 0x000 => some (mkWord [(0, x.fn.st.code)])
  | 0x004 => some (mkWord [(1, min 255 (match s.owner d with | some k => (s.builtNow k).length | none => 0)),
      (0, b2n (s.runsOn d fun t => t.desc.type == 6 && t.desc.mode == 2))])
  | 0x100 => some x.sanded
  | 0x104 => some x.feathered
  | 0x108 => some x.short
  | 0x10C => some x.withheld
  | _ => none

/-- PNL (R105, R395): what the retirement record loads reads 0 until then (R377). -/
def State.readPnl (s : State) (d : Fin 8) (p : Fin 104) (o : Nat) : Option Word :=
  let x := s.panel d p
  match o with
  | 0x000 => some (mkWord [(0, x.fn.st.code)])
  | 0x004 => some (mkWord [(30, x.role.code), (16, x.reason), (0, x.storeCorr.toNat)])
  | 0x008 => some (mkWord [(16, s.roBase d p % 65536), (0, x.roNow.toNat)])
  | 0x100 => some x.satCnt
  | 0x104 => some (loWord x.offgrid.toNat)
  | 0x108 => some (hiWord x.offgrid.toNat)
  | 0x10C => some (mkWord [(16, x.chkSkipped.toNat), (0, x.chkMismatch.toNat)])
  | 0x110 => some x.chkCtrl
  | 0x114 => some x.gridLast
  | _ => none

/-- Whether the retirement record's stacks and edges have been loaded (R377): stage 0x4 has ended. -/
def State.stacksLoaded (s : State) : Bool := s.mgt.stage == .panels || s.mgt.stage == .scrubTime || s.mgt.stage == .ready

/-- STK (R214, R279, R324); what the retirement record loads reads 0 until then (R377, log 35). -/
def State.readStk (s : State) (d : Fin 8) (i : Fin 12) (o : Nat) : Option Word :=
  let x := s.stack d i
  match o with
  | 0x000 => some (mkWord [(24, x.temp % 256), (16, b2n (!x.pend.isEmpty)), (15, b2n x.refresh2x), (8, if s.stacksLoaded then x.pcs else 0)])
  | 0x004 => some (if s.stacksLoaded then mkWord [(0, x.cap)] else 0)
  | 0x008 => some (loWord x.pcRetired.toNat)
  | 0x00C => some (hiWord x.pcRetired.toNat)
  | 0x010 => some (pendOr x.pend 0x10 0xFFF x.arb)
  | 0x020 => some x.eccCorr
  | 0x024 => some x.tagRetry
  | 0x028 => some x.poisonCnt
  | 0x02C => some x.c0Over
  | 0x100 => some (mkWord [(0, x.upd.fn.st.code)])
  | 0x104 => some (mkWord [(8, min 64 x.upd.opened.length), (0, b2n (s.midBlock d i))])
  | 0x110 => some x.upd.blocks
  | 0x114 => some x.upd.frozenDrop
  | 0x118 => some x.upd.satSkip
  | 0x11C => some x.upd.tagSkip
  | 0x120 => some x.upd.dup
  | 0x124 => some x.upd.replayed
  | 0x200 => some (mkWord [(16, x.epoch % 65536), (0, b2n x.reenc)])
  | 0x204 => some (mkWord [(0, x.pages)])
  | _ => none

/-- The topology in force (R227, R334): all sizes 1 and coordinate 0 without a section. -/
def State.topo (s : State) : Topology :=
  match s.primer.bind (·.topology) with
  | some t => t
  | none => { sizes := [1, 1, 1, 1], coord := [0, 0, 0, 0], root := [0, 0, 0, 0] }

/-- SCR (R249). -/
def State.readScr (s : State) (d : Fin 8) (q : Fin 2) (o : Nat) : Option Word :=
  let x := s.port d q
  let t := s.topo
  let nib := fun (l : List Nat) => (List.range 4).map fun i => l.getD i 0 % 16
  match o with
  | 0x000 => some (mkWord [(28, x.st.code), (26, x.width), (25, b2n (!x.pend.isEmpty)), (24, b2n x.tsParent), (10, x.pairs.toNat)])
  | 0x004 => some (mkWord [(31, b2n x.autoDegrade), (30, b2n x.autoRetry), (0, x.fn.st.code)])
  | 0x008 => some (pendOr x.pend 0x8 0xFFFF x.arb)
  | 0x00C => some (mkWord [(0, x.degrade.toNat)])
  | 0x010 => some (mkWord ((nib t.coord).zipIdx.map (fun (v, i) => (16 + 4 * i, v)) ++ (nib t.sizes).zipIdx.map fun (v, i) => (4 * i, v)))
  | 0x020 => some x.cwCorr
  | 0x024 => some x.cwUncorr
  | 0x028 => some x.replay
  | 0x02C => some x.c0Over
  | 0x030 => some x.authFail
  | 0x034 => some x.drop
  | _ => none

/-- Whether the edges of a die train: in stage 0x4, and while a die is recycled (R329, R405; log 24). -/
def State.edgeTrains (s : State) (d : Fin 8) (e : Fin 3) : Bool :=
  s.mgt.stage == .memory || s.dies[d].recycling || s.dies[fin8 (edgeFar d e)].recycling

/-- D2D (R215): the registers of an absent edge read 0, and D2D_STS has its reset value once the retirement record is loaded (R377, log 35). -/
def State.readD2d (s : State) (d : Fin 8) (e : Fin 3) (o : Nat) : Option Word :=
  let x := s.dies[d].edges[e]
  if o = 0x0 ∨ o = 0x4 ∨ o = 0x8 ∨ o = 0xC then
    some (if !s.edgePresent d e then 0 else match o with
      | 0x0 =>
        let live := [(30, b2n (s.edgeTrains d e)), (29, b2n (!x.pend.isEmpty))]
        mkWord (if s.stacksLoaded then [(31, 1), (16, edgeFar d e), (0, x.groups.toNat)] ++ live else live)
      | 0x4 => pendOr x.pend 0x4 0xFFF x.arb
      | 0x8 => x.c0Over
      | _ => x.rerouted)
  else none

/-- A register of a die block, by its offset in the block (R374). -/
def State.readDie (s : State) (d : Fin 8) (o : Nat) : Option Word :=
  if o < 0x10000 then s.dies[d].trw.read (16384 - s.dies[d].entriesUsed) o
  else if o < 0x20000 then s.readRly d (o - 0x10000)
  else if o < 0x30000 then s.dies[d].skm.read (o - 0x20000)
  else if o < 0x40000 then s.readMsk d (o - 0x30000)
  else if o < 0x5A000 then s.readPnl d (Fin.ofNat 104 ((o - 0x40000) / 0x400)) ((o - 0x40000) % 0x400)
  else if 0x80000 ≤ o ∧ o < 0x98000 then s.readStk d (Fin.ofNat 12 ((o - 0x80000) / 0x2000)) ((o - 0x80000) % 0x2000)
  else if 0xC0000 ≤ o ∧ o < 0xC8000 then s.readScr d (Fin.ofNat 2 ((o - 0xC0000) / 0x4000)) ((o - 0xC0000) % 0x4000)
  else if 0xE0000 ≤ o ∧ o < 0xE0300 then s.readD2d d (Fin.ofNat 3 ((o - 0xE0000) / 0x100)) ((o - 0xE0000) % 0x100)
  else none

/-! ## Suite functions (R25, R380) -/

/-- A submission queue's registers (R25). -/
def SubQueue.read (x : SubQueue) (o : Nat) : Option Word :=
  match o with
  | 0x00 => some (loWord x.base.toNat)
  | 0x04 => some (hiWord x.base.toNat)
  | 0x08 => some x.size
  | 0x0C => some (BitVec.ofNat 32 x.tail)
  | 0x10 => some (BitVec.ofNat 32 x.head)
  | 0x14 => some (mkWord [(2, b2n x.err), (0, x.fn.st.code)])
  | _ => none

/-- The registers of a suite function other than its status (R380). -/
def Suite.read (u : Suite) (o : Nat) : Option Word :=
  match o with
  | 0x100 => some (loWord u.cq.base.toNat)
  | 0x104 => some (hiWord u.cq.base.toNat)
  | 0x108 => some u.cq.size
  | 0x10C => some (BitVec.ofNat 32 u.cq.head)
  | 0x110 => some (BitVec.ofNat 32 u.cq.tail)
  | 0x200 => some (BitVec.ofNat 32 u.log.seq)
  | 0x204 => some u.log.overrun
  | 0x300 => some u.sclLo
  | 0x304 => some u.sclHi
  | 0x308 => some u.sclSlots
  | 0x30C => some u.sclRaised
  | 0x310 => some u.sclPromoted
  | 0x314 => some u.sclInvalid
  | 0x330 => some u.step
  | 0x340 => some u.skmLo
  | 0x344 => some u.skmHi
  | 0x348 => some u.skmSlots
  | 0x34C => some u.skmWidened
  | 0x380 => some u.ast.baseLo
  | 0x384 => some u.ast.baseHi
  | 0x388 => some u.ast.size
  | 0x38C => some u.ast.ctrl
  | 0x390 => some (mkWord [(16, u.ast.written % 65536), (0, u.ast.depth % 65536)])
  | 0x394 => some (BitVec.ofNat 32 u.ast.used)
  | 0x398 => some u.ast.peak
  | 0x3C0 => some u.gnorm
  | 0x3C4 => some u.gnormStep
  | 0x3C8 => some u.gnormFlags
  | 0x400 => some u.lrLo
  | 0x404 => some u.lrHi
  | 0x408 => some u.lrSlots
  | 0x488 => some (loWord u.scrubBytes)
  | 0x48C => some (hiWord u.scrubBytes)
  | 0x500 => some u.intSts
  | 0x504 => some u.intEn
  | _ =>
    if o < 0x100 then (u.sq[o / 0x40]?).bind fun q => q.read (o % 0x40)
    else if 0x320 ≤ o ∧ o < 0x330 ∧ o % 4 = 0 then u.seed[(o - 0x320) / 4]?
    else if 0x600 ≤ o ∧ o < 0x644 then u.mbx.read (o - 0x600)
    else if 0x40000 ≤ o ∧ o < 0x80000 then some (u.log.word 8192 (o - 0x40000))
    else none

/-- Whether a suite function reads its reset values: its suite is absent or the module reduced (R381, R350, R351). -/
def State.sfnAbsent (s : State) (k : Fin 8) : Bool :=
  s.suites[k].st == .absent || s.mgt.stage == .maintenance || s.mgt.stage == .recovery

/-- The word of a suite function's register (R319, R380, R381): an absent suite reads reset values and ABSENT; while SCRUBBING only the
suite status, the bytes scrubbed and a mailbox that is BUSY show. -/
def State.readSfn (s : State) (k : Fin 8) (o : Nat) : Option Word :=
  let u := s.suites[k]
  if o = 0x480 then some (if s.mgt.stage = .recovery then 3 else if s.sfnAbsent k then 4 else s.suiteSts k)
  else if s.sfnAbsent k then Suite.reset.read o
  else if u.st = .scrubbing then
    (if o = 0x488 ∨ o = 0x48C then u.read o
     else if o = 0x604 then some (mkWord [(31, 1)])
     else Suite.reset.read o)
  else u.read o

/-! ## The whole map -/

/-- The word of a register as it stands, apart from latched HI words. Function 0 is the management space (R373); in RECOVERY only its MGT
and MBX blocks are served (R351). -/
def State.readRaw (s : State) (fn off : Nat) : Option Word :=
  if off % 4 ≠ 0 then none
  else if fn = 0 then
    (if off < 0x10000 then s.readMgt off
     else if off < 0x20000 then s.mbx.read (off - 0x10000)
     else if s.mgt.stage = .recovery then none
     else if off < 0x30000 then s.readSec (off - 0x20000)
     else if off < 0x40000 then s.readClk (off - 0x30000)
     else if off < 0x50000 then s.readPwr (off - 0x40000)
     else if off < 0x60000 then s.readHlt (off - 0x50000)
     else if off < 0x70000 then s.readSui (off - 0x60000)
     else if 0x100000 ≤ off ∧ off < 0x1100000 ∧ s.populated ((off - 0x100000) / 0x200000) then
       s.readDie (fin8 ((off - 0x100000) / 0x200000)) ((off - 0x100000) % 0x200000)
     else none)
  else if fn ≤ 8 then s.readSfn (fin8 (fn - 1)) off
  else none

/-- Whether an offset is the LO half of a pair whose read latches its HI half (R47, R105, R322, R325, R352, R411). -/
def latchPair (fn off : Nat) : Bool :=
  if fn = 0 then
    off == 0x108 || off == 0x30040 || (decide (0x60040 ≤ off) && decide (off < 0x60080) && off % 8 == 0) ||
    (decide (0x100000 ≤ off) && decide (off < 0x1100000) &&
      (let o := (off - 0x100000) % 0x200000
       (decide (0x100 ≤ o) && decide (o < 0x140) && o % 8 == 0) ||
       (decide (0x40000 ≤ o) && decide (o < 0x5A000) && (o - 0x40000) % 0x400 == 0x104)))
  else off == 0x488

/-- The latched HI word of a pair; 0 before any read of LO (log 5). -/
def State.latched (s : State) (fn off : Nat) : Word :=
  ((s.latch.find? fun x => x.1 == fn && x.2.1 == off).map (·.2.2)).getD 0

/-- What a 32-bit read answers (R358); none is Unsupported Request. -/
def State.readReg (s : State) (fn off : Nat) : Option Word :=
  if 4 ≤ off ∧ latchPair fn (off - 4) ∧ (s.readRaw fn off).isSome then some (s.latched fn off) else s.readRaw fn off

end Sys2Proof.Machine
end

