-- ==== Sys2Proof/Machine/Mailbox.lean ====
section
/-! DEFINITION. The mailboxes (R367, R368): the start of a command, the refusals every command shares, its outcome and its completion. -/

namespace Sys2Proof.Machine

/-- A function's mailbox: function 0's, or a suite's. -/
def State.mailbox (s : State) (fn : Fin 9) : Mailbox := if fn.val = 0 then s.mbx else s.suites[fin8 (fn.val - 1)].mbx

/-- Update a function's mailbox. -/
def State.modMailbox (s : State) (fn : Fin 9) (f : Mailbox → Mailbox) : State :=
  if fn.val = 0 then { s with mbx := f s.mbx } else s.modSuite (fin8 (fn.val - 1)) fun u => { u with mbx := f u.mbx }

/-- Offset of a mailbox register in its function's BAR0 (R378, R380). -/
def mbxOff (fn : Fin 9) (o : Nat) : Nat := (if fn.val = 0 then 0x10000 else 0x600) + o

/-- The command codes of R368, R326 and R353. -/
def mbxCodes : List Nat := [0x01, 0x02, 0x10, 0x20, 0x21, 0x22, 0x23, 0x24, 0x25, 0x26, 0x30, 0x31, 0x32, 0x33, 0x34, 0x35, 0x36, 0x37]

/-- The refusal that a command meets whatever its arguments (R329, R350, R351, R368): an undefined code, a function that may not issue it,
a stage before READY. -/
def State.mbxRefusal (s : State) (fn : Fin 9) (code : Nat) : Option Status :=
  if code ∉ mbxCodes then some .formatError
  else if fn.val ≠ 0 ∧ code ≠ 0x01 then some .accessDenied
  else match s.mgt.stage with
    | .ready => if code = 0x37 then some .accessDenied else none
    | .maintenance => if code ∈ [0x30, 0x35, 0x36, 0x25] then none else some .accessDenied
    | .recovery => if code ∈ [0x37, 0x25] then none else some .accessDenied
    | _ => some .busy

/-- The violation kind that discards a write to a mailbox, if any (R319, R367, R381): BUSY counts for MBX_CMD and the arguments. -/
def State.mbxKind (s : State) (fn : Fin 9) : Option Nat :=
  if fn.val ≠ 0 ∧ s.sfnAbsent (fin8 (fn.val - 1)) then some 6
  else if fn.val ≠ 0 ∧ s.suites[fin8 (fn.val - 1)].st = .scrubbing then some 7
  else none

/-- A write refused while BUSY (R367): REJECTED is set and the write recorded as kind 7. -/
def State.mbxReject (s : State) (fn : Fin 9) (o : Nat) : State :=
  (s.modMailbox fn fun x => { x with rejected := true }).violation 7 fn (mbxOff fn o)

/-- Set the outcome of a function's running command. -/
def State.mbxEnd (s : State) (fn : Fin 9) (st : Status) (results : List Word) : State :=
  s.modMailbox fn fun x => { x with outcome := some (st.code, results) }

/-- A write to MBX_CMD while BUSY = 0 latches the command and sets BUSY (R367). A tenant's command ends CLEAN (R322). -/
def State.mbxBegin (s : State) (fn : Fin 9) (code : BitVec 8) : State :=
  let t := s.modMailbox fn fun x => { x with busy := true, cmd := code, progress := 0, begun := false, outcome := none }
  if fn.val = 0 then t else t.modSuite (fin8 (fn.val - 1)) fun u => { u with clean := false }

/-- A write of MBX_CMD (R367, R368). An undefined code needs no more to complete. -/
def State.writeCmd (s : State) (fn : Fin 9) (code : BitVec 8) : State :=
  match s.mbxKind fn with
  | some kind => s.violation kind fn (mbxOff fn 0)
  | none =>
    if (s.mailbox fn).busy then s.mbxReject fn 0
    else
      let t := s.mbxBegin fn code
      if code.toNat ∈ mbxCodes then t else (t.modMailbox fn fun x => { x with begun := true }).mbxEnd fn .formatError []

/-- The commands that move bytes between the module and the host (R326, R353, R368). -/
def transferCodes : List Nat := [0x02, 0x21, 0x22, 0x23, 0x25, 0x26, 0x30, 0x35, 0x37]

/-- MBX_PROGRESS of a command that moves bytes (R367): the bytes processed when it completes; their count is a free value (log 25). -/
def State.mbxProgress (s : State) (fn : Fin 9) (code : Nat) : State :=
  if code ∈ transferCodes then
    let (v, t) := s.drawFree
    t.modMailbox fn fun x => { x with progress := Config.freeBits 32 v }
  else s

/-- Run a mailbox command (R367, R368): the command that a write of MBX_CMD has started and whose effect has not begun, or a command
that starts now. While another command runs, the write is refused. A refusal of R368 is the command's outcome. -/
def State.command (s : State) (fn : Fin 9) (code : Nat) (f : State → State) : State :=
  let x := s.mailbox fn
  match s.mbxKind fn with
  | some kind => s.violation kind fn (mbxOff fn 0)
  | none =>
    if x.busy && (x.begun || x.cmd != BitVec.ofNat 8 code) then s.mbxReject fn 0
    else
      let t := (if x.busy then s else s.mbxBegin fn (BitVec.ofNat 8 code)).modMailbox fn fun y => { y with begun := true }
      match s.mbxRefusal fn code with
      | some st => t.mbxEnd fn st []
      | none => f (t.mbxProgress fn code)

/-- Put the results of a command over the result registers; a register without a result keeps its word (log 25). -/
def putResults (old : Vector Word 4) (rs : List Word) : Vector Word 4 := Vector.ofFn fun i => rs.getD i old[i]

/-- MAILBOX_UNDEFINED_COMMAND (R368): a write of MBX_CMD with a code; a code that is defined starts that command. -/
def execMailboxUndefinedCommand (fn : Fin 9) (code : BitVec 8) (s : State) : Out := .next (s.writeCmd fn code)

/-- MGT_MODULE_ID (R2, R372 table). -/
def State.moduleId (s : State) : Word := mkWord [(16, 0x8800), (12, s.fuses.dies), (8, s.fuses.rev.toNat)]

/-- IDENTIFY (R368): MGT_MODULE_ID, the serial number in two words, SUI_LAYOUT. -/
def execIdentify (fn : Fin 9) (s : State) : Out :=
  .next (s.command fn 0x01 fun t =>
    t.mbxEnd fn .done [t.moduleId, loWord t.fuses.serial.toNat, hiWord t.fuses.serial.toNat, t.layoutWord])

/-- DEBUG_UNLOCK (R371): a record signed by both keys that names this module's device key opens boundary scan at the next module reset. -/
def execDebugUnlock (fn : Fin 9) (ownerOk vendorOk : Bool) (devKey : List Word) (s : State) : Out :=
  .next (s.command fn 0x02 fun t =>
    if ownerOk && vendorOk && devKey == t.fuses.devKey then
      ({ t with flash := { t.flash with status := { t.flash.status with unlockNext := true } } }).mbxEnd fn .done []
    else t.mbxEnd fn .accessDenied [])

end Sys2Proof.Machine
end

