-- ==== Sys2Proof/Machine/Regs.lean ====
section
/-! DEFINITION. Register writes (R7, R26, R27, R39, R46 to R51, R70, R164, R174, R268, R357 to R367, R373 to R381): the access rules, buffered and
guarded registers, interrupts, doorbells and the rest of the register commands. -/

namespace Sys2Proof.Machine

/-! ## Interrupts (R366) -/

/-- Causes that persist after a clear (R366): completion records the host has not consumed and a halted queue of a suite; a DOE response of
function 0. -/
def State.persistent (s : State) (fn : Nat) : List Nat :=
  if fn = 0 then (if s.doe[0].ready then [3] else [])
  else
    let u := s.suites[fin8 (fn - 1)]
    (if ringUsed (ringLen u.cq.size) u.cq.tail u.cq.head ≠ 0 then [0] else []) ++ (if u.sq.toList.any (·.err) then [3] else [])

/-- Clear cause bits; a persisting cause sets its bit again at once, with a new message. -/
def State.clearInt (s : State) (fn : Nat) (v : Word) : State :=
  let t := if fn = 0 then s.modMgt fun m => { m with intSts := m.intSts &&& ~~~v }
    else s.modSuite (fin8 (fn - 1)) fun u => { u with intSts := u.intSts &&& ~~~v }
  (s.persistent fn).foldl (fun w i => w.raise fn i) t

/-- Write the enables: a message is sent for each bit whose cause is set and whose enable has just become 1. -/
def State.enableInt (s : State) (fn : Nat) (v : Word) : State :=
  if fn = 0 then
    let new := s.mgt.intSts &&& v &&& ~~~s.mgt.intEn
    let t := s.modMgt fun m => { m with intEn := v }
    { t with msix := ((List.range 32).filter fun i => new.getLsbD i).map (fun i => (0, i)) ++ t.msix }
  else
    let u := s.suites[fin8 (fn - 1)]
    let en := v &&& 0xFFFF
    let new := u.intSts &&& en &&& ~~~u.intEn
    let t := s.modSuite (fin8 (fn - 1)) fun x => { x with intEn := en }
    { t with msix := ((List.range 16).filter fun i => new.getLsbD i).map (fun i => (fn, i)) ++ t.msix }

/-! ## Guarded writes (R363, R364) -/

/-- 256 FCLK in TCLK (R363, R400). -/
def guardWindow : Nat := 320

/-- Any other request that reaches the MGT block breaks a pending guarded write (R363). -/
def State.breakGuard (s : State) : State := s.modMgt fun m => { m with guard := m.guard.map fun g => (g.1, g.2.1, true) }

/-- A write to MGT_LOCK: the first half of a guarded write; a second write to X within the window of the first discards both (R363). -/
def State.guardFirst (s : State) (v : Word) : State :=
  let hold := fun (t : State) => t.modMgt fun m => { m with guard := some (s.clk.time, v, false) }
  match s.mgt.guard with
  | some (t0, _, _) =>
    let t := (s.modMgt fun m => { m with guard := none }).violation 5 0 0x40
    if t0 + guardWindow < s.clk.time then hold t else t
  | none => hold s

/-- A write to MGT_LOCK_N: the pair takes effect when the complement is exact, in time and unbroken; bits of MGT_LOCK are only set (R363,
R364). -/
def State.guardSecond (s : State) (v : Word) : State :=
  match s.mgt.guard with
  | some (t0, w, broken) =>
    let t := s.modMgt fun m => { m with guard := none }
    if !broken && decide (s.clk.time ≤ t0 + guardWindow) && v == ~~~w then t.modMgt fun m => { m with lock := m.lock || w.getLsbD 0 }
    else t.violation 5 0 0x44
  | none => s.violation 5 0 0x44

/-! ## Writes by block -/

/-- A write of a STATE field: STOPPED or RUNNING; the other codes are not written (R302, R365; DEDUCED, log 26). -/
def State.writeState (s : State) (f : FuncId) (v : Nat) : State :=
  match v with
  | 0 => s.disable f
  | 1 => s.enable f
  | _ => s.violation 6 (fnLoc f).1 (fnLoc f).2

/-- MGT but for the guarded pair (R352, R359, R366, R372). -/
def State.writeMgt (s : State) (o : Nat) (v : Word) : State :=
  match o with
  | 0x014 => s.modMgt fun m => { m with accCnt := m.accCnt &&& ~~~v }
  | 0x020 => s.clearInt 0 v
  | 0x024 => s.enableInt 0 v
  | 0x204 => s.modMgt fun m => { m with log := { m.log with overrun := m.log.overrun &&& ~~~v } }
  | _ => s.violation 2 0 o

/-- A mailbox (R367). -/
def State.writeMbx (s : State) (fn : Fin 9) (o : Nat) (v : Word) : State :=
  let x := s.mailbox fn
  if o = 0 then s.writeCmd fn (BitVec.ofNat 8 v.toNat)
  else match s.mbxKind fn with
    | some kind => s.violation kind fn (mbxOff fn o)
    | none =>
      if o = 4 then s.modMailbox fn fun y => { y with rejected := y.rejected && !v.getLsbD 30 }
      else if 0x10 ≤ o ∧ o < 0x30 then
        (if x.busy then s.mbxReject fn o else s.modMailbox fn fun y => { y with args := y.args.setIfInBounds ((o - 0x10) / 4) v })
      else s.violation 2 fn (mbxOff fn o)

/-- The module blocks other than MGT and MBX (R323, R322, R394, R411); RWL registers are read-only once locked (R364). -/
def State.writeModule (s : State) (off : Nat) (v : Word) : State :=
  match off with
  | 0x20004 => { s with sec := { s.sec with rotPair := v } }
  | 0x30004 => if s.mgt.lock then s.violation 3 0 off else ({ s with clk := { s.clk with tclkCap := v &&& 0x7FF } }).applyK false
  | 0x40004 => if s.mgt.lock then s.violation 3 0 off else { s with power := { s.power with cap := v &&& 0xFFFF } }
  | 0x40060 => { s with power := { s.power with throtCnt := s.power.throtCnt &&& ~~~v } }
  | 0x50004 => if s.mgt.lock then s.violation 3 0 off else { s with hlt := { s.hlt with ctrl := v &&& 0x80FFFFFF } }
  | _ =>
    if 0x60010 ≤ off ∧ off < 0x60030 then s.writeState (.suite (fin8 ((off - 0x60010) / 4))) (v.toNat % 8)
    else if 0x60080 ≤ off ∧ off < 0x600A0 then s.modSuite (fin8 ((off - 0x60080) / 4)) fun u => { u with memRot := v }
    else s.violation 2 0 off

/-- Hold a value of a buffered register until its boundary (R362). -/
def pendAdd (pend : List (Nat × Word)) (o : Nat) (v : Word) : List (Nat × Word) := pend ++ [(o, v)]

/-- TRW (R46, R42, R48, R54, R174). -/
def State.writeTrw (s : State) (d : Fin 8) (o off : Nat) (v : Word) : State :=
  let put := fun (f : Trowel → Trowel) => s.modDie d fun x => { x with trw := f x.trw }
  match o with
  | 0x010 => put fun x => { x with wdog := v &&& 0x80FFFFFF }
  | 0x014 => put fun x => { x with age := v &&& 0xFFFFF }
  | 0x018 => put fun x => { x with pend := pendAdd x.pend 0x18 v }
  | 0x01C => put fun x => { x with drain := v }
  | 0x020 => put fun x => { x with pend := pendAdd x.pend 0x20 v }
  | _ => s.violation 2 0 off

/-- SCR (R226, R233, R249). -/
def State.writeScr (s : State) (d : Fin 8) (q : Fin 2) (o off : Nat) (v : Word) : State :=
  match o with
  | 0x4 =>
    if 2 ≤ v.toNat % 4 then s.violation 6 0 off
    else (s.modPort d q fun x => { x with autoDegrade := v.getLsbD 31, autoRetry := v.getLsbD 30 }).writeState (.port d q) (v.toNat % 4)
  | 0x8 => s.modPort d q fun x => { x with pend := pendAdd x.pend 0x8 v }
  | 0xC => s.modPort d q fun x => { x with degrade := BitVec.ofNat 16 v.toNat }
  | _ => s.violation 2 0 off

/-- A die block (R379). -/
def State.writeDie (s : State) (d : Fin 8) (o off : Nat) (v : Word) : State :=
  if o < 0x10000 then s.writeTrw d o off v
  else if o = 0x20000 then
    (if 2 ≤ v.toNat % 4 then s.violation 6 0 off
     else (s.modDie d fun x => { x with skm := { x.skm with raEn := v.getLsbD 16, raDepth := BitVec.ofNat 8 (v.toNat / 256) } }).writeState
       (.skim d) (v.toNat % 4))
  else if o = 0x30000 then s.writeState (.mask d) (v.toNat % 4)
  else if 0x40000 ≤ o ∧ o < 0x5A000 then
    let p := Fin.ofNat 104 ((o - 0x40000) / 0x400)
    (if o % 0x400 = 0 then s.writeState (.panel d p) (v.toNat % 4)
     else if o % 0x400 = 0x110 then s.modPanel d p fun x => { x with chkCtrl := v &&& 0x80FFFFFF }
     else s.violation 2 0 off)
  else if 0x80000 ≤ o ∧ o < 0x98000 then
    let i := Fin.ofNat 12 ((o - 0x80000) / 0x2000)
    (if o % 0x2000 = 0x10 then s.modStack d i fun x => { x with pend := pendAdd x.pend 0x10 v }
     else if o % 0x2000 = 0x100 then s.writeState (.update d i) (v.toNat % 4)
     else s.violation 2 0 off)
  else if 0xC0000 ≤ o ∧ o < 0xC8000 then s.writeScr d (Fin.ofNat 2 ((o - 0xC0000) / 0x4000)) ((o - 0xC0000) % 0x4000) off v
  else if 0xE0000 ≤ o ∧ o < 0xE0300 then
    let e := Fin.ofNat 3 ((o - 0xE0000) / 0x100)
    (if !s.edgePresent d e then s
     else if o % 0x100 = 4 then s.modEdge d e fun x => { x with pend := pendAdd x.pend 0x4 v }
     else s.violation 2 0 off)
  else s.violation 2 0 off

/-! ## Suite functions -/

/-- A doorbell (R27): a tail that is not below 2^SIZE, or that would make the queue hold more than 2^SIZE − 1 entries, halts the queue. -/
def State.doorbell (s : State) (k : Fin 8) (q : Fin 4) (v : Word) : State :=
  let x := s.suites[k].sq[q]
  let n := 2 ^ (x.size.toNat % 32)
  if v.toNat < n ∧ ringUsed n x.tail x.head + ringUsed n v.toNat x.tail ≤ n - 1 then
    s.modSuite k fun u => { u with sq := u.sq.set q { x with tail := v.toNat } }
  else
    let t := s.modSuite k fun u => { u with sq := u.sq.set q { x with err := true } }
    (t.suiteEvent k 0x0007 0xFF q (pack [(1, q.val), (3, 0), (4, v.toNat), (8, 0)])).raise (k.val + 1) 3

/-- Clear SFN_SQq_CTRL.ERR, so that fetching resumes (R27). -/
def State.clearErr (s : State) (k : Fin 8) (q : Fin 4) : State :=
  s.modSuite k fun u => { u with sq := u.sq.set q { u.sq[q] with err := false } }

/-- Put a half of a 64-bit base. -/
def setLo (b : BitVec 64) (v : Word) : BitVec 64 := BitVec.ofNat 64 (b.toNat / 2 ^ 32 * 2 ^ 32 + v.toNat)
def setHi (b : BitVec 64) (v : Word) : BitVec 64 := BitVec.ofNat 64 (v.toNat * 2 ^ 32 + b.toNat % 2 ^ 32)

/-- A submission queue's registers: base and size only while it is STOPPED (R26). -/
def State.writeSq (s : State) (k : Fin 8) (q : Fin 4) (o off : Nat) (v : Word) : State :=
  let x := s.suites[k].sq[q]
  let put := fun (y : SubQueue) => if x.fn.st = .stopped then s.modSuite k fun u => { u with sq := u.sq.set q y } else s.violation 6 (k.val + 1) off
  match o with
  | 0x00 => put { x with base := setLo x.base (v &&& 0xFFFFFF80) }
  | 0x04 => put { x with base := setHi x.base v }
  | 0x08 => put { x with size := v &&& 0x1F }
  | 0x0C => s.doorbell k q v
  | 0x14 =>
    if 2 ≤ v.toNat % 4 then s.violation 6 (k.val + 1) off
    else (if v.getLsbD 2 then s.clearErr k q else s).writeState (.queue k q) (v.toNat % 4)
  | _ => s.violation 2 (k.val + 1) off

/-- Whether every submission queue of a suite is STOPPED (R26, R70). -/
def Suite.queuesStopped (u : Suite) : Bool := u.sq.toList.all fun q => q.fn.st == .stopped

/-- The registers that may be written only while every queue of the suite is STOPPED (R26, R70, R169, R180, R268); none for another
offset. -/
def Suite.setStopped (u : Suite) (o : Nat) (v : Word) : Option Suite :=
  match o with
  | 0x100 => some { u with cq := { u.cq with base := setLo u.cq.base (v &&& 0xFFFFFFF0) } }
  | 0x104 => some { u with cq := { u.cq with base := setHi u.cq.base v } }
  | 0x108 => some { u with cq := { u.cq with size := v &&& 0x1F } }
  | 0x300 => some { u with sclLo := v }
  | 0x304 => some { u with sclHi := v &&& 0xFF }
  | 0x308 => some { u with sclSlots := v &&& 0xFFFF }
  | 0x320 => some { u with seed := u.seed.set 0 v }
  | 0x324 => some { u with seed := u.seed.set 1 v }
  | 0x328 => some { u with seed := u.seed.set 2 v }
  | 0x32C => some { u with seed := u.seed.set 3 v }
  | 0x330 => some { u with step := v }
  | 0x340 => some { u with skmLo := v }
  | 0x344 => some { u with skmHi := v &&& 0xFF }
  | 0x348 => some { u with skmSlots := v &&& 0xFFFF }
  | 0x380 => some { u with ast := { u.ast with baseLo := v } }
  | 0x384 => some { u with ast := { u.ast with baseHi := v &&& 0xFF } }
  | 0x388 => some { u with ast := { u.ast with size := v } }
  | 0x38C => some { u with ast := { u.ast with ctrl := v &&& 0x8000FFFF } }
  | 0x398 => some { u with ast := { u.ast with peak := u.ast.peak &&& ~~~v } }
  | 0x400 => some { u with lrLo := v }
  | 0x404 => some { u with lrHi := v &&& 0xFF }
  | 0x408 => some { u with lrSlots := v &&& 0xFFFF }
  | _ => none

/-- A suite function (R25, R380). -/
def State.writeSfn (s : State) (k : Fin 8) (o : Nat) (v : Word) : State :=
  let u := s.suites[k]
  if s.sfnAbsent k then s.violation 6 (k.val + 1) o
  else if o < 0x100 then s.writeSq k (Fin.ofNat 4 (o / 0x40)) (o % 0x40) o v
  else if 0x600 ≤ o ∧ o < 0x644 then s.writeMbx (Fin.ofNat 9 (k.val + 1)) (o - 0x600) v
  else match u.setStopped o v with
    | some w => if u.queuesStopped then s.modSuite k fun _ => w else s.violation 6 (k.val + 1) o
    | none =>
      match o with
      | 0x10C => s.modSuite k fun x => { x with cq := { x.cq with head := v.toNat } }
      | 0x204 => s.modSuite k fun x => { x with log := { x.log with overrun := x.log.overrun &&& ~~~v } }
      | 0x314 => s.modSuite k fun x => { x with sclInvalid := x.sclInvalid &&& ~~~v }
      | 0x500 => s.clearInt (k.val + 1) v
      | 0x504 => s.enableInt (k.val + 1) v
      | _ => s.violation 2 (k.val + 1) o

/-! ## Any register -/

/-- An aligned 32-bit write with all byte enables (R358, R359). A reserved offset is kind 1. -/
def State.writeReg (s : State) (fn : Fin 9) (off : Nat) (v : Word) : State :=
  let mgtOther := fn.val = 0 ∧ off < 0x10000 ∧ off ≠ 0x40 ∧ off ≠ 0x44
  let t := if mgtOther then s.breakGuard else s
  if (t.readRaw fn off).isNone then t.violation 1 fn off
  else if fn.val ≠ 0 then t.writeSfn (fin8 (fn.val - 1)) off v
  else if off = 0x40 then t.guardFirst v
  else if off = 0x44 then t.guardSecond v
  else if off < 0x10000 then t.writeMgt off v
  else if off < 0x20000 then t.writeMbx 0 (off - 0x10000) v
  else if off < 0x100000 then t.writeModule off v
  else t.writeDie (fin8 ((off - 0x100000) / 0x200000)) ((off - 0x100000) % 0x200000) off v

/-- REGISTER_WRITE (R358, R359): `size` in bytes and the byte enables of the request; any but an aligned 32-bit one is kind 0. -/
def execRegisterWrite (fn : Fin 9) (off : Nat) (size : Nat) (be : BitVec 4) (value : Word) (s : State) : Out :=
  if size = 4 ∧ off % 4 = 0 ∧ be = 0xF then .next (s.writeReg fn off value)
  else .next ((if fn.val = 0 ∧ off < 0x10000 then s.breakGuard else s).violation 0 fn off)

/-- LATCHED_READ_LO (R47, R105, R322, R352, R411): reading the LO half of a pair latches its HI half; any read of the MGT block breaks a
pending guarded write (R363). -/
def execLatchedReadLo (fn : Fin 9) (off : Nat) (s : State) : Out :=
  let t := if fn.val = 0 ∧ off < 0x10000 then s.breakGuard else s
  if latchPair fn off then
    match t.readRaw fn (off + 4) with
    | some w => .next { t with latch := (fn.val, off + 4, w) :: t.latch.filter fun (x : Nat × Nat × Word) => !(x.1 == fn.val && x.2.1 == off + 4) }
    | none => .next t
  else .next t

/-- GUARDED_WRITE (R363, R364): two writes `gap` FCLK apart; `other` tells of another request to the block in between. -/
def execGuardedWrite (off : Nat) (value : Word) (off2 : Nat) (value2 : Word) (gap : Nat) (other : Bool) (s : State) : Out :=
  let t := s.writeReg 0 off value
  let u := if other || decide (256 < gap) then t.breakGuard else t
  .next (u.writeReg 0 off2 value2)

/-- GUARD_WINDOW_EXPIRY (R363): the complement has not arrived in time; the first write is discarded. -/
def execGuardWindowExpiry (s : State) : Out :=
  match s.mgt.guard with
  | some (t0, _, _) => if t0 + guardWindow < s.clk.time then .next ((s.modMgt fun m => { m with guard := none }).violation 5 0 0x40) else .next s
  | none => .next s

/-- RWB_WRITE (R362): a write to a buffered register is held and sets CFG_PEND. -/
def execRwbWrite (fn : Fin 9) (off : Nat) (value : Word) (s : State) : Out := .next (s.writeReg fn off value)

/-- The last pending value of a one-register block, under its mask. -/
def lastPend (pend : List (Nat × Word)) (mask now : Word) : Word := (pend.getLast?.map fun x => x.2 &&& mask).getD now

/-- Whether a die's TRW block waits for a step boundary: its suite runs or drains (R362). -/
def State.trwWaits (s : State) (d : Fin 8) : Bool :=
  match s.owner d with
  | some k => s.suites[k].st == .running || s.suites[k].st == .draining
  | none => false

/-- RWB_APPLY (R362): every pending value of the block takes effect at its boundary; that of a TRW block whose suite runs is the step
boundary, which STEP_BOUNDARY carries out. -/
def execRwbApply (b : RwbBlock) (s : State) : Out :=
  .next <|
    match b with
    | .trw d => if s.trwWaits d then s else s.modDie d fun x => { x with trw := x.trw.applyPend }
    | .stk d i => s.modStack d i fun x => { x with arb := lastPend x.pend 0xFFF x.arb, pend := [] }
    | .d2d d e => s.modEdge d e fun x => { x with arb := lastPend x.pend 0xFFF x.arb, pend := [] }
    | .scr d q => s.modPort d q fun x => { x with arb := lastPend x.pend 0xFFFF x.arb, pend := [] }

/-- INT_STATUS_CLEAR (R366). -/
def execIntStatusClear (fn : Fin 9) (value : Word) (s : State) : Out :=
  .next (s.writeReg fn (if fn.val = 0 then 0x20 else 0x500) value)

/-- SQ_DOORBELL (R27). -/
def execSqDoorbell (k : Fin 8) (q : Fin 4) (value : Word) (s : State) : Out :=
  .next (s.writeSfn k (0x40 * q.val + 0xC) value)

/-- SQ_ERR_CLEAR (R27). -/
def execSqErrClear (k : Fin 8) (q : Fin 4) (s : State) : Out :=
  if s.sfnAbsent k then .next (s.violation 6 (k.val + 1) (0x40 * q.val + 0x14)) else .next (s.clearErr k q)

/-- CQ_HEAD_WRITE (R39). -/
def execCqHeadWrite (k : Fin 8) (value : Word) (s : State) : Out := .next (s.writeSfn k 0x10C value)

/-- FUNCTION0_FLR (R357): function 0's configuration space, with its DOE mailbox, and its MSI-X state: messages not yet sent are gone. -/
def execFunction0Flr (s : State) : Out :=
  .next { s with msix := s.msix.filter fun (m : Nat × Nat) => m.1 != 0, doe := s.doe.set 0 .reset }

/-- The task of a descriptor that could not be fetched (R357): its id is a free value, its other fields name nothing. -/
def lostTask (h q time : Nat) (id : Nat) : Task :=
  let d := parseTask (List.replicate 128 0)
  newTask h { d with taskId := id, waitCtr := 0xFFFF, signalCtr := 0xFFFF } q false .timeout time

/-- DMA_TIMEOUT (R357): the operation that issued the read ends TIMEOUT: a running task; function 0's mailbox command; a fetch, whose entry
completes TIMEOUT (log 27). -/
def execDmaTimeout (op : DmaOp) (s : State) : Out :=
  .next <|
    match op with
    | .task k h => s.onRunning k h fun t => if (t.desc.type = 3 ∧ t.desc.mode = 4) ∨ (t.desc.type = 10 ∧ t.desc.mode = 3) then s.stopTask k t .timeout else s
    | .mailbox =>
      if s.mbx.busy && s.mbx.outcome.isNone then (s.modMailbox 0 fun x => { x with begun := true }).mbxEnd 0 .timeout [] else s
    | .fetch k q =>
      let u := s.suites[k]
      let sq := u.sq[q]
      let n := ringLen sq.size
      if (s.coordinator k).isNone || !(u.st == .running || u.st == .draining) || sq.err || sq.fn.st == .stopped || n == 0 || sq.head == sq.tail then s
      else
        let (v, t) := s.drawFree
        t.modSuite k fun w =>
          ({ w with sq := w.sq.set q { sq with head := (sq.head + 1) % n } }).addTask
            (lostTask u.nextH q s.clk.time (Config.freeBits 32 v).toNat)

end Sys2Proof.Machine
end

