-- ==== Sys2Proof/Machine/Links.lean ====
section
/-! DEFINITION. Scrim links (R219 to R226): codewords and link-level retry, LINK cells with credits, training, lane degrade, and the states
of a port. -/

namespace Sys2Proof.Machine

/-! ## Lane pairs and widths (R226) -/

/-- Lane pairs of the widest width that `n` good pairs allow: 20, 16 or 10 lanes. -/
def widthPairs (n : Nat) : Nat := if 10 ≤ n then 10 else if 8 ≤ n then 8 else if 5 ≤ n then 5 else 0

/-- The lowest-numbered pairs of a set, up to the widest width it allows. -/
def pickPairs (good : BitVec 10) : BitVec 10 :=
  (((List.range 10).filter fun p => good.getLsbD p).take (widthPairs (popcount good.toNat 10))).foldl (fun m p => m ||| (1 <<< p)) 0

/-- Start EQUALIZE on the pairs chosen from a set (R225). -/
def State.equalize (s : State) (d : Fin 8) (q : Fin 2) (from_ : BitVec 10) : State :=
  (s.modPort d q fun y => { y with chosen := pickPairs from_ }).setPort d q .equalize

/-- Enter RETRAIN, which enters EQUALIZE at the width the good pairs allow (R225); with fewer than 5 good pairs, DOWN (R226). -/
def State.retrain (s : State) (d : Fin 8) (q : Fin 2) : State :=
  if popcount (s.port d q).pairs.toNat 10 < 5 then s.setPort d q .down
  else (s.setPort d q .retrain).equalize d q (s.port d q).pairs

/-- A training failure (R225): the third in a row puts the port DOWN, another starts again from DETECT. -/
def State.trainFail (s : State) (d : Fin 8) (q : Fin 2) : State :=
  let n := (s.port d q).fails + 1
  if 3 ≤ n then (s.modPort d q fun y => { y with fails := 0 }).setPort d q .down
  else (s.modPort d q fun y => { y with fails := n }).setPort d q .detect

/-! ## Codewords (R223) -/

/-- Codewords sent and not acknowledged (R223). -/
def Port.unacked (x : Port) : Nat := (x.txSeq + 1024 - x.txAcked) % 1024

/-- The codeword of SEQ `ack` and all before it are acknowledged (R219, R223): the frames that they complete are kept no longer. -/
def Port.acked (x : Port) (ack : Nat) : Port :=
  let next := (ack + 1) % 1024
  let n := (next + 1024 - x.txAcked) % 1024
  if n = 0 ∨ x.unacked < n then x
  else { x with txAcked := next, resends := 0, kept := x.kept.filter fun y => decide (n < (y.1 + 1024 - x.txAcked) % 1024) }

/-- A LINK cell goes out between frames: it returns the credits owed (R221, R224). -/
def Port.linkSent (x : Port) : Port := { x with owed := List.replicate 16 0 }

/-- Discard a codeword; a LINK cell with a NAK goes out once per discard run (R223). -/
def Port.discard (x : Port) : Port := if x.nakSent then x else { x.linkSent with nakSent := true }

/-- Codewords that a frame of `n` cells takes. DESIGN CHOICE (log 65): a frame begins a codeword. -/
def frameWords (n : Nat) : Nat := cdiv n 10

/-- CODEWORD_RECEIVE (R219, R223, R249): uncorrectable and out-of-order codewords are discarded; a good one is taken in order. -/
def execCodewordReceive (d : Fin 8) (q : Fin 2) (seq ack : BitVec 10) (correctable corrected : Bool) (s : State) : Out :=
  let x := s.port d q
  if x.st ≠ .active then .next s
  else .next (s.modPort d q fun y =>
    if !correctable then { y.discard with cwUncorr := y.cwUncorr.satAdd 1 }
    else
      let z := if corrected then { y with cwCorr := y.cwCorr.satAdd 1 } else y
      if seq.toNat ≠ y.rxSeq then z.discard
      else { z.acked ack.toNat with rxSeq := (y.rxSeq + 1) % 1024, nakSent := false, lastGood := s.clk.time })

/-! ## LINK cells (R221 to R224) -/

/-- Return `n` credits of channel `v`: its reserve of 65 first, the shared pool of classes C1 to C3 then (R224). -/
def Port.credit (x : Port) (v n : Nat) : Port :=
  let have_ := x.credits.getD v 65
  let back := min n (65 - have_)
  { x with credits := x.credits.set v (have_ + back), pool := if v < 4 then x.pool else min 1008 (x.pool + (n - back)) }

/-- A NAK (R223): every codeword from the named SEQ on is sent again; none when it names nothing unacknowledged. -/
def State.nak (s : State) (d : Fin 8) (q : Fin 2) (seq : Nat) : State :=
  let n := ((s.port d q).txSeq + 1024 - seq) % 1024
  if n = 0 ∨ (s.port d q).unacked < n then s
  else
    let ackTo := (seq + 1023) % 1024
    let s1 := s.modPort d q fun y =>
      let z := y.acked ackTo
      { z with replay := z.replay.satAdd n, replaysSince := z.replaysSince + n, resends := z.resends + 1 }
    if 8 ≤ (s1.port d q).resends then (s1.modPort d q fun y => { y with resends := 0 }).retrain d q else s1

/-- Count a dropped frame or cell at a port (R249). -/
def State.scrDrop (s : State) (d : Fin 8) (q : Fin 2) : State := s.modPort d q fun x => { x with drop := x.drop.satAdd 1 }

/-- LINK (R220, R221, R223, R224): credit returns, and the NAK when its flag is set; a cell with a reserved bit set is dropped. -/
def execLink (d : Fin 8) (q : Fin 2) (nak : Option (BitVec 10)) (credits : List Nat) (reserved : Bool) (s : State) : Out :=
  if (s.port d q).st ≠ .active then .next s
  else if reserved then .next (s.scrDrop d q)
  else
    let s1 := s.modPort d q fun y => ((credits.take 16).zipIdx).foldl (fun z c => z.credit c.2 c.1) y
    .next (match nak with | some a => s1.nak d q a.toNat | none => s1)

/-- IDLE (R219): a single cell, never forwarded, that carries nothing. -/
def execIdle (_d : Fin 8) (_q : Fin 2) (s : State) : Out := .next s

/-- KEEPALIVE (R219, R220): the sender's module time; no rule uses it. -/
def execKeepalive (_d : Fin 8) (_q : Fin 2) (_time : BitVec 64) (s : State) : Out := .next s

/-! ## Training (R225, R226) -/

/-- The coordinate one step from this module's in a direction of a dimension (R225, R227). -/
def State.neighbour (s : State) (dim : Nat) (plus : Bool) : List Nat :=
  let n := max 1 (s.topo.sizes.getD dim 1)
  (List.range 4).map fun i =>
    let c := s.topo.coord.getD i 0
    if i = dim then (if plus then (c + 1) % n else (c + n - 1) % n) else c

/-- The IFACE window that the running link image holds for its own class (R339, R341); none where no such image runs. -/
def State.linkWindow (s : State) : Option (Nat × Nat) :=
  let img := if s.flash.status.slotB.getD 3 false then s.flash.fwB.getD 3 none else s.flash.fwA.getD 3 none
  img.bind fun i => i.window[3]?

/-- Whether a HELLO shows the neighbour of the primer image: coordinate, torus sizes and rail (R225). -/
def State.helloFits (s : State) (d : Fin 8) (q : Fin 2) (c : HelloCell) : Bool :=
  c.coord == s.neighbour (d.val / 2) (q.val == 0) && c.sizes == (List.range 4).map (fun i => s.topo.sizes.getD i 1) &&
  c.port / 2 % 2 == d.val % 2

/-- HELLO (R225, R341): in HANDSHAKE, the wrong neighbour puts the port in MISWIRED, an IFACE outside the window fails the training, and a
match makes it ACTIVE. -/
def execHello (d : Fin 8) (q : Fin 2) (cell : HelloCell) (s : State) : Out :=
  if (s.port d q).st ≠ .handshake then .next s
  else if !s.helloFits d q cell then .next (s.setPort d q .miswired)
  else if (match s.linkWindow with | some w => decide (cell.iface < w.1 ∨ w.2 < cell.iface) | none => false) then .next (s.trainFail d q)
  else .next ((s.modPort d q fun y => { y with lastGood := s.clk.time }).setPort d q .active)

/-- SIGNAL_DETECT (R225): signal on at least 5 good pairs moves DETECT to EQUALIZE. -/
def execSignalDetect (d : Fin 8) (q : Fin 2) (pairs : BitVec 10) (s : State) : Out :=
  let x := s.port d q
  let seen := x.pairs &&& pairs
  if x.st = .detect ∧ 5 ≤ popcount seen.toNat 10 then .next (s.equalize d q seen) else .next s

/-- DETECT_RETRY (R225): DETECT looks for the signal again; the port stays in DETECT. -/
def execDetectRetry (d : Fin 8) (q : Fin 2) (s : State) : Out :=
  if (s.port d q).fn.st = .running then .next (s.startPort d q) else .next s

/-- EQUALIZE_DONE (R225, R226): chosen pairs that fail training become bad; with fewer than 5 good pairs the port is DOWN. The port takes the widest
width that its good pairs allow, and trains a pair that was not among the chosen before it goes on to ALIGN. -/
def execEqualizeDone (d : Fin 8) (q : Fin 2) (good : BitVec 10) (s : State) : Out :=
  let x := s.port d q
  if x.st ≠ .equalize then .next s
  else
    let left := x.pairs &&& ~~~(x.chosen &&& ~~~good)
    let pick := pickPairs left
    let s1 := s.modPort d q fun y => { y with pairs := left, chosen := pick }
    if popcount left.toNat 10 < 5 then .next (s1.setPort d q .down)
    else if pick &&& ~~~(x.chosen &&& good) ≠ 0 then .next s1
    else .next (s1.setPort d q .align)

/-- ALIGN_DONE (R225). -/
def execAlignDone (d : Fin 8) (q : Fin 2) (s : State) : Out :=
  if (s.port d q).st = .align then .next (s.setPort d q .handshake) else .next s

/-- TRAINING_LIMIT_EXPIRY (R225): EQUALIZE, ALIGN or HANDSHAKE beyond its limit. -/
def execTrainingLimitExpiry (d : Fin 8) (q : Fin 2) (s : State) : Out :=
  if (s.port d q).st ∈ [.equalize, .align, .handshake] then .next (s.trainFail d q) else .next s

/-- 64 µs in TCLK (R225). -/
def lossLimit : Nat := 64000

/-- LINK_LOSS_TIMEOUT (R225): no valid codeword for 64 µs in ACTIVE. -/
def execLinkLossTimeout (d : Fin 8) (q : Fin 2) (s : State) : Out :=
  let x := s.port d q
  if x.st = .active ∧ x.lastGood + lossLimit ≤ s.clk.time then .next (s.retrain d q) else .next s

/-- PAIR_DEGRADE (R226): `symbols` corrected on a running pair within 1 ms exceed SCR_DEGRADE.THRESH. -/
def execPairDegrade (d : Fin 8) (q : Fin 2) (pair : Fin 10) (symbols : Nat) (s : State) : Out :=
  let x := s.port d q
  if !x.autoDegrade ∨ symbols ≤ x.degrade.toNat ∨ !x.pairs.getLsbD pair then .next s
  else
    let s1 := s.modPort d q fun y => { y with pairs := y.pairs &&& ~~~((1 : BitVec 10) <<< pair.val) }
    .next (if x.st = .active then s1.retrain d q else s1)

/-- DOWN_RETRY (R225): a DOWN port with AUTO_RETRY tries again. -/
def execDownRetry (d : Fin 8) (q : Fin 2) (s : State) : Out :=
  let x := s.port d q
  if x.st = .down ∧ x.autoRetry ∧ x.fn.st = .running then .next (s.setPort d q .detect) else .next s

end Sys2Proof.Machine
end

