-- ==== Sys2Proof/Machine/Firmware.lean ====
section
/-! DEFINITION. Firmware and the primer image (R328, R332 to R354): the checks of an image, staging, activation scheduled and hitless, confirm,
revert, the primer slots, and recovery's checks. -/

namespace Sys2Proof.Machine

/-! ## The status area and the slots (R328) -/

/-- Write the status area: its sequence number advances. -/
def State.setStatus (s : State) (f : StatusArea → StatusArea) : State :=
  let x := f s.flash.status
  { s with flash := { s.flash with status := { x with seqNo := x.seqNo + 1 } } }

/-- A flag of a class in a list of the status area. -/
def flagOf (l : List Bool) (cls : Nat) : Bool := l.getD (cls - 1) false

/-- The image of a class in slot A or B. -/
def State.fwSlot (s : State) (cls : Nat) (b : Bool) : Option FwImage := (if b then s.flash.fwB else s.flash.fwA).getD (cls - 1) none

/-- The image a class runs: that of the slot the status area names. -/
def State.fwRun (s : State) (cls : Nat) : Option FwImage := s.fwSlot cls (flagOf s.flash.status.slotB cls)

/-- The image in a class's other slot: the staged one, or the one it left. -/
def State.fwOther (s : State) (cls : Nat) : Option FwImage := s.fwSlot cls (!flagOf s.flash.status.slotB cls)

/-- Put an image, or none, into a slot of a class. -/
def State.putFw (s : State) (cls : Nat) (b : Bool) (img : Option FwImage) : State :=
  { s with flash := if b then { s.flash with fwB := s.flash.fwB.set (cls - 1) img } else { s.flash with fwA := s.flash.fwA.set (cls - 1) img } }

/-- The classes with a flag set, in class order. -/
def classesOf (l : List Bool) : List Nat := (List.range 5).filterMap fun i => if l.getD i false then some (i + 1) else none

/-- The update order (R339), and the revert order. -/
def updateOrder : List Nat := [5, 4, 3, 2, 1]
def revertOrder : List Nat := [1, 2, 3, 4, 5]

/-! ## Checks (R337 to R339) -/

/-- Whether the form of a firmware package is that of its header: magic, a class, SECVER 1 to 64, reserved fields zero. -/
def fwForm (i : FwImage) : Bool :=
  i.magic == 0x46574C43 && decide (1 ≤ i.cls) && decide (i.cls ≤ 5) && decide (1 ≤ i.secver) && decide (i.secver ≤ 64) && i.reservedZero

/-- Whether the primer image in force demands the owner's signature on every package (R334, R337). -/
def State.cosign (s : State) : Bool := match s.primer with | some p => p.ownerCosign | none => false

/-- Signatures, tag, digest and rollback of a package (R337, R338). -/
def State.fwTrusted (s : State) (i : FwImage) : Bool :=
  i.vendorOk && (i.ownerOk || !(i.ownerSigned || s.cosign)) && i.tagOk && i.digestOk && decide (s.fuses.rollback.getD (i.cls - 1) 0 ≤ i.secver)

/-- Whether a class's image can start. -/
def State.fwValid (s : State) (cls : Nat) (i : FwImage) : Bool := fwForm i && i.cls == cls && s.fwTrusted i

/-- Whether two images may run side by side: each one's IFACE lies in the other's window of its class (R339). -/
def compatible (a b : FwImage) : Bool :=
  let wa := a.window.getD (b.cls - 1) (0, 0)
  let wb := b.window.getD (a.cls - 1) (0, 0)
  decide (wa.1 ≤ b.iface) && decide (b.iface ≤ wa.2) && decide (wb.1 ≤ a.iface) && decide (a.iface ≤ wb.2)

/-- Whether every pair of images that may run at a point of the order is compatible, while the classes of `moving` switch (R339): `done` have
switched, `now` is switching, the rest have not. -/
def State.orderOk (s : State) (moving order : List Nat) : Bool :=
  (order.filter moving.contains).all fun now =>
    let done_ := order.takeWhile (· != now)
    let run := (List.range 5).flatMap fun i =>
      let c := i + 1
      let old := (s.fwRun c).toList
      let new := (s.fwOther c).toList
      if !moving.contains c then old else if c == now then old ++ new else if done_.contains c then new else old
    run.all fun a => run.all fun b => compatible a b

/-! ## Staging -/

/-- FW_STAGE (R337 to R340, R350, R353): a package goes into the inactive slot of its class. In MAINTENANCE it takes effect at the next module
reset. -/
def execFwStage (fn : Fin 9) (img : FwImage) (s : State) : Out :=
  .next (s.command fn 0x30 fun t =>
    if t.mgt.fwState ≠ .idle ∧ t.mgt.fwState ≠ .staged then t.mbxEnd fn .busy []
    else if !fwForm img then t.mbxEnd fn .formatError []
    else if !t.fwTrusted img then t.mbxEnd fn .accessDenied []
    else
      let slot := !flagOf t.flash.status.slotB img.cls
      let t1 := t.putFw img.cls slot (some img)
      let moving := img.cls :: classesOf t.flash.status.staged
      if t.mgt.stage = .ready ∧ !t1.orderOk moving updateOrder then t.mbxEnd fn .formatError []
      else
        let t2 := if t.mgt.stage = .maintenance then
            t1.setStatus fun x => { x with slotB := x.slotB.set (img.cls - 1) slot, trial := x.trial.set (img.cls - 1) true }
          else (t1.setStatus fun x => { x with staged := x.staged.set (img.cls - 1) true }).setFwState .staged
        (t2.mgtEvent 0x1A0 0xFF 0 (pack [(1, img.cls), (1, b2n slot), (2, 0), (4, img.version), (4, img.secver), (4, 0)])).mbxEnd fn .done [])

/-- FW_UNSTAGE (R353): removes the staged image of a class, in state STAGED only. -/
def execFwUnstage (fn : Fin 9) (cls : Nat) (s : State) : Out :=
  .next (s.command fn 0x34 fun t =>
    if t.mgt.fwState ≠ .staged then t.mbxEnd fn .busy []
    else if cls = 0 ∨ 5 < cls ∨ !flagOf t.flash.status.staged cls then t.mbxEnd fn .formatError []
    else
      let t1 := (t.putFw cls (!flagOf t.flash.status.slotB cls) none).setStatus fun x => { x with staged := x.staged.set (cls - 1) false }
      (if (classesOf t1.flash.status.staged).isEmpty then t1.setFwState .idle else t1).mbxEnd fn .done [])

/-! ## Switching a class (R342 to R346) -/

/-- The new image of a class takes its configuration area: the other one where its SCHEMA differs from that of the area in use (R346). -/
def State.takeConfig (s : State) (cls : Nat) (img : FwImage) : State :=
  let area := s.flash.cfgArea.getD (cls - 1) 0
  let both := s.flash.cfgSchema.getD (cls - 1) [0, 0]
  if both.getD area 0 = img.schema then s
  else
    let areas := s.flash.cfgArea.set (cls - 1) (1 - area)
    let schemas := s.flash.cfgSchema.set (cls - 1) (both.set (1 - area) img.schema)
    { s with flash := { s.flash with cfgArea := areas, cfgSchema := schemas } }

/-- A class has switched (R342, R344): the status area names its other slot; TRIAL is set, or on a revert cleared with the image it leaves
staged (R348). -/
def State.switchClass (s : State) (cls : Nat) (revert : Bool) : State :=
  let s1 := s.setStatus fun x =>
    { x with slotB := x.slotB.set (cls - 1) (!flagOf x.slotB cls), trial := x.trial.set (cls - 1) (!revert), staged := x.staged.set (cls - 1) revert,
             failedStarts := x.failedStarts.set (cls - 1) 0 }
  match s1.fwRun cls with | some i => s1.takeConfig cls i | none => s1

/-- Log FW_SWITCHED (R354). -/
def State.logSwitched (s : State) (cls mode : Nat) (revert : Bool) : State :=
  s.mgtEvent 0x1A1 0xFF 0 (pack [(1, cls), (1, mode), (1, b2n revert), (1, 0), (4, ((s.fwRun cls).map (·.version)).getD 0), (8, s.clk.time)])

/-- The state after an activation: TRIAL, or STAGED after a revert (R348, R352). -/
def doneState (revert : Bool) : FwState := if revert then .staged else .trial

/-- The classes an activation moves, in its order: the staged ones, or on a revert the TRIAL ones. -/
def State.moving (s : State) (revert : Bool) : List Nat :=
  if revert then revertOrder.filter (flagOf s.flash.status.trial) else updateOrder.filter (flagOf s.flash.status.staged)

/-- The processors of a class (R309), by die. -/
def procDie (cls proc : Nat) : Nat := match cls with | 4 => proc / 2 | 5 => proc / 12 | _ => proc
def State.procCount (s : State) (cls : Nat) : Nat :=
  match cls with | 2 => 2 | 4 => 2 * s.fuses.dies | 5 => 12 * s.fuses.dies | _ => s.fuses.dies

/-- The in-service processors of a class in the order they hand over: Pyrhoax cores with the primary last (R342). -/
def State.procs (s : State) (cls : Nat) : List Nat :=
  let l := (List.range (s.procCount cls)).filter fun p => s.dies[fin8 (procDie cls p)].inService
  if cls = 1 then (l.filter (· != s.primaryDie.val)) ++ l.filter (· == s.primaryDie.val) else l

/-- Start switching the next of the classes, or end the activation. A class with no processor in service switches at once (R345). -/
def State.nextClass (s : State) (revert : Bool) : List Nat → State
  | [] => ({ s with sec := { s.sec with updStep := false } }.modMgt fun m => { m with fwClass := 0, fwPending := [], fwSwitched := [] }).setFwState
      (doneState revert)
  | c :: cs =>
    let ps := s.procs c
    if ps.isEmpty then
      (((s.switchClass c revert).logSwitched c 1 revert).modMgt fun m => { m with fwSwitched := m.fwSwitched ++ [c] }).nextClass revert cs
    else { s with sec := { s.sec with updStep := c == 1 } }.modMgt fun m => { m with fwClass := c, fwPending := ps }

/-- Processors that have handed over: the class switches when none is left, and the next starts (R342). -/
def State.handedOver (s : State) (gone : Nat → Bool) : State :=
  let m := s.mgt
  let left := m.fwPending.filter fun p => !gone p
  if m.fwState ≠ .switching ∨ left.length = m.fwPending.length then s
  else if !left.isEmpty then s.modMgt fun x => { x with fwPending := left }
  else
    let s1 := ((s.switchClass m.fwClass m.fwRevert).logSwitched m.fwClass m.fwMode m.fwRevert).modMgt fun x =>
      { x with fwSwitched := x.fwSwitched ++ [m.fwClass], fwPending := [] }
    s1.nextClass m.fwRevert ((s1.moving m.fwRevert).filter (· != m.fwClass))

/-! ## Activation and revert (R341 to R343, R348) -/

/-- Whether every pair of images holds in the order an activation takes (R339). -/
def State.windowsHold (s : State) (revert : Bool) : Bool :=
  s.orderOk (s.moving revert) (if revert then revertOrder else updateOrder)

/-- 100 ms (R341). -/
def armLead : Nat := 100000000

/-- Arm a scheduled activation or revert (R341, R348). -/
def State.arm (s : State) (fn : Fin 9) (revert : Bool) (time : Nat) : State :=
  if !(match s.primer with | some p => p.scheduledEn | none => false) then s.mbxEnd fn .accessDenied []
  else if time < s.clk.time + armLead ∨ 2 ^ 64 ≤ time ∨ !s.windowsHold revert then s.mbxEnd fn .formatError []
  else ((s.modMgt fun m => { m with fwMode := 0, fwRevert := revert, fwTime := BitVec.ofNat 64 time }).setFwState .armed).mbxEnd fn .done []

/-- Start a hitless activation or revert (R342, R348). -/
def State.startHitless (s : State) (fn : Fin 9) (revert : Bool) : State :=
  if !(match s.primer with | some p => p.hitlessEn | none => false) then s.mbxEnd fn .accessDenied []
  else if !s.windowsHold revert then s.mbxEnd fn .formatError []
  else
    let t := (s.modMgt fun m => { m with fwMode := 1, fwRevert := revert, fwSwitched := [] }).setFwState .switching
    (t.nextClass revert (t.moving revert)).mbxEnd fn .done []

/-- The outcome of an activation that finds no image staged or another update open (R340, R341). -/
def State.mayActivate (s : State) (fn : Fin 9) (f : State → State) : State :=
  match s.mgt.fwState with
  | .staged => f s
  | .idle => s.mbxEnd fn .formatError []
  | _ => s.mbxEnd fn .busy []

/-- FW_ACTIVATE with MODE 0 (R339, R341). -/
def execFwActivateScheduled (fn : Fin 9) (t : Nat) (s : State) : Out :=
  .next (s.command fn 0x31 fun u => u.mayActivate fn fun v => v.arm fn false t)

/-- FW_ACTIVATE with MODE 1 (R339, R342). -/
def execFwActivateHitless (fn : Fin 9) (s : State) : Out :=
  .next (s.command fn 0x31 fun u => u.mayActivate fn fun v => v.startHitless fn false)

/-- FW_REVERT (R348): accepted while TRIAL flags are set, with the modes and the time of FW_ACTIVATE. -/
def execFwRevert (fn : Fin 9) (mode : Nat) (t : Nat) (s : State) : Out :=
  .next (s.command fn 0x33 fun u =>
    if u.mgt.fwState ≠ .trial ∨ (classesOf u.flash.status.trial).isEmpty then u.mbxEnd fn .busy []
    else match mode with
      | 0 => u.arm fn true t
      | 1 => u.startHitless fn true
      | _ => u.mbxEnd fn .formatError [])

/-- SCHEDULED_ACTIVATION (R341): at T the classes restart in order and the ACTIVE ports retrain, unless a suite is RUNNING or DRAINING. -/
def execScheduledActivation (s : State) : Out :=
  let m := s.mgt
  if m.fwState ≠ .armed ∨ s.clk.time < m.fwTime.toNat then .next s
  else
    let s1 := s.modMgt fun x => { x with fwTime := 0 }
    if s.suites.toList.any fun u => u.st == .running || u.st == .draining then
      .next ((s1.mgtEvent 0x1A2 0xFF 0 (pack [(1, 0), (1, 0), (2, 0), (8, s.clk.time), (4, 0)])).setFwState
        (if m.fwRevert then .trial else .staged))
    else
      let s2 := (s1.moving m.fwRevert).foldl (fun t c => (t.switchClass c m.fwRevert).logSwitched c 0 m.fwRevert) (s1.setFwState .switching)
      let s3 := (List.finRange 16).foldl (fun t p =>
        let d := fin8 (p.val / 2)
        let q := Fin.ofNat 2 (p.val % 2)
        if (t.port d q).st = .active then t.retrain d q else t) s2
      .next (s3.setFwState (doneState m.fwRevert))

/-- Whether a mailbox command runs on any function. -/
def State.mailboxRuns (s : State) : Bool := s.mbx.busy || s.suites.toList.any fun u => u.mbx.busy

/-- HITLESS_HANDOVER (R342): a processor of the switching class runs its new image; a management controller hands over while no mailbox
command runs, and Pyrhoax cores take their turn. -/
def execHitlessHandover (proc : Nat) (s : State) : Out :=
  if (s.mgt.fwClass = 1 ∧ s.mgt.fwPending.head? ≠ some proc) ∨ (s.mgt.fwClass = 2 ∧ s.mailboxRuns) then .next s
  else .next (s.handedOver (· == proc))

/-- HANDOVER_TIMEOUT (R343): the activation stops, the classes already switched go back under R348, and FW_WITHHELD is logged. -/
def execHandoverTimeout (proc : Nat) (s : State) : Out :=
  let m := s.mgt
  if m.fwState ≠ .switching ∨ !m.fwPending.contains proc then .next s
  else
    let s1 := m.fwSwitched.reverse.foldl (fun t c => (t.switchClass c (!m.fwRevert)).logSwitched c m.fwMode (!m.fwRevert)) s
    let s2 := s1.mgtEvent 0x1A2 0xFF 0 (pack [(1, 1), (1, m.fwClass), (2, 0), (8, s.clk.time), (4, 0)])
    .next (({ s2 with sec := { s2.sec with updStep := false } }.modMgt fun x => { x with fwClass := 0, fwPending := [], fwSwitched := [] }).setFwState
      (if m.fwRevert then .trial else .staged))

/-! ## Confirm (R347) -/

/-- Raise a rollback counter to a security version; fuses are only blown (R338). -/
def Fuses.raise (f : Fuses) (i secver : Nat) : Fuses := { f with rollback := f.rollback.set i (max (f.rollback.getD i 0) (min 64 secver)) }

/-- Whether the running primer image is one that was staged and not yet confirmed (R347). -/
def State.newPrimer (s : State) : Bool := s.flash.status.primerTrial && s.primer.isSome && s.mgt.primerSlotB == s.flash.status.primerB

/-- The configuration area that a class leaves is released (R347): it holds no schema. -/
def Flash.releaseConfig (f : Flash) (cls : Nat) : Flash :=
  let area := f.cfgArea.getD (cls - 1) 0
  { f with cfgSchema := f.cfgSchema.set (cls - 1) ((f.cfgSchema.getD (cls - 1) [0, 0]).set (1 - area) 0) }

/-- FW_CONFIRM (R347): the rollback counters of the switched classes and of a new primer image advance, TRIAL clears, and the update ends. -/
def execFwConfirm (fn : Fin 9) (s : State) : Out :=
  .next (s.command fn 0x32 fun t =>
    if (t.mgt.fwState ≠ .trial ∧ t.mgt.fwState ≠ .idle) ∨ !(classesOf t.flash.status.staged).isEmpty then t.mbxEnd fn .busy []
    else
      let cs := classesOf t.flash.status.trial
      let f1 := cs.foldl (fun f c => match t.fwRun c with | some i => f.raise (c - 1) i.secver | none => f) t.fuses
      let f2 := if t.newPrimer then (match t.primer with | some p => f1.raise 5 p.secver | none => f1) else f1
      let n := ((List.range 6).filter fun i => f2.rollback.getD i 0 != t.fuses.rollback.getD i 0).length
      let t1 := { t with fuses := f2, flash := cs.foldl Flash.releaseConfig t.flash }.setStatus fun x =>
        { x with trial := List.replicate 5 false, failedStarts := List.replicate 5 0, primerTrial := x.primerTrial && !t.newPrimer }
      let mask := cs.foldl (fun m c => m + 2 ^ (c - 1)) 0
      ((t1.mgtEvent 0x1A3 0xFF 0 (pack [(1, mask), (3, 0), (4, n), (8, t.clk.time)])).setFwState .idle).mbxEnd fn .done [])

/-! ## The primer image (R332 to R335) -/

/-- The die sets of R18. -/
def suiteSets : List (List Nat) :=
  [[0], [1], [2], [3], [4], [5], [6], [7], [0, 1], [2, 3], [4, 5], [6, 7], [0, 1, 2, 3], [4, 5, 6, 7], [0, 1, 2, 3, 4, 5, 6, 7]]

/-- Whether a layout is one of R18 over the populated dies: each suite number 0 to 7 holds a permitted set, other dies are 0xF. -/
def layoutOk (dies : Nat) (l : List Nat) : Bool :=
  l.length == 8 && (List.range 8).all (fun d => let k := l.getD d 15; decide (k < 8 ∧ d < dies) || k == 15) &&
  (List.range 8).all fun k =>
    let ds := (List.range 8).filter fun d => l.getD d 15 == k
    ds.isEmpty || suiteSets.contains ds

/-- Whether a topology obeys R227: 1 to 8 modules in dimensions 0 to 2, 1 to 4 in dimension 3, size 1 in a dimension the variant does not
carry, coordinates inside. -/
def topologyOk (dies : Nat) (t : Topology) : Bool :=
  (List.range 4).all fun i =>
    let n := t.sizes.getD i 0
    decide (1 ≤ n) && decide (n ≤ (if i = 3 then 4 else 8)) && decide (t.coord.getD i 0 < n) && decide (t.root.getD i 0 < n) &&
    (decide (2 * i < dies) || n == 1)

/-- Whether the policy limits lie in the ranges of R335. -/
def policyOk (p : Policy) : Bool :=
  decide (-127 ≤ p.scaleMax) && decide (p.scaleMax ≤ 127) && decide (p.promoteMax ≤ 255) && decide (1 ≤ p.widenMax) && decide (p.widenMax ≤ 16) &&
  decide (1 ≤ p.rebalClamp) && decide (p.rebalClamp ≤ 25) && decide (1 ≤ p.rebalMinSteps) && decide (p.rebalMinSteps ≤ 255) &&
  decide (1 ≤ p.pcPoison) && decide (p.pcPoison ≤ 255) && decide (1 ≤ p.edgeRetry) && decide (p.edgeRetry ≤ 255) && decide (1 ≤ p.roLimit) &&
  decide (p.roLimit ≤ 255) && p.reservedZero

/-- The form of a primer image: magic, length, SECVER, SCHEMA in the management image's window, and its sections (R332 to R335). -/
def State.primerForm (s : State) (p : Primer) : Bool :=
  let win := ((s.fwRun 2).map (·.primerWin)).getD (0, 0xFFFF)
  p.magic == 0x50524C43 && decide (p.length ≤ 8 * 1024 * 1024) && decide (1 ≤ p.secver) && decide (p.secver ≤ 64) &&
  decide (win.1 ≤ p.schema) && decide (p.schema ≤ win.2) && p.sectionsOk &&
  (match p.layout with | some l => layoutOk s.fuses.dies l | none => false) && p.topology.all (topologyOk s.fuses.dies) && p.policy.all policyOk

/-- Digest, signature, owner and rollback of a primer image (R333, R338). -/
def State.primerTrusted (s : State) (p : Primer) (owner : Option (List Byte)) : Bool :=
  p.bodyOk && p.sigOk && owner == some p.ownerDigest && decide (s.fuses.rollback.getD 5 0 ≤ p.secver)

/-- The owner digest in the highest written owner slot (R333). -/
def State.ownerDigest (s : State) : Option (List Byte) := s.fuses.ownerSlots.getLast?

/-- Whether an enrolment or transfer record may write an owner slot (R333): enrolment on a module without an owner, transfer on one with. -/
def State.recordOk (s : State) (r : OwnerRecord) : Bool :=
  r.vendorOk && r.devKey == s.fuses.devKey && decide (s.fuses.ownerSlots.length < 4) &&
  (if s.fuses.ownerSlots.isEmpty then !r.transfer else r.transfer && r.currentOwnerOk)

/-- The slot a primer image is staged into: the one that is not running (R332). -/
def State.primerSpare (s : State) : Bool := if s.primer.isSome then !s.mgt.primerSlotB else !s.flash.status.primerB

/-- PRIMER_STAGE (R332, R333, R353): a valid image goes into the other primer slot, which the next reset reads; its record writes one owner slot. -/
def execPrimerStage (fn : Fin 9) (img : Primer) (record : Option OwnerRecord) (s : State) : Out :=
  .next (s.command fn 0x35 fun t =>
    let owner := match record with | some r => some r.newOwner | none => t.ownerDigest
    if !t.primerForm img then t.mbxEnd fn .formatError []
    else if !t.primerTrusted img owner ∨ !(record.all t.recordOk) then t.mbxEnd fn .accessDenied []
    else
      let slot := t.primerSpare
      let t1 := { t with
        fuses := { t.fuses with ownerSlots := t.fuses.ownerSlots ++ (record.map fun (r : OwnerRecord) => r.newOwner).toList },
        flash := if slot then { t.flash with primerB := some img } else { t.flash with primerA := some img } }
      (t1.setStatus fun x => { x with primerB := slot, primerTrial := true }).mbxEnd fn .done [])

/-- PRIMER_SELECT (R332, R353): the slot the next reset reads. -/
def execPrimerSelect (fn : Fin 9) (slot : Nat) (s : State) : Out :=
  .next (s.command fn 0x36 fun t =>
    if 1 < slot then t.mbxEnd fn .formatError [] else (t.setStatus fun x => { x with primerB := slot == 1 }).mbxEnd fn .done [])

end Sys2Proof.Machine
end

