-- ==== Sys2Proof/Machine/Attest.lean ====
section
/-! DEFINITION. The DOE mailboxes and the SPDM responder (R301, R309 to R312, R356), and the mailbox commands SPDM and MEAS_LOG. -/

namespace Sys2Proof.Machine

/-! ## Measurement blocks (R309, R310, R312) -/

/-- Bits of the processors of a class that satisfy a test, as 12 bytes. -/
def procBits (n : Nat) (p : Nat → Bool) : List Byte := leBytes 12 (((List.range n).filter p).foldl (fun a i => a + 2 ^ i) 0)

/-- One image entry of a manifest: version, security version, digest; zeros for none. -/
def imageEntry (i : Option FwImage) : List Byte :=
  match i with
  | some x => leBytes 4 x.version ++ leBytes 4 x.secver ++ (x.digest ++ List.replicate 48 0).take 48
  | none => List.replicate 56 0

/-- Whether a processor of the switching class already runs its new image. -/
def State.onNew (s : State) (cls p : Nat) : Bool :=
  s.mgt.fwState == .switching && s.mgt.fwClass == cls && !s.mgt.fwPending.contains p && s.dies[fin8 (procDie cls p)].inService

/-- The processors of a class whose die is out of service, 12 bytes (R309, R312). -/
def State.absentProcs (s : State) (cls : Nat) : List Byte := procBits (s.procCount cls) fun p => !s.dies[fin8 (procDie cls p)].inService

/-- A firmware manifest of a running class, 140 bytes. -/
def State.manifest (s : State) (cls : Nat) : List Byte :=
  let n := s.procCount cls
  let two := (List.range n).any (s.onNew cls)
  leBytes 1 cls ++ leBytes 1 n ++ leBytes 1 (if two then 2 else 1) ++ leBytes 1 0 ++ imageEntry (s.fwRun cls) ++
  imageEntry (if two then s.fwOther cls else none) ++ procBits n (s.onNew cls) ++ s.absentProcs cls

/-- The manifest of a staged image: FLAGS.STAGED, no processor runs it. -/
def State.stagedManifest (s : State) (cls : Nat) : List Byte :=
  leBytes 1 cls ++ leBytes 1 (s.procCount cls) ++ leBytes 1 1 ++ leBytes 1 1 ++ imageEntry (s.fwOther cls) ++ imageEntry none ++
  List.replicate 12 0 ++ s.absentProcs cls

/-- A die's byte in index 0x07: 0 in service, 1 unpopulated, 2 recycling, 3 failed. -/
def State.dieByte (s : State) (d : Fin 8) : Nat :=
  if !s.populated d then 1 else if s.dies[d].recycling then 2 else if s.dies[d].inService then 0 else 3

/-- Report status, index 0x07 (R312, R351). -/
def State.reportStatus (s : State) : List Byte :=
  let part := s.mgt.stage == .recovery || (List.finRange 8).any fun (d : Fin 8) => s.dies[d].recycling
  leBytes 1 (b2n part) ++ leBytes 3 0 ++ (List.finRange 8).flatMap fun (d : Fin 8) => leBytes 1 (s.dieByte d)

/-- The content of a measurement index; none where the module has no such block. In RECOVERY only index 0x07 exists (R351). -/
def State.measurement (s : State) (index : Nat) : Option (List Byte) :=
  let suite := fun (i : Nat) (f : Suite → List Byte) => some (f s.suites[fin8 i])
  if index = 0x07 then some s.reportStatus
  else if s.mgt.stage = .recovery then none
  else if 1 ≤ index ∧ index ≤ 5 then some (s.manifest index)
  else if index = 0x06 then some ((classesOf s.flash.status.staged).flatMap s.stagedManifest)
  else if index = 0x10 then s.primer.map fun (p : Primer) => p.digest
  else if index = 0x11 then
    some (leBytes 4 s.layoutWord.toNat ++ (List.finRange 8).flatMap fun (k : Fin 8) => leBytes 1 (s.suiteCode k))
  else if 0x20 ≤ index ∧ index < 0x28 then suite (index - 0x20) fun u => leBytes 4 u.progLog.1 ++ u.progLog.2
  else if 0x30 ≤ index ∧ index < 0x38 then suite (index - 0x30) fun u => leBytes 4 u.tensLog.1 ++ u.tensLog.2
  else if 0x40 ≤ index ∧ index < 0x48 then suite (index - 0x40) fun u => leBytes 4 u.sets.length ++ u.sets.flatMap fun b => b.digest
  else none

/-- The indices a function receives (R309): all for function 0; 0x01 to 0x11 and its own suite's for a suite function. -/
def indexAllowed (fn : Fin 9) (index : Nat) : Bool :=
  fn.val == 0 || decide (1 ≤ index ∧ index ≤ 0x11) || index % 16 == fn.val - 1 && decide (0x20 ≤ index ∧ index < 0x48)

/-- The measurement indices that exist for a function, in order. -/
def State.indices (s : State) (fn : Fin 9) : List Nat :=
  (List.range 0x48).filter fun i => indexAllowed fn i && (s.measurement i).isSome

/-- The DMTF value type of a measurement index (R309): raw manifest, raw, digest, or configuration. -/
def measType (index : Nat) : Nat :=
  if index = 0x07 then 0x85 else if index < 0x10 then 0x84 else if index = 0x10 then 0x03 else if index = 0x11 then 0x82 else 0x83

/-- A measurement block (R309): index, DMTF specification, size, then the DMTF value type, the value's size and the value. -/
def measBlock (index : Nat) (m : List Byte) : List Byte :=
  leBytes 1 index ++ leBytes 1 1 ++ leBytes 2 (m.length + 3) ++ leBytes 1 (measType index) ++ leBytes 2 m.length ++ m

/-- Blocks that an index asks for: 0xFF asks for all (SPDM 1.2), from one snapshot (R311). -/
def State.blocks (s : State) (fn : Fin 9) (index : Nat) : List Byte :=
  ((s.indices fn).filter fun i => index == 0xFF || i == index).flatMap fun i => measBlock i ((s.measurement i).getD [])

/-! ## DOE (R356) -/

/-- Put a response into a function's DOE mailbox; function 0 raises vector 3 (R366). -/
def State.doeAnswer (s : State) (fn : Fin 9) (codes : List Nat) (payload : List Byte) : State :=
  let t := { s with doe := s.doe.set fn { ready := true, response := codes, payload := payload } }
  if fn.val = 0 then t.raise 0 3 else t

/-- DOE_ABORT (R356): the exchange in progress ends and its response is dropped. -/
def execDoeAbort (fn : Fin 9) (s : State) : Out :=
  .next { s with doe := s.doe.set fn { ready := false, response := [], payload := [] } }

/-- DOE_DISCOVERY (R356): object type 0 is DOE Discovery, 1 is CMA/SPDM; the response names vendor 1 (PCI-SIG), the type and the next index
(PRESUMED from the DOE specification, log 33). -/
def execDoeDiscovery (fn : Fin 9) (index : Nat) (s : State) : Out :=
  .next (s.doeAnswer fn (match index with | 0 => [1, 0, 1] | 1 => [1, 1, 0] | _ => [0xFFFF, 0, 0]) [])

/-! ## SPDM 1.2 (13): response codes of the standard, log 33 -/

/-- GET_VERSION: VERSION with 1.2. -/
def execGetVersion (fn : Fin 9) (s : State) : Out := .next (s.doeAnswer fn [0x04, 0x12] [])

/-- GET_CAPABILITIES: CAPABILITIES with certificate, challenge and signed measurement support. -/
def execGetCapabilities (fn : Fin 9) (s : State) : Out := .next (s.doeAnswer fn [0x61, 0x16] [])

/-- NEGOTIATE_ALGORITHMS: ALGORITHMS with ECDSA P-384 and SHA-384, where the requester offers each. -/
def execNegotiateAlgorithms (fn : Fin 9) (ecdsaP384 sha384 : Bool) (s : State) : Out :=
  .next (s.doeAnswer fn [0x63, b2n ecdsaP384, b2n sha384] [])

/-- GET_DIGESTS: the digest of the chain of slot 0. -/
def execGetDigests (fn : Fin 9) (s : State) : Out := .next (s.doeAnswer fn [0x01, 1] (Config.sha384 Config.certChain))

/-- GET_CERTIFICATE: the chain of slot 0; another slot is an InvalidRequest error. -/
def execGetCertificate (fn : Fin 9) (slot : Nat) (s : State) : Out :=
  .next (if slot = 0 then s.doeAnswer fn [0x02, 0] Config.certChain else s.doeAnswer fn [0x7F, 0x01] [])

/-- A signature by the device key: a free value (log 7). -/
def State.sign (s : State) : List Byte × State := s.freeBytes 96

/-- CHALLENGE: CHALLENGE_AUTH with the chain's digest, a nonce, the digest of the measurements and the signature. -/
def execChallenge (fn : Fin 9) (nonce : List Byte) (s : State) : Out :=
  let (own, s1) := s.freeBytes 32
  let (sig, s2) := s1.sign
  .next (s2.doeAnswer fn [0x03, 0] (Config.sha384 Config.certChain ++ nonce ++ own ++ Config.sha384 (s.blocks fn 0xFF) ++ sig))

/-- Whether measurement requests are deferred: a firmware update step runs (R311). -/
def State.deferred (s : State) : Bool := s.sec.updStep

/-- Answer a measurement request with its blocks and a signature (R309, R311). -/
def State.measure (s : State) (fn : Fin 9) (index : Nat) : State :=
  let bs := s.blocks fn index
  let n := ((s.indices fn).filter fun i => index == 0xFF || i == index).length
  if index = 0 then s.doeAnswer fn [0x60, (s.indices fn).length] []
  else if n = 0 then s.doeAnswer fn [0x7F, 0x01] []
  else let (sig, t) := s.sign; t.doeAnswer fn [0x60, n] (bs ++ sig)

/-- GET_MEASUREMENTS (R309, R311): one snapshot, or ERROR ResponseNotReady with RDTExponent 20 while an update step runs. -/
def execGetMeasurements (fn : Fin 9) (index : Nat) (s : State) : Out :=
  .next (if s.deferred then
      (s.doeAnswer fn [0x7F, 0x42, 20] []).modMgt fun m => { m with deferredSpdm := (fn.val, index) :: m.deferredSpdm.filter fun x => x.1 != fn.val }
    else s.measure fn index)

/-- RESPOND_IF_READY (R311): the deferred response once ready, ResponseNotReady before; without one, an UnexpectedRequest error. -/
def execRespondIfReady (fn : Fin 9) (s : State) : Out :=
  match s.mgt.deferredSpdm.find? fun x => x.1 == fn.val with
  | none => .next (s.doeAnswer fn [0x7F, 0x04] [])
  | some x =>
    .next (if s.deferred then s.doeAnswer fn [0x7F, 0x42, 20] []
      else (s.modMgt fun m => { m with deferredSpdm := m.deferredSpdm.filter fun y => y.1 != fn.val }).measure fn x.2)

/-! ## Mailbox commands (R310, R326) -/

/-- SPDM (R326): the request in a host buffer of `len` bytes is answered into it. The request is not an operand, so the response's length and
bytes are free values (log 33). -/
def execSpdm (fn : Fin 9) (host len : Nat) (s : State) : Out :=
  .next (s.command fn 0x25 fun t =>
    let (v, t1) := t.drawFree
    let (bs, t2) := t1.freeBytes (Config.freeNat v % (len + 1))
    (t2.hostWrite host bs).mbxEnd fn .done [])

/-- MEAS_LOG (R310, R326): the entries of a suite's program or tensor log. -/
def execMeasLog (fn : Fin 9) (k : Nat) (log : Nat) (host capacity : Nat) (s : State) : Out :=
  .next (s.command fn 0x26 fun t =>
    if 8 ≤ k ∨ 1 < log ∨ t.suites[fin8 k].st = .absent then t.mbxEnd fn .formatError []
    else
      let bs := (if log = 0 then t.suites[fin8 k].progEntries else t.suites[fin8 k].tensEntries).flatten
      if capacity < bs.length then t.mbxEnd fn .formatError [] else (t.hostWrite host bs).mbxEnd fn .done [])

end Sys2Proof.Machine
end

