-- ==== Sys2Proof/Machine/Sync.lean ====
section
/-! DEFINITION. Time synchronisation (R246 to R248, R250): the time parent, the exchanges, and what the median offset does. -/

namespace Sys2Proof.Machine

/-- Steps from a coordinate to the root along a dimension, the shorter way round. -/
def ringSteps (n c r : Nat) : Nat := let up := (r + n - c % n) % n; min up (n - up)

/-- Hops from a coordinate to the time root (R246, R250). -/
def State.rootSteps (s : State) (c : List Nat) : Nat :=
  (List.range 4).foldl (fun a i => a + ringSteps (max 1 (s.topo.sizes.getD i 1)) (c.getD i 0) (s.topo.root.getD i 0)) 0

/-- Whether the module is its own time root (R331, R334). -/
def State.isRoot (s : State) : Bool := s.rootSteps s.topo.coord == 0

/-- Whether a port is ACTIVE. -/
def State.portActive (s : State) (port : Nat) : Bool := (s.port (fin8 (port / 2)) (Fin.ofNat 2 (port % 2))).st == .active

/-- The depth of the neighbour on a port, where it is LOCKED (R246). -/
def State.peerDepth (s : State) (port : Nat) : Option Nat := (s.port (fin8 (port / 2)) (Fin.ofNat 2 (port % 2))).peerDepth

/-- The time parent's port (R246): one step toward the root in the lowest dimension that differs, the shorter way round with ties going −, on
rail 0, else on rail 1, else the first ACTIVE port whose neighbour is LOCKED with a smaller depth. The port whose offsets were rejected three times in
a row is not taken again until it has left ACTIVE (R248; DEDUCED, log 39). -/
def State.timeParent (s : State) : Option Nat :=
  match (List.range 4).find? fun i => s.topo.coord.getD i 0 != s.topo.root.getD i 0 with
  | none => none
  | some i =>
    let n := max 1 (s.topo.sizes.getD i 1)
    let up := (s.topo.root.getD i 0 + n - s.topo.coord.getD i 0 % n) % n
    let face := if up < n - up then 0 else 1
    let may := fun p => s.portActive p && s.clk.avoid != some p
    if may (4 * i + face) then some (4 * i + face)
    else if may (4 * i + 2 + face) then some (4 * i + 2 + face)
    else (List.range 16).find? fun p => may p && (match s.peerDepth p with | some n => decide (n < s.clk.depth) | none => false)

/-- Log a TSYNC event (R252): 0 lock, 1 reject, 2 holdover, 3 parent change. -/
def State.tsyncEvent (s : State) (kind port : Nat) (offset : Int) : State :=
  s.mgtEvent 0x162 (port / 2) (port % 2) (pack [(1, kind), (1, port), (2, 0), (8, unsigned 64 offset), (4, 0)])

/-- Take a port as the time parent; a change after the first choice is logged and starts new measurements (R248, R250). -/
def State.setParent (s : State) (port : Nat) : State :=
  let changed := s.clk.syncState != .free && s.clk.parent != port
  let mark := fun (t : State) (p : Nat) (b : Bool) => t.modPort (fin8 (p / 2)) (Fin.ofNat 2 (p % 2)) fun x => { x with tsParent := b }
  let t := mark (mark s s.clk.parent false) port true
  let st := if t.clk.syncState = .free then SyncState.acquire else t.clk.syncState
  let depth := match s.peerDepth port with | some n => n + 1 | none => t.clk.depth
  let u := { t with clk := { t.clk with parent := port, syncState := st, depth := depth, offsets := if changed then [] else t.clk.offsets } }
  if changed then u.tsyncEvent 3 port (signed 32 u.clk.offset.toNat) else u

/-- TSYNC_SEND (R246, R247): the child sends on its parent's port, stamped t1 in 1/8 TCLK. -/
def execTsyncSend (d : Fin 8) (q : Fin 2) (s : State) : Out :=
  let port := 2 * d.val + q.val
  if s.timeParent = some port then
    let t := s.setParent port
    .next { t with clk := { t.clk with t1 := some (8 * t.clk.time) } }
  else .next s

/-- Insert into a rising list. -/
def insertInt (v : Int) : List Int → List Int
  | [] => [v]
  | x :: xs => if v ≤ x then v :: x :: xs else x :: insertInt v xs

/-- The median of 16 doubled offsets: the mean of the middle two, in whole units of 1/8 TCLK toward −∞ (R247). -/
def median16 (xs : List Int) : Int :=
  let ys := xs.foldr insertInt []
  (ys.getD 7 0 + ys.getD 8 0) / 4

/-- A value as a saturated 32-bit two's complement word (R250). -/
def satWord (v : Int) : Word := BitVec.ofNat 32 (unsigned 32 (max (-2147483648) (min 2147483647 v)))

/-- 1 µs in 1/8 TCLK (R248). -/
def offsetLimit : Nat := 8000

/-- Use a median offset (R247, R248): the first lock steps the time, a later one slews; one above 1 µs while LOCKED is rejected, and three
rejected in a row place the module in HOLDOVER with a new parent. -/
def State.applyOffset (s : State) (m : Int) : State :=
  let s1 := { s with clk := { s.clk with offset := satWord m } }
  match s.clk.syncState with
  | .locked =>
    if m.natAbs ≤ offsetLimit then { s1 with clk := { s1.clk with slew := m / 8, badRun := 0 } }
    else
      let s2 := ({ s1 with clk := { s1.clk with rejects := if s.clk.rejects = 0xFFFF then 0xFFFF else s.clk.rejects + 1, badRun := s1.clk.badRun + 1 } }).tsyncEvent 1 s.clk.parent m
      if s2.clk.badRun < 3 then s2
      else
        let s3 := ({ s2 with clk := { s2.clk with syncState := .holdover, badRun := 0, offsets := [], slew := 0, avoid := some s.clk.parent } }).tsyncEvent 2 s.clk.parent m
        (match s3.timeParent with | some p => s3.setParent p | none => s3)
  | .holdover => ({ s1 with clk := { s1.clk with syncState := .locked, slew := m / 8, badRun := 0 } }).tsyncEvent 0 s.clk.parent m
  | .acquire =>
    ({ s1 with clk := { s1.clk with syncState := .locked, time := ((s.clk.time : Int) + m / 8).toNat, offsets := [] } }).tsyncEvent 0
      s.clk.parent m
  | .free => s1

/-- TSYNC (R220, R246, R247): a cell with a reserved bit is dropped. It tells the sender's depth. A request is stamped on arrival, t2, and answered at
once, t3. A reply from the parent to the request that was sent is stamped t4, and the median of the last 16 offsets is used. `phase` is the place of the
codeword boundary within the TCLK, in eighths. -/
def execTsync (d : Fin 8) (q : Fin 2) (cell : TsyncCell) (phase : Fin 8) (s : State) : Out :=
  .next <|
    if cell.reserved then s.scrDrop d q
    else
      let now := 8 * s.clk.time + phase.val
      let s1 := s.modPort d q fun x => { x with peerDepth := cell.depth }
      if !cell.reply then s1.modPort d q fun x => { x with tsReply := some (cell.t1, now, now) }
      else if s.clk.t1 ≠ some cell.t1 ∨ s.clk.parent ≠ 2 * d.val + q.val ∨ s.clk.syncState = .free then s1
      else
        let off : Int := ((cell.t2 : Int) - cell.t1) - ((now : Int) - cell.t3)
        let xs := (off :: s.clk.offsets).take 16
        let depth := match cell.depth with | some n => n + 1 | none => s.clk.depth
        let s2 := { s1 with clk := { s1.clk with t1 := none, offsets := xs, depth := depth } }
        if xs.length < 16 then s2 else s2.applyOffset (median16 xs)

end Sys2Proof.Machine
end

