-- ==== Sys2Proof/Machine/Boot.lean ====
section
/-! DEFINITION. Resets, power-off and start-up (R329 to R338, R349 to R351, R376, R377, R397, R404 to R406), suite reset (R179, R357), dies that
leave service (R274, R387), die recycle (R405), the scrub (R318 to R321), and the completion of mailbox commands. -/

namespace Sys2Proof.Machine

/-! ## Resets of the module (R404) -/

/-- The module with everything volatile lost: flash, fuses and what lies outside it stay. Keys made from now on are new ones. -/
def State.fresh (s : State) : State :=
  { State.reset with fuses := s.fuses, flash := s.flash, host := s.host, msix := s.msix, keyGen := s.keyGen, free := s.free,
                     pending := s.pending, bscanLocked := s.bscanLocked }

/-- COLD_RESET (R371, R404, R409): the input rises through 46 V, the power-on sequence runs, and start-up begins at stage 0x1. Boundary scan
is locked once an owner slot is written. -/
def execColdReset (straps : Straps) (s : State) : Out :=
  let t := s.fresh
  .next { t with
    power := { t.power with vinOk48 := false, strapDie1 := !straps.hostSel, smbAddr := straps.smbAddr },
    bscanLocked := !s.fuses.ownerSlots.isEmpty }

/-- The module after a module reset (R371, R404): the rails and the address straps stay, and a pending unlock takes effect. -/
def State.moduleReset (s : State) (straps : Straps) : State :=
  let t := s.fresh
  { t with
    power := { t.power with vinOk48 := s.power.vinOk48, strapDie1 := !straps.hostSel, smbAddr := s.power.smbAddr },
    unlocked := s.flash.status.unlockNext,
    flash := { s.flash with status := { s.flash.status with unlockNext := false } } }

/-- MODULE_RESET (R404): PERST_N or MOD_RST_N low for at least 1 µs, on a powered module. -/
def execModuleReset (lowNs : Nat) (straps : Straps) (s : State) : Out :=
  if lowNs < 1000 ∨ s.power.phase ≠ .on then .next s else .next (s.moduleReset straps)

/-- The rails go off (R404 sequencing): PWRGD falls and everything volatile is lost. -/
def State.powerOff (s : State) (ph : PowerPhase) (trip : Bool) : State :=
  let t := s.fresh
  { t with power := { t.power with phase := ph, pwrgd := false, vinOk48 := false, thermtrip := trip || s.power.thermtrip,
                                   strapDie1 := s.power.strapDie1, smbAddr := s.power.smbAddr } }

/-- POWER_OFF_SEQUENCE (R398, R404): to Standby, or Off when the input is below 46 V. -/
def execPowerOffSequence (thermtrip vinOff : Bool) (s : State) : Out :=
  if s.power.phase = .on ∨ (s.power.phase = .standby ∧ vinOff) then .next (s.powerOff (if vinOff then .off else .standby) thermtrip) else .next s

/-- INPUT_OVERVOLTAGE (R397): above 60 V for 10 µs the input is disconnected. -/
def execInputOvervoltage (millivolts us : Nat) (s : State) : Out :=
  if 60000 < millivolts ∧ 10 ≤ us then .next (s.powerOff .disconnected false) else .next s

/-- START_UP_ALLOWED (R397): the input rises through 48 V. -/
def execStartUpAllowed (millivolts : Nat) (s : State) : Out :=
  if 48000 ≤ millivolts ∧ s.power.phase = .on then .next { s with power := { s.power with vinOk48 := true } } else .next s

/-! ## Start-up (R329 to R338, R349, R350) -/

/-- Set an alert bit of the SMBus target (R369). -/
def State.alert (s : State) (i : Nat) : State := { s with smbus := { s.smbus with alert := s.smbus.alert ||| (1 <<< i) } }

/-- A die fails start-up (R17, R330): reported, out of service, and alerted. -/
def State.failDie (s : State) (d : Fin 8) : State :=
  ((s.modMgt fun m => { m with failed := m.failed ||| (1 <<< d.val) }).modDie d fun x => { x with inService := false }).alert 2

/-- The TRIAL fall-back of a class (R349): after three failed starts in a row it returns to its old slot. -/
def State.trialFallback (s : State) (cls : Nat) : State :=
  let x := s.flash.status
  let n := x.failedStarts.getD (cls - 1) 0
  if !flagOf x.trial cls ∨ n < 3 then s
  else
    let slot := !flagOf x.slotB cls
    (s.setStatus fun y => { y with slotB := y.slotB.set (cls - 1) slot, trial := y.trial.set (cls - 1) false,
                                   failedStarts := y.failedStarts.set (cls - 1) 0 }).mgtEvent
      0x1A4 0xFF 0 (pack [(1, cls), (1, b2n slot), (2, 0), (4, n), (8, 0)])

/-- A firmware update's state as the status area gives it after a reset (R340, R344; log 31). -/
def State.loadFwState (s : State) : State :=
  if !(classesOf s.flash.status.trial).isEmpty then s.setFwState .trial
  else if !(classesOf s.flash.status.staged).isEmpty then s.setFwState .staged
  else s

/-- STAGE_ROM (R17, R329, R349, R351): PLL lock, and the Pyrhoax image from either slot; RECOVERY when neither holds a valid one. -/
def execStageRom (pllLock serdesLock : BitVec 8) (die0Absent : Bool) (s : State) : Out :=
  if s.mgt.stage ≠ .rom ∨ s.power.phase ≠ .on then .next s
  else
    let on_ := dieMaskOf ((List.finRange 8).filter fun d => s.populated d)
    let s1 := { s with clk := { s.clk with pllSts := mkWord [(24, (pllLock &&& on_).toNat), (16, (serdesLock &&& on_).toNat)] } }
    let s2 := if die0Absent && s.power.strapDie1 then s1.failDie 0 else s1
    let s3 := s2.trialFallback 1
    let ok := fun (i : Option FwImage) => match i with | some x => s3.fwValid 1 x | none => false
    if ok (s3.fwRun 1) then .next ((s3.setStage .firmware).applyK false)
    else if ok (s3.fwOther 1) then
      .next (((s3.setStatus fun x => { x with slotB := x.slotB.set 0 (!flagOf x.slotB 1) }).setStage .firmware).applyK false)
    else .next ((s3.setStage .recovery).applyK false)

/-- STAGE_FIRMWARE (R329, R337, R338, R344, R349, R350): each class starts the image its slot names, or its old one after the TRIAL fall-back.
`failedStart` names the classes whose image did not start. -/
def execStageFirmware (failedStart : List Nat) (s : State) : Out :=
  if s.mgt.stage ≠ .firmware then .next s
  else
    let s1 := [2, 3, 4, 5].foldl (fun t c => t.trialFallback c) s
    let bad := fun c => failedStart.contains c || !(match s1.fwRun c with | some x => s1.fwValid c x | none => false)
    let s2 := s1.setStatus fun x => { x with failedStarts := (List.range 5).map fun i => if bad (i + 1) then x.failedStarts.getD i 0 + 1 else 0 }
    let s3 := s2.loadFwState
    .next (if bad 1 then s3.setStage .recovery else if [2, 3, 4, 5].any bad then s3.setStage .maintenance else s3.setStage .primer)

/-- HLT_CTRL after reset (R335, R394): RETIRE_EN and the policy limits. -/
def hltCtrlOf (p : Policy) : Word := mkWord [(31, 1), (16, p.pcPoison), (8, p.edgeRetry), (0, p.roLimit)]

/-- Apply a primer image (R331, R332, R334, R377): layout, caps, limits and topology. A suite whose number the layout does not hold is ABSENT, as
is one that would hold a die out of service (R17, R18). -/
def State.applyPrimer (s : State) (p : Primer) : State :=
  let l := p.layout.getD []
  let s1 := { s with primer := some p, layout := Vector.ofFn fun (d : Fin 8) => l.getD d.val 15 }
  let s2 := { s1 with
    hlt := { s1.hlt with ctrl := hltCtrlOf s1.policy },
    clk := { s1.clk with tclkCap := mkWord [(0, s1.powerSection.tclkMHz % 2048)], root := s1.isRoot, depth := s1.rootSteps s1.topo.coord },
    power := { s1.power with cap := mkWord [(0, s1.powerSection.cap % 65536)] } }
  ((List.finRange 8).foldl (fun t k =>
    if (t.suiteDies k).isEmpty || (t.suiteDies k).any (fun d => !t.dies[d].inService) then t.setSuiteState k .absent else t) s2).applyK false

/-- STAGE_PRIMER (R332, R333): the active slot, else the other one, else MAINTENANCE. `badA` and `badB` tell a slot that cannot be read. -/
def execStagePrimer (badA badB : Bool) (s : State) : Out :=
  if s.mgt.stage ≠ .primer then .next s
  else
    let slot := fun (b : Bool) => if (if b then badB else badA) then none else if b then s.flash.primerB else s.flash.primerA
    let good := fun (b : Bool) => (slot b).filter fun p => s.primerForm p && s.primerTrusted p s.ownerDigest
    let first := s.flash.status.primerB
    match good first, good (!first) with
    | some p, _ => .next (((s.modMgt fun m => { m with primerSlotB := first }).applyPrimer p).setStage .memory)
    | none, some p => .next (((s.modMgt fun m => { m with primerSlotB := !first, primerFallback := true }).applyPrimer p).setStage .memory)
    | none, none => .next ((s.modMgt fun m => { m with primerFallback := true }).setStage .maintenance)

/-- Apply the retirement record to a stack (R196, R377, R389): its retired pseudo-channels and its capacity. -/
def Stack.fromRecord (x : Stack) (pcs : List Nat) : Stack :=
  pcs.foldl (fun y c => { y with cap := y.cap - 0xFC0000, pcRetired := y.pcRetired ||| ((1 : BitVec 64) <<< c) }) x

/-- Indices of the record's entries of a kind on a die. -/
def State.recorded (s : State) (kind : Nat) (d : Fin 8) : List Nat :=
  ((s.flash.status.retired.filter fun e => e.kind == kind && e.die == d.val).map fun (e : RetEntry) => e.index).eraseDups

/-- The record's pseudo-channels and lane groups taken out of a die (R377). -/
def State.loadStacks (s : State) (d : Fin 8) : State :=
  let pcs := s.recorded 1 d
  let gs := s.recorded 2 d
  s.modDie d fun x => { x with
    stks := Vector.ofFn fun (i : Fin 12) => x.stks[i].fromRecord ((pcs.filter fun n => n / 64 == i.val).map (· % 64))
    edges := Vector.ofFn fun (e : Fin 3) => { x.edges[e] with
      groups := (gs.filter fun n => n / 16 == e.val).foldl (fun m n => m &&& ~~~((1 : BitVec 16) <<< (n % 16))) x.edges[e].groups } }

/-- STAGE_MEMORY (R329, R330, R377, R382, R397): the record is applied; a pseudo-channel or a lane group that fails training is retired with
reason 6, and a die that fails leaves service. The stage starts once the input has risen through 48 V. -/
def execStageMemory (failedDies : BitVec 8) (badPcs : List (Fin 8 × Fin 12 × Fin 64)) (badGroups : List (Fin 8 × Fin 3 × Fin 16)) (s : State) : Out :=
  if s.mgt.stage ≠ .memory ∨ !s.power.vinOk48 then .next s
  else
    let ds := (List.finRange 8).filter fun (d : Fin 8) => s.populated d
    let s1 := ds.foldl State.loadStacks s
    let s2 := badPcs.foldl (fun t (x : Fin 8 × Fin 12 × Fin 64) => t.failPc x.1 x.2.1 x.2.2 6) s1
    let s3 := badPcs.foldl (fun t (x : Fin 8 × Fin 12 × Fin 64) => t.commitStack x.1 x.2.1 0xFFFFFFFF) s2
    let s4 := badGroups.foldl (fun t (x : Fin 8 × Fin 3 × Fin 16) => t.retireGroup x.1 x.2.1 x.2.2 6) s3
    .next (((ds.filter fun (d : Fin 8) => failedDies.getLsbD d).foldl State.failDie s4).setStage .panels)

/-- A die's panel roles from its fuses (R11): the lowest 96 panels that are not fused off are enabled (log 2), the rest are spares. -/
def fuseRoles (off : List Nat) : List Role :=
  (List.range 104).map fun p =>
    if off.contains p then .fusedOff
    else if ((List.range p).filter fun q => !off.contains q).length < 96 then .enabled else .spare

/-- Retire a panel in a list of roles; the lowest spare takes the place of an enabled one (R12, R385). -/
def retireRole (rs : List Role) (p : Nat) : List Role :=
  match rs.getD p .fusedOff with
  | .enabled =>
    let out := rs.set p .retired
    (match out.findIdx? (· == .spare) with | some q => out.set q .enabled | none => out)
  | .spare => rs.set p .retired
  | _ => rs

/-- Load a die's panel roles and reasons (R377, R389, R395); an enabled panel is RUNNING. -/
def State.loadPanels (s : State) (d : Fin 8) : State :=
  let es := s.flash.status.retired.filter fun e => e.kind == 0 && e.die == d.val
  let off := (s.fuses.fusedOff.filter fun x => x.1 == d.val).map fun (x : Nat × Nat) => x.2
  let rs := (es.map fun (e : RetEntry) => e.index).foldl retireRole (fuseRoles off)
  s.modDie d fun x => { x with panels := Vector.ofFn fun (p : Fin 104) =>
    let r := rs.getD p.val .fusedOff
    { x.panels[p] with
      role := r, reason := ((es.filter fun e => e.index == p.val).getLast?.map fun (e : RetEntry) => e.reason).getD 0,
      fn := if r = .enabled then .running else .stopped } }

/-- A panel that fails its self-test at start-up retires with reason 4 (R385, R388); a spare takes its place at once. -/
def State.bootRetire (s : State) (d : Fin 8) (p : Fin 104) : State :=
  let s1 := s.retirePanel d p 4
  match (List.finRange 104).find? fun q => (s1.panel d q).selfTest with
  | some q => s1.modPanel d q fun x => { x with selfTest := false, role := .enabled, fn := .running }
  | none => s1

/-- STAGE_PANELS (R11, R12, R329, R330, R385): roles from fuses and record; failing panels retire, spares first; a die that fails, or that has
no enabled panel, leaves service. -/
def execStagePanels (failedDies : BitVec 8) (badPanels : List (Fin 8 × Fin 104)) (s : State) : Out :=
  if s.mgt.stage ≠ .panels then .next s
  else
    let ds := (List.finRange 8).filter fun (d : Fin 8) => s.populated d
    let s1 := ds.foldl State.loadPanels s
    let spare := badPanels.filter fun x => (s1.panel x.1 x.2).role == .spare
    let rest := badPanels.filter fun x => (s1.panel x.1 x.2).role == .enabled
    let s2 := (spare ++ rest).foldl (fun t (x : Fin 8 × Fin 104) => t.bootRetire x.1 x.2) s1
    let s3 := (ds.filter fun (d : Fin 8) => s2.dies[d].inService && (failedDies.getLsbD d || s2.roleCount d .enabled == 0)).foldl State.failDie s2
    .next ({ s3 with hlt := { s3.hlt with recordLoaded := true } }.setStage .scrubTime)

/-! ## The scrub (R318 to R321) -/

/-- Bytes that a scrub of a suite fills (R318, R330, R390). -/
def State.fillBytes (s : State) (k : Fin 8) : Nat := sumL ((s.liveDies k).map fun d => sumL ((s.dies[d].stks.toList).map fun x => 64 * x.cap))

/-- A panel without work. -/
def Panel.idle (x : Panel) : Panel := { x with threads := [], owner := none, lastRun := none, bankA := .free, bankB := .free, spec := [] }

/-- Steps 3 to 5 of R318: keys, tables and logs are destroyed, a new suite key is made, and the suite's state in its dies is zeroed. Its lines
stay unreadable until the fill is done (R321). -/
def State.eraseSuite (s : State) (k : Fin 8) : State :=
  let u := s.suites[k]
  let (key, s0) := (s.setSuiteState k .scrubbing).newKey
  let outside := fun (a : Nat) => match homeOf a with | some (d, _) => decide (s.owner d ≠ some k) | none => true
  let s1 := (s.suiteDies k).foldl (fun t d => t.modDie d fun x => { x with
    norm := x.norm.set k 0, normSat := x.normSat.set k false, panels := x.panels.map Panel.idle,
    stks := x.stks.map fun y => { y with
      filled := false, epoch := 0, reenc := false, pages := 0, rotQueued := false,
      upd := { y.upd with opened := [], waiting := [] } } }) s0
  ({ s1 with mem := s1.mem.filter (fun c => outside (c.1 / 64)), poison := s1.poison.filter outside }.unlatch (k.val + 1) 0 (2 ^ 25)).modSuite k fun _ =>
    { Suite.reset with memRot := u.memRot, key := some key, since := s.clk.time }

/-- Start the fill of a suite and log SCRUB_STARTED (R318, R327). -/
def State.startFill (s : State) (k : Fin 8) (resumed : Bool) : State :=
  (s.eraseSuite k).mgtEvent 0x190 0xFF k (pack [(1, k), (1, b2n resumed), (2, 0), (8, s.fillBytes k), (4, 0)])

/-- STAGE_SCRUB_TIME (R303, R318, R320, R329): every suite of the layout is scrubbed from step 4, and the Scrim ports train. -/
def execStageScrubTime (s : State) : Out :=
  if s.mgt.stage ≠ .scrubTime then .next s
  else
    let s1 := (List.finRange 8).foldl (fun t k =>
      if t.suites[k].st = .scrubbing ∧ t.suites[k].key = none then t.startFill k (s.flash.status.scrubPending.contains k.val) else t) s
    .next ((List.finRange 16).foldl (fun t p => t.startPort (fin8 (p.val / 2)) (Fin.ofNat 2 (p.val % 2))) s1)

/-- SCRUB_FILL_DONE (R318, R320, R321, R327): every line of the suite's in-service stacks is zero; the suite is STOPPED and CLEAN. A die
being recycled holds the fill up. -/
def execScrubFillDone (k : Fin 8) (s : State) : Out :=
  let u := s.suites[k]
  if u.st ≠ .scrubbing ∨ u.key = none ∨ (s.suiteDies k).any fun d => s.dies[d].recycling then .next s
  else
    let outside := fun (a : Nat) => match homeOf a with | some (d, _) => decide (s.owner d ≠ some k) | none => true
    let n := s.fillBytes k
    let s1 := (s.liveDies k).foldl (fun t d => t.modDie d fun x => { x with stks := x.stks.map fun y => { y with filled := true } }) s
    let s2 := { s1 with mem := s1.mem.filter (fun c => outside (c.1 / 64)), poison := s1.poison.filter outside }
    let s3 := (s2.setStatus fun x => { x with scrubPending := x.scrubPending.filter (· != k.val) }).modSuite k fun v =>
      { v with scrubBytes := n, clean := true }
    .next ((s3.setSuiteState k .stopped).mgtEvent 0x191 0xFF k
      (pack [(1, k), (3, 0), (8, n), (4, min 0xFFFFFFFF (s.poison.filter fun a => !outside a).length)]))

/-- READY (R331): every scrub has reached step 6, and time is LOCKED or the module is its own root. -/
def execReady (s : State) : Out :=
  if s.mgt.stage = .scrubTime ∧ !(s.suites.toList.any fun u => u.st == .scrubbing) ∧ (s.clk.root ∨ s.clk.syncState = .locked) then
    .next (s.setStage .ready)
  else .next s

/-- SCRUB (R318, R320): the scrub is recorded, the suite stops with open tasks ABORTED, and steps 3 to 5 start; the command is then DONE. -/
def execScrub (fn : Fin 9) (k : Nat) (s : State) : Out :=
  .next (s.command fn 0x20 fun t =>
    if h : k < 8 then
      let i : Fin 8 := ⟨k, h⟩
      if t.suites[i].st = .absent then t.mbxEnd fn .formatError []
      else if t.suites[i].st = .scrubbing then t.mbxEnd fn .busy []
      else
        let s1 := t.setStatus fun x => { x with scrubPending := (k :: x.scrubPending).eraseDups }
        let s2 := s1.abortTasks i (fun _ => true) 1
        let s3 := (s2.suites[i].tasks.map fun (x : Task) => x.h).foldl (fun v h => v.completeTask i h) s2
        (s3.startFill i false).mbxEnd fn .done []
    else t.mbxEnd fn .formatError [])

/-! ## Suite reset (R179, R357, R376, R404, R406) -/

/-- The suite reset: the suite drains with limit 0, its BAR0 registers, sync counters and its panel, skim and activation-stack state are
cleared, and it is STOPPED; keys, tables, memory and mask records stay. -/
def State.suiteReset (s : State) (k : Fin 8) : State :=
  let s1 := s.abortTasks k (fun _ => true) 1
  let s2 := (s1.suites[k].tasks.filter fun t => t.status == .aborted).foldl (fun v t => v.poisonOutputs k t) s1
  let s3 := (s2.suiteDies k).foldl (fun v d => v.modDie d fun x => { x with panels := x.panels.map Panel.idle }) s2
  let s4 := if s3.suites[k].st = .scrubbing ∨ s3.suites[k].st = .absent then s3 else s3.setSuiteState k .stopped
  let u := s4.suites[k]
  let s5 := s4.modSuite k fun _ => { Suite.reset with
    st := u.st, clean := u.clean, since := u.since, scrubBytes := u.scrubBytes, memRot := u.memRot, key := u.key, nextH := u.nextH,
    lastTable := u.lastTable, tensSet := u.tensSet, unspecScale := u.unspecScale, unspecSkim := u.unspecSkim, programs := u.programs,
    groups := u.groups, builtRecs := u.builtRecs, applied := u.applied, shares := u.shares,
    sinceRebal := u.sinceRebal, peers := u.peers, pairs := u.pairs, sets := u.sets, bound := u.bound, progLog := u.progLog,
    progEntries := u.progEntries, tensLog := u.tensLog, tensEntries := u.tensEntries }
  let s6 := s5.unlatch (k.val + 1) 0 (2 ^ 25)
  if u.st = .scrubbing ∨ u.st = .absent then s6 else s6.armDefer k

/-- SUITE_RESET (R357, R406): an FLR of suite function k + 1; it waits while a die of the suite is recycled. -/
def execSuiteReset (k : Fin 8) (s : State) : Out :=
  if (s.suiteDies k).any fun d => s.dies[d].recycling then .next (s.modSuite k fun u => { u with flrWait := true }) else .next (s.suiteReset k)

/-! ## Dies that leave service and recycle (R274, R345, R387, R405) -/

/-- Whether a started task has a part on a die. -/
def Task.runsOn (t : Task) (d : Fin 8) : Bool := t.desc.dieMask.getLsbD d && (t.state == .running || t.state == .waiting)

/-- The parts of tasks on a die complete ABORTED (R272, R274, R293): a task with a part on another die in service goes on there. -/
def State.abortOnDie (s : State) (d : Fin 8) : State :=
  match s.owner d with
  | none => s
  | some k =>
    let others := fun (t : Task) => (maskDies t.desc.dieMask).any fun e => decide (e ≠ d) && s.dies[e].inService
    let s1 := (s.suites[k].tasks.filter fun t => t.runsOn d).foldl (fun v t =>
      if others t then v.worsen k t.h .aborted else v.abortTask k t 2) s
    ((s1.cancelDie d).tilesGone (s1.dies[d].panels.toList.flatMap (·.threads)) .aborted).modDie d fun x => { x with panels := x.panels.map Panel.idle }

/-- What follows when a die is out of service (R36, R45): barriers and steps end on the remaining dies; a suite without any is STOPPED. -/
def State.afterOut (s : State) (d : Fin 8) : State :=
  match s.owner d with
  | none => s
  | some k =>
    if (s.liveDies k).isEmpty then
      let s1 := s.abortTasks k (fun _ => true) 2
      if s1.suites[k].st = .running ∨ s1.suites[k].st = .draining then s1.setSuiteState k .stopped else s1
    else
      let s1 := (s.suites[k].tasks.filter fun t => t.desc.type == 8).foldl (fun v t => v.barrierDone k (t.desc.arg 0 2)) s
      (s1.suites[k].tasks.filter fun t => t.desc.type == 10 && t.desc.mode == 1 && t.state == .running &&
        (maskDies t.desc.dieMask).all fun e => t.arrived.getLsbD e || !s1.dies[e].inService).foldl (fun v t => v.finish k t.h .done) s1

/-- DIE_OUT (R274, R345, R387, R396). -/
def execDieOut (d : Fin 8) (cause : Fin 6) (s : State) : Out :=
  if !s.populated d ∨ !s.dies[d].inService then .next s
  else
    let n := match s.owner d with | some k => (s.suites[k].tasks.filter fun t => t.runsOn d).length | none => 0
    let s1 := (s.abortOnDie d).modDie d fun x => { x with inService := false, outCause := some cause.val }
    let s2 := [(0 : Fin 2), 1].foldl (fun t q => t.setPort d q .disabled) (s1.afterOut d)
    let s3 := (s2.handedOver fun p => procDie s2.mgt.fwClass p == d.val).alert 2
    let data := pack [(1, d), (1, cause), (2, 0), (4, n), (8, 0)]
    let s4 := s3.mgtEvent 0x1B2 d 0 data
    .next (match s.owner d with | some k => s4.suiteEvent k 0x1B2 d 0 data | none => s4)

/-- A stack through a die recycle (R376, R405): its contents, keys and retirements stay; its registers reset. -/
def Stack.recycled (x : Stack) : Stack :=
  { Stack.reset with pcRetired := x.pcRetired, cap := x.cap, epoch := x.epoch, prevEpoch := x.prevEpoch, reenc := x.reenc, pages := x.pages, rotQueued := x.rotQueued,
                     filled := x.filled, pcPending := x.pcPending, moveLost := x.moveLost }

/-- A die through a recycle: its blocks reset, panel roles and edges stay as the record has them. -/
def Die.recycled (x : Die) : Die :=
  { Die.reset with
    inService := false, recycling := true, stks := x.stks.map Stack.recycled,
    panels := x.panels.map fun (p : Panel) => { Panel.reset with role := p.role, reason := p.reason, fn := if p.role = .enabled then .running else .stopped },
    edges := x.edges.map fun (e : Edge) => { Edge.reset with groups := e.groups } }

/-- DIE_RECYCLE (R312, R345, R405): refused for the primary die and during an activation; otherwise the die resets and starts again. -/
def execDieRecycle (fn : Fin 9) (d : Nat) (s : State) : Out :=
  .next (s.command fn 0x10 fun t =>
    if !t.populated d then t.mbxEnd fn .formatError []
    else if d = t.primaryDie.val then t.mbxEnd fn .accessDenied []
    else if t.mgt.fwState = .switching then t.mbxEnd fn .busy []
    else
      let i := fin8 d
      let s1 := [(0 : Fin 2), 1].foldl (fun v q => v.setPort i q .disabled) (t.abortOnDie i)
      let s2 := ((s1.unlatch 0 (dieOff d) 0x200000).modDie i Die.recycled).afterOut i
      [(0 : Fin 2), 1].foldl (fun v q => v.startPort i q) s2)

/-- The end of a die's recycle: a suite reset that waited runs now (R406). -/
def State.endRecycle (s : State) (d : Fin 8) (ok : Bool) : State :=
  let s1 := s.modDie d fun x => { x with recycling := false, inService := ok }
  let s2 := if ok then s1.modMgt fun m => { m with failed := m.failed &&& ~~~((1 : BitVec 8) <<< d.val) }
    else [(0 : Fin 2), 1].foldl (fun v q => v.setPort d q .disabled) s1
  match s2.owner d with
  | none => s2
  | some k =>
    if s2.suites[k].st = .absent then s2
    else if s2.suites[k].flrWait then s2.suiteReset k
    else if ok then s2.armDefer k else s2

/-- The die that a running DIE_RECYCLE waits for. -/
def State.recyclingDie (s : State) : Option (Fin 8) := (List.finRange 8).find? fun d => s.dies[d].recycling

/-- DIE_RECYCLE_TIMEOUT (R405): a stage failed or 5 s have passed; the command completes TIMEOUT and the die stays out of service. -/
def execDieRecycleTimeout (d : Fin 8) (s : State) : Out :=
  if s.dies[d].recycling then .next ((s.endRecycle d false).mbxEnd 0 .timeout []) else .next s

/-- MAILBOX_COMPLETION (R367, R405): results and STATUS are written, SEQ increments, BUSY clears, and the function's mailbox vector is raised.
A running DIE_RECYCLE completes DONE as its die returns to service. -/
def execMailboxCompletion (fn : Fin 9) (s : State) : Out :=
  let finish := fun (t : State) (st : Nat) (rs : List Word) =>
    (t.modMailbox fn fun y => { y with results := putResults y.results rs, status := BitVec.ofNat 8 st, seq := y.seq + 1, busy := false,
                                       begun := false, outcome := none }).raise fn (if fn.val = 0 then 1 else 2)
  let x := s.mailbox fn
  match x.busy, x.outcome with
  | true, some (st, rs) => .next (finish s st rs)
  | true, none =>
    match s.recyclingDie with
    | some d => if fn.val = 0 ∧ x.begun ∧ x.cmd = 0x10 then
        let pages := sumL ((s.dies[d].stks.toList).map fun y => y.cap / 1024)
        .next (finish ((s.endRecycle d true).modMailbox 0 fun y => { y with progress := BitVec.ofNat 32 pages }) Status.done.code [])
      else .next s
    | none => .next s
  | _, _ => .next s

/-! ## Recovery (R351) -/

/-- RECOVERY_LOAD (R337, R338, R351): a Pyrhoax package goes into slot A of device 0, or slot B of device 1, and the module starts again. -/
def execRecoveryLoad (fn : Fin 9) (img : FwImage) (device0Answers : Bool) (s : State) : Out :=
  .next (s.command fn 0x37 fun t =>
    if !fwForm img ∨ img.cls ≠ 1 then t.mbxEnd fn .formatError []
    else if !t.fwTrusted img then t.mbxEnd fn .accessDenied []
    else
      let t1 := (t.putFw 1 (!device0Answers) (some img)).setStatus fun x => { x with slotB := x.slotB.set 0 (!device0Answers) }
      { t1.fresh with power := { Power.reset with vinOk48 := t.power.vinOk48, strapDie1 := t.power.strapDie1, smbAddr := t.power.smbAddr } })

end Sys2Proof.Machine
end

