-- ==== Sys2Proof/Machine/Frames.lean ====
section
/-! DEFINITION. Scrim frames (R219 to R245, R306 to R308): the router, the reception of exchange and transfer frames, and pair keys. -/

namespace Sys2Proof.Machine

/-! ## The router (R220, R227 to R233) -/

/-- An ARG field of `n` bytes at offset `off` (R220). -/
def frameArg (f : Frame) (off n : Nat) : Nat := field f.arg off n

/-- A frame that every receiver drops: a CELLS above 64, a reserved bit set, or a reserved byte of its type's ARG that is not zero (R220). -/
def frameMalformed (f : Frame) : Bool :=
  decide (64 < f.cells) || (f.vc &&& 0xF0) != 0 || (f.flags &&& 0xFC) != 0 || (f.type == 0x12 && frameArg f 3 1 != 0) ||
  ((f.type == 0x13 || f.type == 0x14 || f.type == 0x15) && frameArg f 7 1 != 0)

/-- The frame types of R220 that routers forward, and the link types. -/
def forwardTypes : List Nat := [0x05, 0x10, 0x11, 0x12, 0x13, 0x14, 0x15]
def linkTypes : List Nat := [0x00, 0x01, 0x02, 0x03, 0x04]

/-- The dimension that a frame travels next: the lowest in which it is not at its destination (R228). -/
def State.nextDim (s : State) (f : Frame) : Option Nat := (List.range 4).find? fun i => f.dstCoord.getD i 0 != s.coord i

/-- The last dimension a frame travels (R230, R231). -/
def State.lastDim (s : State) (f : Frame) : Nat := ((List.range 4).filter fun i => f.dstCoord.getD i 0 != s.coord i).getLastD 0

/-- The shorter way around the ring of a dimension; ties go + (R228). -/
def State.shorterPlus (s : State) (f : Frame) (i : Nat) : Bool :=
  let n := max 1 (s.torus i)
  let up := (f.dstCoord.getD i 0 + n - s.coord i % n) % n
  decide (up ≤ n - up)

/-- Whether a frame can be sent on a port: ACTIVE, and not draining (R249). -/
def State.sends (s : State) (d : Nat) (q : Nat) : Bool :=
  let x := s.port (fin8 d) (Fin.ofNat 2 q)
  x.st == .active && x.fn.st == .running

/-- Whether the rail may change (R230): at the source, to a die of the sending suite; at the destination, on landing on a die of its suite. -/
def State.railChange (s : State) (f : Frame) (injected : Bool) (dim rail : Nat) : Bool :=
  (!injected || f.suiteDies.getLsbD (2 * dim + rail)) && f.suiteDies.getLsbD (2 * s.lastDim f + rail)

/-- Whether the crossing from this module in a direction passes the dateline of a dimension (R229). -/
def State.dateline (s : State) (dim : Nat) (plus : Bool) : Bool :=
  if plus then s.coord dim + 1 == max 1 (s.torus dim) else s.coord dim == 0

/-- The die and face that a frame leaves by (R227, R228, R230); none where it has no usable route. -/
def State.outPort (s : State) (inPort : Option (Fin 16)) (f : Frame) (dim : Nat) : Option (Nat × Nat) :=
  let straight := match inPort with | some p => p.val / 4 == dim | none => false
  let plus := if straight then (match inPort with | some p => p.val % 2 == 1 | none => true) else s.shorterPlus f dim
  let rail := match inPort with | some p => p.val / 2 % 2 | none => b2n (f.flags.getLsbD 1)
  let injected := inPort.isNone
  let face := if plus then 0 else 1
  let own := !injected || f.suiteDies.getLsbD (2 * dim + rail)
  if own && s.sends (2 * dim + rail) face then some (2 * dim + rail, face)
  else if s.sends (2 * dim + (1 - rail)) face && s.railChange f injected dim (1 - rail) then some (2 * dim + (1 - rail), face)
  else if own && s.sends (2 * dim + rail) (1 - face) then some (2 * dim + rail, 1 - face)
  else none

/-- Units that the C0 bucket of a port gains per TCLK: one cell for every 20 cells sent, at the port's width (R218, R233). -/
def Port.tokenRate (x : Port) : Nat := match x.width with | 0 => 70 | 1 => 56 | 2 => 35 | _ => 0

/-- The fill of a port's C0 bucket of 65 cells, in 1/680 of a cell. -/
def Port.fill (x : Port) (now : Nat) : Nat := min 44200 (x.c0.1 + (now - x.c0.2) * x.tokenRate)

/-- Whether credits for `n` cells of a channel are held (R224). -/
def Port.hasCredit (x : Port) (v n : Nat) : Bool := decide (n ≤ x.credits.getD v 0 + (if v < 4 then 0 else x.pool))

/-- Take credits of a channel, from its reserve first (R224). -/
def Port.spend (x : Port) (v n : Nat) : Port :=
  let r := min n (x.credits.getD v 0)
  { x with credits := x.credits.set v (x.credits.getD v 0 - r), pool := x.pool - (n - r) }

/-- Send a frame on a port (R223, R224, R233): its codewords are kept until they are acknowledged, and a C0 frame that finds too few tokens goes as
C1. None while credits are missing or 512 codewords are unacknowledged. -/
def Port.send (x : Port) (now dl : Nat) (f : Frame) : Option Port :=
  let n := 1 + f.cells
  let cls := f.vc.toNat / 4 % 4
  let short := cls == 0 && decide (x.fill now < 680 * n)
  let c := if short then 1 else cls
  let v := 4 * c + 2 * b2n (f.vc.getLsbD 1) + dl
  if !x.hasCredit v n || decide (512 < x.unacked + frameWords n) then none
  else
    let last := (x.txSeq + frameWords n) % 1024
    let g := { f with vc := BitVec.ofNat 8 v, hops := f.hops + 1 }
    let y := { (x.spend v n).linkSent with txSeq := last, kept := x.kept ++ [(last, g)] }
    some (if cls ≠ 0 then y
      else if short then { y with c0 := (x.fill now, now), c0Over := y.c0Over.satAdd 1 }
      else { y with c0 := (x.fill now - 680 * n, now) })

/-- A received frame has left its input buffer (R221, R224): its cells are owed as credits on its channel. -/
def Port.freed (x : Port) (f : Frame) : Port :=
  let v := f.vc.toNat % 16
  { x with inBuf := x.inBuf.erase f, owed := x.owed.set v (x.owed.getD v 0 + 1 + f.cells) }

/-- Cells that wait in the input buffer of a port (R224). -/
def Port.buffered (x : Port) : Nat := sumL (x.inBuf.map fun f => 1 + f.cells)

/-- A key for a module and suite, by which events are logged once for each pair (R237). -/
def pairNo (coord : List Nat) (suite : Nat) : Nat := coord.foldl (fun a c => 8 * a + c) (suite + 1)

/-- Drop a frame without a route (R230, R237): counted and logged with reason 3, once per pair and step in the log of the sending suite, or for a
passing frame in the management log. -/
def State.noRoute (s : State) (inPort : Option (Fin 16)) (srcDie : Fin 8) (f : Frame) (dim : Nat) : State :=
  let data := fun (port step : Nat) => pack ([(1, 3), (1, port), (2, 0)] ++ ((List.range 4).map fun i => (1, f.srcCoord.getD i 0)) ++ [(4, 1), (4, step)])
  match inPort with
  | some p => (s.scrDrop (fin8 (p.val / 2)) (Fin.ofNat 2 (p.val % 2))).mgtEvent 0x161 (p.val / 2) (p.val % 2) (data p 0xFFFFFFFF)
  | none =>
    let die := 2 * dim + b2n (f.flags.getLsbD 1)
    let face := if s.shorterPlus f dim then 0 else 1
    let t := s.scrDrop (fin8 die) (Fin.ofNat 2 face)
    match s.owner srcDie with
    | some k => t.oncePerStep k 0x161 (4 * pairNo f.dstCoord f.dstSuite + 3) fun u =>
        u.suiteEvent k 0x161 die face (data (2 * die + face) u.suites[k].step.toNat)
    | none => t.mgtEvent 0x161 die face (data (2 * die + face) 0xFFFFFFFF)

/-- Update the pair key of a peer. -/
def Suite.modPair (u : Suite) (i : Nat) (g : PairKey → PairKey) : Suite :=
  { u with pairs := u.pairs.map fun (p : PairKey) => if p.peer = i then g p else p }

/-- Count a frame sent to a peer under the pair's epoch (R308). -/
def Suite.countPair (u : Suite) (coord : List Nat) (suite : Nat) : Suite :=
  match u.peerIdx coord suite with
  | none => u
  | some i => u.modPair i fun p => { p with sent := p.sent + 1 }

/-- The pair key in force with a peer (R307). -/
def Suite.pairOf (u : Suite) (coord : List Nat) (suite : Nat) : Option PairKey :=
  (u.peerIdx coord suite).bind fun i => u.pairs.find? fun p => p.peer == i

/-- Whether a module at a coordinate is another member of a collective group of a suite (R231). -/
def State.isMember (s : State) (k : Fin 8) (coord : List Nat) : Bool := s.suites[k].groups.any fun g => (s.others g).contains coord

/-- The header of a frame that a suite's die injects (R220, R228, R236): source, SUITE_DIES and HOPS from this module, DL = 0; types 0x10 to 0x15 with
ENC = 1, KEY_EPOCH, and the next FRAME_CTR of the pair. None where the suite may not send it: it is SCRUBBING or holds no die there, the destination is
no member of its groups (R231, R319), or no key is in force (R307). -/
def State.stamp (s : State) (srcDie : Fin 8) (f : Frame) : Option Frame :=
  match s.owner srcDie with
  | none => none
  | some k =>
    let u := s.suites[k]
    if u.st == .scrubbing then none
    else
      let g := { f with srcDie := srcDie, srcSuite := k, srcCoord := s.ownCoord, hops := 0, suiteDies := dieMaskOf (s.suiteDies k), vc := f.vc &&& 0xFE }
      if f.type.toNat < 0x10 then some { g with keyEpoch := 0, frameCtr := 0, flags := f.flags &&& 2 }
      else if f.dstSuite ≠ k.val ∨ !s.isMember k f.dstCoord then none
      else match u.pairOf f.dstCoord f.dstSuite with
        | none => none
        | some p =>
          let high := b2n (decide (pairNo f.dstCoord 0 < pairNo s.ownCoord 0))
          some { g with keyEpoch := p.epoch, flags := (f.flags &&& 2) ||| 1,
                        frameCtr := BitVec.ofNat 64 (high * 2 ^ 63 + srcDie.val * 2 ^ 60 + p.sent % 2 ^ 60) }

/-- Count an injected frame of types 0x10 to 0x15 against its pair's epoch (R308). -/
def State.countSent (s : State) (srcDie : Fin 8) (f : Frame) : State :=
  match s.owner srcDie with
  | some k => if 0x10 ≤ f.type.toNat then s.modSuite k fun u => u.countPair f.dstCoord f.dstSuite else s
  | none => s

/-- Send a frame by the port of its next dimension (R224, R227 to R233). None while it must wait; the flag tells whether it left, or was dropped for
want of a route. -/
def State.forward (s : State) (inPort : Option (Fin 16)) (here : Fin 8) (f : Frame) (dim : Nat) : Option (State × Bool) :=
  let cls := f.vc.toNat / 4 % 4
  match s.outPort inPort f dim with
  | none => some (s.noRoute inPort here f dim, false)
  | some (die, face) =>
    let straight := match inPort with | some p => p.val / 4 == dim | none => false
    let dl := if s.dateline dim (face == 0) || (straight && f.vc.getLsbD 0) then 1 else 0
    ((s.port (fin8 die) (Fin.ofNat 2 face)).send s.clk.time dl f).map fun x =>
      let t := (s.modPort (fin8 die) (Fin.ofNat 2 face) fun _ => x).crossEdges (rowFirst here die) false (cls == 0)
      (if inPort.isNone then t.countSent here f else t, true)

/-! ## Exchange chunks as they are sent (R238 to R242) -/

/-- The running EXCHANGE task of a suite that a frame names by group and task sequence (R238). -/
def State.exchTask? (s : State) (k : Fin 8) (group seq : Nat) : Option Task :=
  s.suites[k].tasks.find? fun t => t.desc.type == 4 && t.desc.mode != 9 && t.state == .running && t.desc.arg 0 2 == group && t.seq % 256 == seq

/-- The chunk that an EXCH_DATA or EXCH_CARRY frame names: group, task sequence, stage, step and chunk index (R220). -/
def frameChunk (f : Frame) : Nat × Nat × Nat × Nat × Nat :=
  (frameArg f 0 1, frameArg f 1 1, frameArg f 2 1, frameArg f 3 1, frameArg f 4 4)

/-- The coordinate of the next member of a ring (R239). -/
def State.ringNext (s : State) (dim : Nat) (plus : Bool) : List Nat :=
  s.ownCoord.set dim ((s.coord dim + (if plus then 1 else s.torus dim - 1)) % s.torus dim)

/-- Chunk grants of a stage, rail and direction (R238). -/
def chunkGrants : Nat := 16

/-- What the injection of an EXCH_DATA or EXCH_CARRY frame needs and leaves (R238 to R240): a chunk goes when this member holds its sum and a grant, on
the rail of the die that carries it, to the next member of its ring; its carries follow it. None where it may not go; the record of the chunk sent
otherwise. -/
def State.chunkGoes (s : State) (k : Fin 8) (f : Frame) : Option (Task × Option SentChunk) :=
  let (group, seq, stage, step, chunk) := frameChunk f
  match s.exchTask? k group seq with
  | none => none
  | some t =>
    match s.reduceOf k t with
    | none => none
    | some r =>
      let out := t.sent.any fun x => x.stage == stage && x.step == step && x.chunk == chunk
      if f.type = 0x11 then (if out && needsCarry (s.runningSum k r stage step chunk) then some (t, none) else none)
      else match s.chunkWay r stage step chunk with
        | none => none
        | some (dim, die, plus) =>
          let rail := (carrierOf r.g dim die chunk).val % 2
          let busy := (t.sent.filter fun x => x.stage == stage && x.rail == rail && x.plus == plus).length
          if out || !s.sendable k r stage step chunk || decide (chunkGrants ≤ busy) || rail != b2n (f.flags.getLsbD 1) ||
             f.dstCoord != s.ringNext dim plus || f.cells != 64 then none
          else some (t, some { stage := stage, step := step, chunk := chunk, rail := rail, plus := plus, time := s.clk.time, resends := 0 })

/-- Inject a frame (R220, R231, R236, R238): its header is stamped; a frame that the suite may not send is not sent, and one that must wait waits. -/
def State.inject (s : State) (srcDie : Fin 8) (f : Frame) : State :=
  match s.stamp srcDie f, s.owner srcDie with
  | some g, some k =>
    match s.nextDim g with
    | none => s.crossEdges (rowFirst srcDie (g.dstDie % 8)) false (g.vc.toNat / 4 % 4 == 0)
    | some dim =>
      if g.type = 0x10 ∨ g.type = 0x11 then
        match s.chunkGoes k g with
        | none => s
        | some (t, rec) => match s.forward none srcDie g dim with
          | none => s
          | some (u, _) => match rec with
            | some c => u.modTask k t.h fun x => { x with sent := c :: x.sent }
            | none => u
      else match s.forward none srcDie g dim with
        | none => s
        | some (u, _) => u
  | _, _ => s

/-- FRAME_FORWARD (R220, R224, R227 to R233): a frame injected by a die, or received on a port for another module, leaves by the port of its
next dimension. A frame that has arrived crosses to its die; link cells are never forwarded. While credits are missing the frame waits, in the input
buffer where it came in by a port. -/
def execFrameForward (inPort : Option (Fin 16)) (srcDie : Fin 8) (f : Frame) (s : State) : Out :=
  .next <|
    if f.type.toNat ∈ linkTypes then s
    else match inPort with
      | none => if frameMalformed f ∨ f.type.toNat ∉ forwardTypes then s else s.inject srcDie f
      | some p =>
        let here := fin8 (p.val / 2)
        let face := Fin.ofNat 2 (p.val % 2)
        if frameMalformed f ∨ f.type.toNat ∉ forwardTypes then (s.scrDrop here face).modPort here face fun x => x.freed f
        else match s.nextDim f with
          | none => s.crossEdges (rowFirst here (f.dstDie % 8)) false (f.vc.toNat / 4 % 4 == 0)
          | some dim => match s.forward (some p) here f dim with
            | some (u, _) => u.modPort here face fun x => x.freed f
            | none => s.modPort here face fun x =>
                if x.inBuf.contains f || decide (2048 < x.buffered + 1 + f.cells) then x else { x with inBuf := x.inBuf ++ [f] }

/-! ## Reception (R236, R237, R319) -/

/-- A pair's key for an epoch: the current one, or the previous while it lives (R237). Windows of the previous epoch are kept apart. -/
def PairKey.epochKey (p : PairKey) (epoch : Nat) : Option Nat :=
  if epoch = p.epoch then some 0 else if p.prevAlive ∧ (epoch + 1) % 65536 = p.epoch then some 8 else none

/-- Whether a counter is fresh: inside the window of the last 1,024 of its sender and die, and not seen in it (R237). -/
def PairKey.fresh (p : PairKey) (slot ctr : Nat) : Bool :=
  match p.seen.find? fun x => x.1 == slot with
  | none => true
  | some x => decide (x.2.1 < ctr + 1024) && !x.2.2.contains ctr

/-- Remember a counter. -/
def PairKey.take (p : PairKey) (slot ctr : Nat) : PairKey :=
  let old := (p.seen.find? fun x => x.1 == slot).getD (slot, ctr, [])
  let top := max old.2.1 ctr
  { p with
    seen := (slot, top, (ctr :: old.2.2).filter fun c => decide (top < c + 1024)) :: p.seen.filter fun x => x.1 != slot,
    firstSeen := p.firstSeen || decide (slot < 8) }

/-- Drop a frame under R237: the landing port counts it, and FRAME_DROPPED is logged at most once per pair, reason and step. -/
def State.authFail (s : State) (d : Fin 8) (q : Fin 2) (k : Fin 8) (f : Frame) (reason : Nat) : State :=
  let t := s.modPort d q fun x => { x with authFail := x.authFail.satAdd 1 }
  t.oncePerStep k 0x161 (4 * pairNo f.srcCoord f.srcSuite + reason) fun u => u.suiteEvent k 0x161 d q
    (pack ([(1, reason), (1, 2 * d.val + q.val), (2, 0)] ++ ((List.range 4).map fun i => (1, f.srcCoord.getD i 0)) ++
      [(4, 1), (4, s.suites[k].step.toNat)]))

/-- Receive an encrypted frame of a type at its landing port and run `g` on what it carries (R220, R236, R237, R319); its buffer space is freed. A frame
of another type, or for no suite of this module's layout, or from no member of its groups, is dropped (R220, R231). -/
def State.receiveFrame (s : State) (d : Fin 8) (q : Fin 2) (f : Frame) (type : BitVec 8) (g : State → Fin 8 → State) : State :=
  let s := s.modPort d q fun x => x.freed f
  if f.type ≠ type ∨ frameMalformed f ∨ !f.flags.getLsbD 0 then s.scrDrop d q
  else if 8 ≤ f.dstSuite ∨ s.owner d ≠ some (fin8 f.dstSuite) then s.scrDrop d q
  else
    let k := fin8 f.dstSuite
    if s.suites[k].st = .scrubbing then s.modPort d q fun x => { x with authFail := x.authFail.satAdd 1 }
    else if f.srcSuite ≠ f.dstSuite ∨ !s.isMember k f.srcCoord then s.scrDrop d q
    else
      let ctr := f.frameCtr.toNat % 2 ^ 60
      match s.suites[k].pairOf f.srcCoord f.srcSuite with
      | none => s.authFail d q k f 0
      | some p =>
        match p.epochKey f.keyEpoch with
        | none => s.authFail d q k f 0
        | some base =>
          if !p.fresh (base + f.srcDie % 8) ctr then s.authFail d q k f 1
          else if !f.tagOk then s.authFail d q k f 2
          else g (s.modSuite k fun u => u.modPair p.peer fun x => x.take (base + f.srcDie % 8) ctr) k

/-- Count a frame sent back to the sender of `f` (R308). -/
def State.answer (s : State) (k : Fin 8) (f : Frame) : State :=
  s.modSuite k fun u => u.countPair f.srcCoord f.srcSuite

/-- Whether a chunk's totals must wait for an APPLY to open (R256): the chunk then stays in its buffer and holds its grant. -/
def State.holdsGrant (s : State) (k : Fin 8) (group seq stage : Nat) : Bool :=
  match s.exchTask? k group seq with
  | none => false
  | some t => bitOf (t.desc.arg 2 1) 1 &&
      (match s.suites[k].group? group with | some g => decide ((s.ringDims g).length ≤ stage) | none => false) &&
      (match (s.tensor? k (t.desc.tensor 1)).bind fun m => (homeOf m.base).map fun x => (m, x) with
       | some (m, d, i) => s.mustWait d i k m.id
       | none => false)

/-- EXCH_DATA (R240, R242, R256): the chunk's low words are added once, and every copy is acknowledged, unless its totals wait for an APPLY. `marks`
are the positions whose input is marked, `grids` the grid of each element (log 65). -/
def execExchData (d : Fin 8) (q : Fin 2) (f : Frame) (vals : List Word) (marks : List Nat) (grids : List Int) (s : State) : Out :=
  .next (s.receiveFrame d q f 0x10 fun t k =>
    let (group, seq, stage, step, chunk) := frameChunk f
    let held := t.holdsGrant k group seq stage
    let t1 := if held then t else t.answer k f
    if t1.suites[k].chunks.any fun x => x.named group seq stage step chunk then t1
    else
      let c : ExchChunk := { group := group, seq := seq, stage := stage, step := step, chunk := chunk, grids := grids,
                             sums := vals.map (fun w => signed 32 w.toNat), marks := (List.range vals.length).map marks.contains, acked := !held }
      t1.modSuite k fun u => { u with chunks := c :: u.chunks })

/-- A running sum with its bits [47:32] from a carry frame (R240). -/
def carrySum (sum : Int) (carry : BitVec 16) : Int := signed 48 (unsigned 32 sum + carry.toNat * 2 ^ 32)

/-- EXCH_CARRY (R240): bits [47:32] of the running sums of the chunk it follows. -/
def execExchCarry (d : Fin 8) (q : Fin 2) (f : Frame) (carries : List (BitVec 16)) (s : State) : Out :=
  .next (s.receiveFrame d q f 0x11 fun t k =>
    let (group, seq, stage, step, chunk) := frameChunk f
    let add := fun (x : ExchChunk) =>
      if x.named group seq stage step chunk then { x with sums := x.sums.zipIdx.map fun (v, i) => (carries[i]?).elim v (carrySum v) } else x
    t.modSuite k fun u => { u with chunks := u.chunks.map add })

/-- EXCH_CTRL (R238, R242, R243, R245): an acknowledgement ends a chunk's resends and returns its grant, barrier arrivals count, extremes combine, and a
member's norm accumulator waits for the NORM of its group. -/
def execExchCtrl (d : Fin 8) (q : Fin 2) (f : Frame) (msg : ExchCtrl) (s : State) : Out :=
  .next (s.receiveFrame d q f 0x12 fun t k =>
    let group := frameArg f 1 1
    match msg with
    | .ack stage step chunk =>
      match t.exchTask? k group (frameArg f 2 1) with
      | none => t
      | some x => t.modTask k x.h fun y =>
          { y with sent := y.sent.filter fun z => !(z.stage == stage && z.step == step && z.chunk == chunk) }
    | .barrier id n =>
      (t.modSuite k fun u => let b := u.barrier? id; u.setBarrier id b.1 (b.2 + n)).barrierDone k id
    | .extremes h tile hi lo => t.modSuite k fun u => u.addExtreme { h := h, tile := tile, src := f.srcCoord, hi := hi, lo := lo }
    | .norm sum sat => t.modSuite k fun u =>
        { u with normIn := (group, f.srcCoord, sum, sat) :: u.normIn.filter fun x => !(x.1 == group && x.2.1 == f.srcCoord) })

/-- RESEND of an EXCHANGE in TCLK (R242): microseconds, 0 meaning 50. -/
def TaskDesc.resend (d : TaskDesc) : Nat := 1000 * (if d.arg 8 4 = 0 then 50 else d.arg 8 4)

/-- Whether the group has another rail for a chunk: a die of it on the same dimension, with the port of the direction ACTIVE (R242). -/
def State.otherRail (s : State) (g : Group) (dim rail : Nat) (plus : Bool) : Bool :=
  let d := 2 * dim + (1 - rail)
  g.dies.getLsbD d && (s.port (fin8 d) (if plus then 0 else 1)).st == .active

/-- The frame of a chunk that is sent again (R220, R240, R242): the header of EXCH_DATA, or of the EXCH_CARRY that follows it. -/
def chunkFrame (type : BitVec 8) (dst : List Nat) (die k rail : Nat) (t : Task) (x : SentChunk) : Frame :=
  { type := type, vc := 4, cells := if type = 0x10 then 64 else 32, flags := if rail = 1 then 2 else 0, dstCoord := dst, dstDie := die, dstSuite := k,
    srcDie := die, srcSuite := k, srcCoord := [], hops := 0, suiteDies := 0, keyEpoch := 0, frameCtr := 0,
    arg := leBytes 1 (t.desc.arg 0 2) ++ leBytes 1 t.seq ++ leBytes 1 x.stage ++ leBytes 1 x.step ++ leBytes 4 x.chunk, tagOk := true }

/-- Send a frame of a resend; none where it must wait or may not go. -/
def State.sendAgain (s : State) (die : Fin 8) (f : Frame) : Option State :=
  match s.stamp die f with
  | none => none
  | some g => match s.nextDim g with
    | none => none
    | some dim => (s.forward none die g dim).map (·.1)

/-- CHUNK_RESEND (R242): a chunk not acknowledged within RESEND is sent again, with a new FRAME_CTR and on the other rail when one exists; EXCH_RESEND
is logged once per task and rail. After the eighth resend the task completes TIMEOUT. A chunk that is not outstanding, not yet due, or whose port has no
room is left. -/
def execChunkResend (k : Fin 8) (h : Nat) (stage step chunk : Nat) (s : State) : Out :=
  .next <| s.onRunning k h fun t =>
    match t.sent.find? fun x => x.stage == stage && x.step == step && x.chunk == chunk, s.reduceOf k t with
    | some x, some r =>
      if s.clk.time < x.time + t.desc.resend then s
      else if 8 ≤ x.resends then s.exchangeTimeout k t
      else match s.chunkWay r stage step chunk with
        | none => s
        | some (dim, _, plus) =>
          let rail := if s.otherRail r.g dim x.rail plus then 1 - x.rail else x.rail
          let die := fin8 (2 * dim + rail)
          let fr := fun type => chunkFrame type (s.ringNext dim plus) die k.val rail t x
          let carry := needsCarry (s.runningSum k r stage step chunk)
          match s.sendAgain die (fr 0x10) with
          | none => s
          | some s0 =>
            let s1 := if carry then (s0.sendAgain die (fr 0x11)).getD s0 else s0
            let y := { x with rail := rail, time := s.clk.time, resends := x.resends + 1 }
            let s2 := s1.modTask k h fun z => { z with sent := y :: z.sent.erase x }
            if t.railsLogged.contains rail then s2
            else (s2.modTask k h fun z => { z with railsLogged := rail :: z.railsLogged }).suiteEvent k 0x163 0xFF 0
              (pack [(4, t.desc.taskId), (1, t.desc.arg 0 2), (1, rail), (2, 0), (4, 1), (4, s.suites[k].step.toNat)])
    | _, _ => s

/-! ## GET and PUT on the peer (R195, R238, R317) -/

/-- Whether the requester's key is in the set that bound any of the lines it asks for (R317). -/
def State.mayLeave (s : State) (k : Fin 8) (unit lines : Nat) (key : List Byte) : Bool :=
  match s.suites[k].boundSet [(unit, lines)] with
  | none => true
  | some set => s.suites[k].sets.any fun b => b.digest == set && b.keys.contains key

/-- GET_REQ (R195, R220, R238, R317): the address is checked, and a response or a refusal is sent. A bound source leaves only for a key of its
set, and its refusal is logged. -/
def execGetReq (d : Fin 8) (q : Fin 2) (f : Frame) (requesterKey : List Byte) (s : State) : Out :=
  .next (s.receiveFrame d q f 0x13 fun t k =>
    let unit := frameArg f 0 5
    let lines := frameArg f 5 2
    let t1 := t.answer k f
    if !t.regionOk k unit lines then t1.memError k unit 2 2 0xFFFFFFFF
    else if t.mayLeave k unit lines requesterKey then t1
    else t1.suiteEvent k 0x194 0xFF 0 (pack [(4, 0xFFFFFFFF), (2, 0xFFFF), (1, 1), (1, 0), (4, s.suites[k].step.toNat)]))

/-- GET_RSP (R24, R220, R238): lines of the response, from the address in its ARG on, go to their place in the GET's destination; they count as read
from another module. -/
def execGetRsp (d : Fin 8) (q : Fin 2) (f : Frame) (h : Nat) (bytes : List Byte) (s : State) : Out :=
  .next (s.receiveFrame d q f 0x14 fun t k => t.runTask k h 4 6 fun u task =>
    let unit := frameArg f 0 5
    let remote := task.desc.arg 12 5
    match (u.tensor? k (task.desc.tensor 1)).bind (u.baseRegion k) with
    | none => u
    | some w =>
      let n := cdiv bytes.length 64
      if unit < remote ∨ w.2 < unit - remote + n ∨ task.desc.peer ≠ f.srcCoord then u
      else
        let u1 := u.write (64 * (w.1 + (unit - remote))) bytes
        let u2 := u1.modTask k h fun x => { x with got := (((List.range n).map fun i => unit - remote + i) ++ x.got).eraseDups }
        u2.modSuite k fun v => { v with reads := (f.dstDie % 8, 0xFF, bytes.length) :: v.reads })

/-- PUT (R195, R220, R238): the lines are written where the suite may write, and refused elsewhere. -/
def execPut (d : Fin 8) (q : Fin 2) (f : Frame) (bytes : List Byte) (s : State) : Out :=
  .next (s.receiveFrame d q f 0x15 fun t k =>
    let unit := frameArg f 0 5
    let t1 := t.answer k f
    if t.regionOk k unit (cdiv bytes.length 64) then (t1.write (64 * unit) bytes).slotWrite k (64 * unit) bytes.length
    else t1.memError k unit 2 2 0xFFFFFFFF)

/-! ## Pair keys (R222, R306 to R308) -/

/-- A coordinate as the four bytes of an event. -/
def coordFields (c : List Nat) : List (Nat × Nat) := (List.range 4).map fun i => (1, c.getD i 0)

/-- Put a pair in force under an epoch (R307): FRAME_CTR starts again, and the previous epoch stays accepted (R237, R308). -/
def Suite.setPair (u : Suite) (i epoch : Nat) : Suite :=
  match u.pairs.find? fun p => p.peer == i with
  | none => { u with pairs := { peer := i, epoch := epoch, sent := 0, prevAlive := false, firstSeen := false, seen := [] } :: u.pairs }
  | some p =>
    if p.epoch = epoch then u
    else
      let kept := (p.seen.filter fun x => decide (x.1 < 8)).map fun x => (x.1 + 8, x.2.1, x.2.2)
      u.modPair i fun _ => { peer := i, epoch := epoch, sent := 0, prevAlive := true, firstSeen := false, seen := kept }

/-- PAIR_KEY (R222, R307): the carried device key must have the digest of the peer table's entry, and the signature must verify; otherwise the
exchange ends and no key is in force. A new key of a pair that had one logs KEY_ROTATED. The frame crosses to its die, which passes it to the primary
Pyrhoax core over C0. -/
def execPairKey (d : Fin 8) (q : Fin 2) (m : PairKeyMsg) (s : State) : Out :=
  if m.enc ∨ m.cells ≠ 5 ∨ m.reserved then .next (s.scrDrop d q)
  else if 8 ≤ m.dstSuite then .next s
  else
    let k := fin8 m.dstSuite
    let s := (s.crossEdges (rowFirst d (m.dstDie % 8)) false true).crossEdges (rowFirst (m.dstDie % 8) s.primaryDie) false true
    let u := s.suites[k]
    if u.st = .scrubbing ∨ u.st = .absent then .next (s.modPort d q fun x => { x with authFail := x.authFail.satAdd 1 })
    else match u.peerIdx m.srcCoord m.srcSuite with
      | none => .next s
      | some i =>
        let ok := (match u.peers[i]? with | some p => p.digest == m.keyDigest | none => false) && m.sigOk
        if !ok then .next (s.modSuite k fun v => { v with pairs := v.pairs.filter fun p => p.peer != i })
        else
          let had := u.pairs.any fun p => p.peer == i && p.epoch != m.keyEpoch
          let t := s.modSuite k fun v => v.setPair i m.keyEpoch
          .next (if had then t.suiteEvent k 0x193 0xFF 0 (pack ([(1, 1), (3, 0), (2, m.keyEpoch), (2, 0)] ++ coordFields m.srcCoord ++ [(4, 0)])) else t)

/-- Frames under one epoch that make a pair rotate (R308, R323): SEC_ROT_PAIR.FRAMES × 2^20, 0 acting as 1. -/
def State.pairLimit (s : State) : Nat := min (max 1 s.sec.rotPair.toNat * 2 ^ 20) (2 ^ 59)

/-- PAIR_KEY_ROTATION (R308): KEY_EPOCH advances by one, FRAME_CTR starts from 0, and the previous key stays until it is destroyed. -/
def execPairKeyRotation (k : Fin 8) (peer : Nat) (s : State) : Out :=
  match s.suites[k].pairs.find? fun p => p.peer == peer with
  | none => .next s
  | some p =>
    if p.sent < s.pairLimit then .next s
    else
      let e := (p.epoch + 1) % 65536
      let c := match s.suites[k].peers[peer]? with | some x => x.coord | none => []
      .next ((s.modSuite k fun u => u.setPair peer e).suiteEvent k 0x193 0xFF 0
        (pack ([(1, 1), (3, 0), (2, e), (2, 0)] ++ coordFields c ++ [(4, 0)])))

/-- PREVIOUS_PAIR_KEY_DESTROY (R308): 10 ms after the first frame of the new epoch, frames of the previous one are no longer accepted. -/
def execPreviousPairKeyDestroy (k : Fin 8) (peer : Nat) (s : State) : Out :=
  .next (s.modSuite k fun u => u.modPair peer fun p =>
    if p.prevAlive ∧ p.firstSeen then { p with prevAlive := false, seen := p.seen.filter fun x => decide (x.1 < 8) } else p)

end Sys2Proof.Machine
end

