-- ==== Sys2Proof/Machine/Health.lean ====
section
/-! DEFINITION. Ageing and the retirement record (R386, R388 to R392): the record's writes, the relog of withheld retirements, the panel fits and
the end-of-life prediction. -/

namespace Sys2Proof.Machine

/-! ## The retirement record (R388, R389) -/

/-- RETIREMENT_RECORD_WRITE (R389): the oldest committed retirement is written; a full record takes no more. -/
def execRetirementRecordWrite (s : State) : Out :=
  match s.hlt.pendingRecs with
  | [] => .next s
  | e :: es =>
    let t := { s with hlt := { s.hlt with pendingRecs := es } }
    .next (if 4096 ≤ t.flash.status.retired.length then t else t.setStatus fun x => { x with retired := x.retired ++ [e] })

/-- Spares, pseudo-channels or lane groups left beside a resource (R396). -/
def State.leftOf (s : State) (e : RetEntry) : Nat :=
  let d := fin8 e.die
  match e.kind with
  | 0 => s.roleCount d .spare
  | 1 => (s.stack d (Fin.ofNat 12 (e.index / 64))).pcs
  | _ => popcount s.dies[d].edges[Fin.ofNat 3 (e.index / 16)].groups.toNat 16

/-- Whether the resource of an entry is still in service. -/
def State.inUse (s : State) (e : RetEntry) : Bool :=
  let d := fin8 e.die
  match e.kind with
  | 0 => let r := (s.panel d (Fin.ofNat 104 e.index)).role; r == .enabled || r == .spare
  | 1 => !(s.stack d (Fin.ofNat 12 (e.index / 64))).pcRetired.getLsbD (e.index % 64)
  | _ => s.dies[d].edges[Fin.ofNat 3 (e.index / 16)].groups.getLsbD (e.index % 16)

/-- RETIRED_RELOG (R388): a withheld retirement whose resource is still in service is logged again, at most once per hour. -/
def execRetiredRelog (s : State) : Out :=
  .next ((s.hlt.withheld.filter fun x => s.inUse x.1).foldl (fun t x => t.withholdRet x.1 (t.leftOf x.1)) s)

/-! ## The panel fit (R391) -/

/-- A prediction in days from now, with its interval. -/
structure Predict where
  days : Nat
  low : Nat
  high : Nat
  deriving DecidableEq, Repr

/-- No prediction, or one beyond the range (R394). -/
def Predict.none : Predict := { days := 65535, low := 65535, high := 65535 }

/-- The fourth root of a day count in units of 2^−32. -/
def fourthRoot (t : Nat) : Nat := isqrt (isqrt (t * 2 ^ 128))

/-- life(a) − t_now of R391, for a slope in units of 2^−64 and a limit in 0.1%. -/
def lifeLeft (a : Int) (limit now : Nat) : Nat :=
  if a ≤ 0 then 65535 else min 65535 (limit ^ 4 * 2 ^ 256 / (1000 ^ 4 * a.toNat ^ 4) - now)

/-- The fit of R391 over samples (day, BASE − NOW): the slope A and its standard error, in units of 2^−64. Arithmetic in whole numbers, rounded
down (log 32). -/
def ageSlope (base : Nat) (xs : List (Nat × Int)) : Int × Int :=
  let ps := xs.map fun (x : Nat × Int) => (fourthRoot x.1, x.2)
  let sxx := sumL (ps.map fun (p : Nat × Int) => p.1 * p.1)
  let sxy := ps.foldl (fun (a : Int) (p : Nat × Int) => a + p.1 * p.2) 0
  let r := sumL (ps.map fun (p : Nat × Int) => (p.2 * sxx - sxy * p.1).natAbs ^ 2)
  (sxy * 2 ^ 96 / (base * sxx : Nat), isqrt (r * 2 ^ 192 / (sxx ^ 3 * base ^ 2 * (xs.length - 1))))

/-- A panel's prediction (R391): none before 30 days of samples exist. -/
def predictPanel (base limit now : Nat) (xs : List (Nat × Int)) : Predict :=
  match xs.head?, xs.getLast? with
  | some a, some b =>
    if xs.length < 2 ∨ b.1 < a.1 + 30 then .none
    else
      let f := ageSlope base xs
      { days := lifeLeft f.1 limit now, low := lifeLeft (f.1 + 1645 * f.2 / 1000) limit now, high := lifeLeft (f.1 - 1645 * f.2 / 1000) limit now }
  | _, _ => .none

/-! ## End of life (R386, R392) -/

/-- A crossing with the resource it names: kind, index, prediction. -/
abbrev Cross := Nat × Nat × Predict

/-- Insert by days, rising; ties keep their order. -/
def insertCross (c : Cross) : List Cross → List Cross
  | [] => [c]
  | x :: xs => if c.2.2.days < x.2.2.days then c :: x :: xs else x :: insertCross c xs

/-- The n-th crossing of a list, from 1, where every resource of the list has one; a resource without a prediction crosses last. -/
def nthCross (n : Nat) (cs : List Cross) : Option Cross := if n = 0 then none else (cs.foldl (fun a c => insertCross c a) [])[n - 1]?

/-- RO_LIMIT in force (R394). -/
def State.roLimit (s : State) : Nat := min (s.hlt.ctrl.toNat % 256) s.policy.roLimit

/-- The samples of a panel's fit. -/
def State.fitOf (s : State) (d p : Nat) : List (Nat × Int) :=
  ((s.flash.status.ageFits.find? fun f => f.die == d && f.panel == p).map fun (f : AgeFit) => f.samples).getD []

/-- The crossing that decides for a die's panels (R392): the (k + E − 91)-th of its enabled and spare panels. -/
def State.dieCross (s : State) (d : Fin 8) (now : Nat) : Option Cross :=
  let live := (List.finRange 104).filter fun p => (s.panel d p).role == .enabled || (s.panel d p).role == .spare
  nthCross (live.length - 91) (live.map fun (p : Fin 104) => (0, 104 * d.val + p.val, predictPanel (s.roBase d p) s.roLimit now (s.fitOf d p)))

/-- The crossings that decide for a die's stacks and edges (R392), from the predictions of the other monitors. -/
def State.otherCross (s : State) (d : Fin 8) (others : List Crossing) : List Cross :=
  let pick := fun (kind lo n total : Nat) =>
    nthCross n ((List.range total).map fun i =>
      match others.find? fun c => c.kind == kind && c.index == lo + i with
      | some c => (kind, lo + i, ({ days := c.days, low := c.low, high := c.high } : Predict))
      | none => (kind, lo + i, Predict.none))
  ((List.finRange 12).filterMap fun (i : Fin 12) => pick 1 (64 * (12 * d.val + i.val)) ((s.stack d i).pcs - 55) 64) ++
  ((List.finRange 3).filterMap fun (e : Fin 3) =>
    if s.edgePresent d e then pick 2 (48 * d.val + 16 * e.val) (popcount s.dies[d].edges[e].groups.toNat 16 - 11) 16 else none)

/-- The earliest crossing of the module. -/
def State.firstCross (s : State) (now : Nat) (others : List Crossing) : Option Cross :=
  let all := (List.finRange 8).flatMap fun (d : Fin 8) => if s.populated d then (s.dieCross d now).toList ++ s.otherCross d others else []
  all.foldl (fun (a : Option Cross) c => match a with | none => some c | some b => if c.2.2.days < b.2.2.days then some c else some b) none

/-- Log EOL_WARNING (R396). -/
def State.eolWarning (s : State) (kindIndex port : Nat) (p : Predict) : State :=
  s.mgtEvent 0x1B1 0xFF 0 (pack [(2, kindIndex), (1, port), (1, 0), (4, p.days), (4, p.low), (4, p.high)])

/-- Update HLT_EOL and the warning below 90 days (R392, R394). While a die is flagged for replacement DAYS is 0. -/
def State.setEol (s : State) (c : Option Cross) : State :=
  let x : Cross := c.getD (0, 0, Predict.none)
  let flagged := (List.finRange 8).any fun (d : Fin 8) => s.replaceDie d
  let p : Predict := if flagged then { days := 0, low := 0, high := 0 } else x.2.2
  let ki := x.1 * 2 ^ 13 + x.2.1 % 2 ^ 13
  let near := decide (p.days < 90)
  let t := { s with hlt := { s.hlt with eol := mkWord [(16, p.days), (0, ki)], eolCi := mkWord [(16, p.high), (0, p.low)], eol90 := near } }
  if near && !s.hlt.eol90 then (t.eolWarning ki 0xFF p).alert 4 else t

/-- Warn once of each Scrim lane pair predicted below 90 days (R392): kind 3 carries 10 × port + pair. -/
def State.warnPairs (s : State) (others : List Crossing) : State :=
  (others.filter fun c => c.kind == 3 && decide (c.days < 90)).foldl (fun t c =>
    if t.hlt.warnedPairs.contains c.index then t
    else (t.eolWarning (3 * 2 ^ 13 + c.index % 10) (c.index / 10) { days := c.days, low := c.low, high := c.high }).alert 4 |> fun (u : State) =>
      { u with hlt := { u.hlt with warnedPairs := c.index :: u.hlt.warnedPairs } }) s

/-- Add one hourly sample to a panel's fit and its register; a panel whose slowdown reaches RO_LIMIT is marked failing (R382, R391). -/
def State.addSample (s : State) (days : Nat) (a : AgeSample) : State :=
  if (s.panel a.die a.panel).role ≠ .enabled ∧ (s.panel a.die a.panel).role ≠ .spare then s
  else
    let base := s.roBase a.die a.panel
    let old := s.fitOf a.die a.panel
    let fit : AgeFit := { die := a.die, panel := a.panel, samples := old ++ [(days, (base : Int) - a.freq)] }
    let s1 := s.setStatus fun x => { x with ageFits := fit :: x.ageFits.filter fun f => !(f.die == a.die.val && f.panel == a.panel.val) }
    let s2 := s1.modPanel a.die a.panel fun x => { x with roNow := BitVec.ofNat 16 a.freq }
    if 0 < base ∧ ((s2.roLimit * base : Nat) : Int) ≤ 1000 * ((base : Int) - a.freq) then s2.retirePanel a.die a.panel 3 else s2

/-- AGEING_SAMPLE (R382, R391, R392): the hourly samples, the fits, the prediction and its warnings. `others` gives the predictions of the
monitors whose fits the spec does not write out; `days` is the count of days in service. -/
def execAgeingSample (samples : List AgeSample) (others : List Crossing) (days : Nat) (s : State) : Out :=
  let s1 := samples.foldl (fun t a => t.addSample days a) (s.setStatus fun x => { x with days := days })
  .next ((s1.setEol (s1.firstCross days others)).warnPairs others)

end Sys2Proof.Machine
end

