-- ==== Sys2Proof/Machine/Power.lean ====
section
/-! DEFINITION. Thermal response, power budgets and the module cap (R399 to R403), and the status LED (R410). -/

namespace Sys2Proof.Machine

/-- Apply the bounds after a throttling action; a change of any die's K counts and raises the throttling alert (R399, R411). -/
def State.throttle (s : State) : State :=
  let t := s.applyK true
  if t.clk.k = s.clk.k then t else t.alert 1

/-! ## Thermal response (R192, R399) -/

/-- The thermal bound `k` of a die after 1 ms at a junction temperature, in °C; a fall starts from the least bound in force, `least`, and goes
on at 103 and above (R399; DEDUCED, log 40). -/
def thermalK (k least temp : Nat) : Nat :=
  let fall := max 1 (least - 1)
  if 105 ≤ temp then min fall 8
  else if 103 ≤ temp then min fall 16
  else if 95 < temp then fall
  else if temp ≤ 92 then min 32 (k + 1)
  else k

/-- A sensor at 108 °C: THERMTRIP_N and the power-off sequence (R399). -/
def State.trip (s : State) : State := s.powerOff .standby true

/-- THERMAL_TICK (R192, R399): each 1 ms every die and every stack acts on its hottest sensor, in °C. The C0
buckets fill at the rate in force until now (R208). -/
def execThermalTick (junction : List Nat) (stackTemps : List (List Nat)) (s : State) : Out :=
  let ds := (List.finRange 8).filter fun (d : Fin 8) => s.populated d
  let temp := fun (d : Fin 8) (i : Nat) => (stackTemps.getD d.val []).getD i 0
  let hot := fun (d : Fin 8) => (stackTemps.getD d.val []).any fun t => decide (95 < t)
  if s.power.phase ≠ .on then .next s
  else if ds.any fun d => decide (108 ≤ junction.getD d.val 0) || (stackTemps.getD d.val []).any (fun t => decide (108 ≤ t)) then .next s.trip
  else
    let s1 := ds.foldl (fun t d => t.modDie d fun x => { x with
      stks := Vector.ofFn fun (i : Fin 12) => { x.stks[i].settleC0 s.clk.time with
        temp := temp d i.val, refresh2x := decide (85 < temp d i.val) } }) s
    let ks : Vector Nat 8 := Vector.ofFn fun (d : Fin 8) => if s.populated d then thermalK s.power.kTherm[d] (s.kLeast d) (junction.getD d.val 0) else 32
    let bits := dieMaskOf (ds.filter fun d => decide (ks[d] < 32) || hot d)
    let s2 := { s1 with power := { s1.power with kTherm := ks, thermal := bits } }
    let s3 := if ds.any fun d => decide (105 ≤ junction.getD d.val 0) then s2.alert 0 else s2
    .next s3.throttle

/-- THERMAL_TRIP (R399): a sensor at 108 °C. -/
def execThermalTrip (s : State) : Out := if s.power.phase = .on then .next s.trip else .next s

/-! ## Budgets (R402) -/

/-- A suite's weight (R334): 0 acts as 1. -/
def State.weight (s : State) (k : Fin 8) : Nat := max 1 (s.powerSection.weights.getD k.val 1)

/-- Draw of a suite: that of its dies. -/
def State.suiteDraw (s : State) (r : PowerReading) (k : Fin 8) : Nat := sumL ((s.suiteDies k).map fun d => r.dieDraw.getD d.val 0)

/-- Suites that share the budget (R402). -/
def State.activeSuites (s : State) : List (Fin 8) :=
  (List.finRange 8).filter fun k => s.suites[k].st == .running || s.suites[k].st == .draining || s.suites[k].st == .scrubbing

/-- Budgets of R402 as exact fractions: of each active suite the numerator, over one common denominator. -/
def State.budgets (s : State) (r : PowerReading) : List (Fin 8 × Nat) × Nat :=
  let act := s.activeSuites
  let avail := s.capWatts - r.shared
  let w := max 1 (sumL (act.map s.weight))
  let under := act.filter fun k => decide (s.suiteDraw r k * w < avail * s.weight k)
  let at_ := act.filter fun k => !decide (s.suiteDraw r k * w < avail * s.weight k)
  let spare := sumL (under.map fun k => avail * s.weight k - s.suiteDraw r k * w)
  let w2 := max 1 (sumL (at_.map s.weight))
  (act.map fun k => (k, avail * s.weight k * w2 + (if at_.contains k then spare * s.weight k else 0)), w * w2)

/-- The budget bound `k` of a die after 1 ms (R402): one step below the least bound in force while its suite draws above the budget, one step up
while it draws at least 5% below. -/
def budgetK (k least draw num den : Nat) : Nat :=
  if num < draw * den then max 1 (least - 1) else if 100 * draw * den ≤ 95 * num then min 32 (k + 1) else k

/-- A 16-bit reading. -/
def reading (v : Nat) : BitVec 16 := BitVec.ofNat 16 (min 65535 v)

/-- POWER_CONTROL_TICK (R402, R403, R411): readings, budgets and the suites' bounds. Within the cap the module steps of R403 are given back,
once per 1 ms while the draw is at least 5% below the cap, and CAPPED clears with the last one. -/
def execPowerControlTick (r : PowerReading) (s : State) : Out :=
  if s.power.phase ≠ .on then .next s
  else
    let (bs, den) := s.budgets r
    let bound := fun (d : Fin 8) => match bs.find? fun (b : Fin 8 × Nat) => s.owner d == some b.1 with
      | some b => budgetK s.power.kBudget[d] (s.kLeast d) (s.suiteDraw r b.1) b.2 den
      | none => 32
    let ks : Vector Nat 8 := Vector.ofFn bound
    let steps := if 100 * r.moduleDraw ≤ 95 * s.capWatts then s.power.kModule - 1 else s.power.kModule
    let p := { s.power with
      vin := reading r.vin, iin := reading r.iin, moduleW := reading r.moduleDraw, holdup := decide (46000 ≤ r.vin),
      dieW := Vector.ofFn fun (d : Fin 8) => if s.populated d then reading (r.dieDraw.getD d.val 0) else 0,
      suiteW := Vector.ofFn fun (k : Fin 8) => reading (s.suiteDraw r k),
      kBudget := ks, budget := dieMaskOf ((List.finRange 8).filter fun k => (s.suiteDies k).any fun d => decide (ks[d] < 32)),
      overMs := if s.capWatts < r.moduleDraw then s.power.overMs + 1 else 0,
      kModule := steps, capped := s.power.capped && steps != 0 }
    .next { s with power := p }.throttle

/-- MODULE_CAP_ENFORCE (R403): above the cap for 10 ms, every die's k falls by one step and CAPPED is set. -/
def execModuleCapEnforce (s : State) : Out :=
  if s.power.overMs < 10 then .next s
  else .next (({ s with power := { s.power with kModule := min 31 (s.power.kModule + 1), capped := true } }.throttle).alert 3)

/-! ## The status LED (R410) -/

/-- Colours and rates of the LED. -/
inductive Led where
  | off | greenBlink | green | amberBlink | amber | redBlink | red
  deriving DecidableEq, Repr

/-- Whether the rows of R410 beyond the first and the last two apply. -/
def State.ledOn (s : State) : Bool :=
  (match s.primer with | some p => p.ledEn | none => false) && !(s.mgt.stage ∈ [.rom, .firmware, .primer])

/-- What the LED shows (R410): the lowest row that applies. -/
def State.led (s : State) : Led :=
  if s.power.thermtrip then .red
  else if s.mgt.stage = .maintenance ∨ s.mgt.stage = .recovery then .redBlink
  else if !s.ledOn then .off
  else if (List.finRange 8).any fun (d : Fin 8) => s.replaceDie d then .amber
  else if s.suites.toList.any fun u => u.st == .scrubbing then .amberBlink
  else if s.mgt.stage = .ready then .green
  else .greenBlink

end Sys2Proof.Machine
end

