-- ==== Sys2Proof/Machine/Security.lean ====
section
/-! DEFINITION. Provisioning, binding packages, and the memory-key command of function 0 (R305, R306, R313 to R317, R326). -/

namespace Sys2Proof.Machine

/-- Run a command that names a suite: FORMAT_ERROR for a number outside 0 to 7 or an ABSENT suite, BUSY while it is SCRUBBING (R368; log 34). -/
def State.onSuite (s : State) (fn : Fin 9) (k : Nat) (f : Fin 8 → State) : State :=
  if h : k < 8 then
    match s.suites[(⟨k, h⟩ : Fin 8)].st with
    | .absent => s.mbxEnd fn .formatError []
    | .scrubbing => s.mbxEnd fn .busy []
    | _ => f ⟨k, h⟩
  else s.mbxEnd fn .formatError []

/-- A pair key's entry after a new peer table: kept while its peer stays under the same digest (R306, R307). -/
def repeer (old new : List Peer) (p : PairKey) : Option PairKey :=
  match old[p.peer]? with
  | none => none
  | some x => (new.findIdx? (· == x)).map fun i => { p with peer := i }

/-- A byte string as a big-endian number: equal lengths order by bytes. -/
def byteOrder (bs : List Byte) : Nat := bs.foldl (fun a b => 256 * a + b.toNat) 0

/-- The digest of a binding set (R313): its keys in ascending byte order, concatenated. -/
def setDigest (keys : List (List Byte)) : List Byte := Config.sha384 ((sortKey (keys.map fun x => (byteOrder x, x))).flatMap (·.2))

/-- The digest of this module's device public key as bytes (R323). -/
def State.ownKey (s : State) : List Byte := s.fuses.devKey.flatMap fun w => leBytes 4 w.toNat

/-- PROVISION (R306, R313): an owner-signed record. A binding set takes effect when it holds this module's key; at most 16 are in force. A peer
table replaces the old one. -/
def execProvision (fn : Fin 9) (k : Nat) (record : ProvisionRecord) (ownerSigOk : Bool) (s : State) : Out :=
  .next (s.command fn 0x21 fun t => t.onSuite fn k fun i =>
    if !ownerSigOk then t.mbxEnd fn .accessDenied []
    else match record with
      | .bindingSet keys =>
        let b : BindSet := { digest := setDigest keys, keys := keys.map Config.sha384 }
        if keys.isEmpty ∨ 64 < keys.length ∨ (keys.any fun x => x.length != 97) then t.mbxEnd fn .formatError []
        else if !b.keys.contains t.ownKey ∨ (t.suites[i].sets.any fun x => x.digest == b.digest) then t.mbxEnd fn .done []
        else if 16 ≤ t.suites[i].sets.length then t.mbxEnd fn .formatError []
        else (t.modSuite i fun u => { u with sets := u.sets ++ [b] }).mbxEnd fn .done []
      | .peerTable es =>
        if 64 < es.length then t.mbxEnd fn .formatError []
        else
          let new := es.map fun e => ({ coord := e.1, suite := e.2.1, digest := e.2.2 } : Peer)
          (t.modSuite i fun u => { u with peers := new, pairs := u.pairs.filterMap (repeer u.peers new) }).mbxEnd fn .done [])

/-- The regions of a package's image: unit, units, image offset in units, zero sizes left out (R118, R314). -/
def pkgRegions (x : Tensor) (sizes : List Nat) : List (Nat × Nat × Nat) :=
  (([x.base, x.index, x.twin, x.skim].zip sizes).zipIdx.map fun (p, i) => (p.1, p.2, sumL (sizes.take i))).filter fun r => r.2.1 != 0

/-- Log UNWRAPPED (R327). -/
def State.logUnwrapped (s : State) (k : Fin 8) (tensor result : Nat) (dig : List Byte) : State :=
  s.suiteEvent k 0x192 0xFF 0 (pack [(2, tensor), (1, result), (1, 0)] ++ ((dig ++ List.replicate 8 0).take 8) ++
    leBytes 4 s.suites[k].step.toNat)

/-- Write the first `n` bytes of an image into its regions. -/
def State.writeImage (s : State) (rs : List (Nat × Nat × Nat)) (img : List Byte) (n : Nat) : State :=
  rs.foldl (fun w r => w.write (64 * r.1) (((img.take n).drop (64 * r.2.2)).take (64 * r.2.1))) s

/-- Whether a package's header fields lie in their ranges (R313). -/
def packageOk (p : BindingPackage) : Bool :=
  p.magicOk && decide (1 ≤ p.recipients.length) && decide (p.recipients.length ≤ 64) && decide (p.chunk ≠ 0) && p.chunk % 64 == 0 &&
  decide (p.chunk ≤ 2 ^ 20)

/-- Whether a package is unwrapped to the end (R315): every chunk tag holds and the plaintext has the digest that the header gives. -/
def unwrapsWhole (p : BindingPackage) : Bool := p.badChunk.isNone && Config.sha384 p.image == p.digest

/-- What a write of the first `n` bytes of an image does to the suite's slots (R81, R162). -/
def State.imageOverSlots (s : State) (k : Fin 8) (rs : List (Nat × Nat × Nat)) (n : Nat) : State :=
  (rs.filter fun r => decide (64 * r.2.2 < n)).foldl (fun w r => w.slotWrite k (64 * r.1) (min (64 * r.2.1) (n - 64 * r.2.2))) s

/-- Poison every region of an image of which a byte below `n` was written (R315). -/
def State.poisonWritten (s : State) (rs : List (Nat × Nat × Nat)) (n : Nat) : State :=
  (rs.filter fun r => decide (64 * r.2.2 < n)).foldl (fun w r => w.poisonRange (64 * r.1) (64 * r.2.1)) s

/-- UNWRAP (R81, R313 to R316): a package for a set in force goes into a tensor's regions, which become bound; every refusal is ACCESS_DENIED and
poisons the regions already written. -/
def execUnwrap (fn : Fin 9) (k : Nat) (tensor : Nat) (pkg : BindingPackage) (s : State) : Out :=
  .next (s.command fn 0x22 fun t => t.onSuite fn k fun i =>
    match t.tensor? i tensor with
    | none => t.mbxEnd fn .formatError []
    | some x =>
      let rs := pkgRegions x pkg.sizes
      let entry := t.bytes x.at_ 64
      let same := (pkg.descImage.drop 2).take 42 == (entry.drop 2).take 42
      let bs := boundWith t.suites[i].bound (rs.map fun r => (r.1, r.2.1)) pkg.setDigest
      let refuse := fun (u : State) => (u.logUnwrapped i tensor 1 pkg.digest).mbxEnd fn .accessDenied []
      if !packageOk pkg then t.mbxEnd fn .formatError []
      else if !(t.suites[i].sets.any fun b => b.digest == pkg.setDigest) ∨ !pkg.recipients.contains t.ownKey ∨ !pkg.keyUnwrapOk ∨ !same ∨
          1024 < bs.length ∨ !(rs.all fun r => t.regionOk i r.1 r.2.1) then refuse t
      else
        let n := match pkg.badChunk with | some c => c * pkg.chunk | none => pkg.image.length
        let ok := unwrapsWhole pkg
        let t1 := t.confine i fun u =>
          let w := u.writeImage rs pkg.image n
          if ok then w else w.poisonWritten rs n
        let t2 := t1.imageOverSlots i rs n
        if !ok then refuse t2
        else
          let e := pkg.digest ++ leBytes 2 tensor
          let t3 := (t2.setEntryFlag x.at_ 1 true).modSuite i fun u =>
            { u with bound := bs, tensLog := (u.tensLog.1 + 1, Config.sha384 (u.tensLog.2 ++ e)), tensEntries := u.tensEntries ++ [e] }
          (t3.logUnwrapped i tensor 0 pkg.digest).mbxEnd fn .done [])

/-- The header of an exported package, bytes 0x00 to 0xFF (R313, R314). -/
def pkgHeader (set desc img : List Byte) (recipients chunk : Nat) (sizes : List Nat) : List Byte :=
  leBytes 4 0x42594C43 ++ leBytes 2 1 ++ leBytes 2 recipients ++ (set ++ List.replicate 48 0).take 48 ++ (desc ++ List.replicate 64 0).take 64 ++
  sizes.flatMap (leBytes 4) ++ leBytes 4 chunk ++ leBytes 4 0 ++ (Config.sha384 img ++ List.replicate 48 0).take 48 ++ List.replicate 64 0

/-- Recipient entries: the key's digest, and free values for the fresh ephemeral and wrapped keys (R313, R317). -/
def State.pkgRecipients (s : State) : List (List Byte) → List Byte × State
  | [] => ([], s)
  | d :: ds =>
    let (eph, s1) := s.freeBytes 97
    let (wrapped, s2) := s1.freeBytes 40
    let (rest, s3) := s2.pkgRecipients ds
    ((d ++ List.replicate 48 0).take 48 ++ eph ++ List.replicate 7 0 ++ wrapped ++ rest, s3)

/-- WRAP_EXPORT (R202, R314, R317): a bound tensor leaves as a new package for its set; ciphertext, tags and fresh keys are free values, and so
is the chunk size the module picks (log 7). Poisoned lines leave as zeros, with status POISONED. -/
def execWrapExport (fn : Fin 9) (k : Nat) (tensor : Nat) (host capacity : Nat) (s : State) : Out :=
  .next (s.command fn 0x23 fun t => t.onSuite fn k fun i =>
    match t.tensor? i tensor with
    | none => t.mbxEnd fn .formatError []
    | some x =>
      match t.opStruct i x with
      | .error _ => t.mbxEnd fn .formatError []
      | .ok st =>
        let rs := (t.regions x st).filter fun r => r.2 != 0
        match (t.suites[i].boundSet rs).bind fun d => t.suites[i].sets.find? fun b => b.digest == d with
        | none => t.mbxEnd fn .formatError []
        | some set =>
          if !(rs.all fun r => t.regionOk i r.1 r.2) then t.mbxEnd fn .accessDenied []
          else
            let img := rs.flatMap t.image
            let (v, t1) := t.drawFree
            let chunk := 64 * (1 + Config.freeNat v % 16384)
            let size := 0x100 + 192 * set.keys.length + img.length + 16 * cdiv img.length chunk
            if capacity < size then t.mbxEnd fn .formatError []
            else
              let (recips, t2) := t1.pkgRecipients set.keys
              let (cipher, t3) := t2.freeBytes (img.length + 16 * cdiv img.length chunk)
              let desc := t.bytes x.at_ 64
              let hdr := pkgHeader set.digest desc img set.keys.length chunk ((t.regions x st).map fun r => r.2)
              (t3.hostWrite host (hdr ++ recips ++ cipher)).mbxEnd fn
                (if rs.any fun r => t.poisonIn (64 * r.1) (64 * r.2) then .poisoned else .done) [])

/-- ROTATE_MEM (R305, R326): a rotation starts, or is queued, on every stack of the suite. -/
def execRotateMem (fn : Fin 9) (k : Nat) (s : State) : Out :=
  .next (s.command fn 0x24 fun t => t.onSuite fn k fun i => (t.rotateSuite i).mbxEnd fn .done [])

end Sys2Proof.Machine
end

