-- ==== Sys2Proof/Machine/Telemetry.lean ====
section
/-! DEFINITION. The SMBus target (R369) and the boundary-scan TAPs (R370, R371). -/

namespace Sys2Proof.Machine

/-! ## SMBus (R369) -/

/-- A reading as one byte. -/
def byteOf (v : Nat) : Byte := BitVec.ofNat 8 (min 255 v)

/-- ID: part number, dies, silicon revision, serial number. -/
def State.smbId (s : State) : List Byte :=
  leBytes 2 0x8800 ++ leBytes 1 s.fuses.dies ++ leBytes 1 s.fuses.rev.toNat ++ leBytes 8 s.fuses.serial.toNat

/-- STATUS: boot stage, failed dies, throttled dies, running suites. -/
def State.smbStatus (s : State) : List Byte :=
  let throttled := dieMaskOf ((List.finRange 8).filter fun (d : Fin 8) => s.populated d && decide (s.clk.k[d] < 32) && s.clk.k[d] != 0)
  let running := dieMaskOf ((List.finRange 8).filter fun (k : Fin 8) => s.suites[k].st == .running)
  leBytes 1 s.mgt.stage.code ++ [s.mgt.failed, throttled, running]

/-- TEMPS: hottest junction and hottest stack of each die, in °C. -/
def State.smbTemps (s : State) (junction : List Nat) : List Byte :=
  ((List.range 8).map fun d => byteOf (junction.getD d 0)) ++
  (s.dies.toList.map fun x => byteOf ((x.stks.toList.map fun y => y.temp).foldl max 0))

/-- POWER: input voltage and current, module power, power cap. -/
def State.smbPower (s : State) : List Byte :=
  leBytes 2 s.power.vin.toNat ++ leBytes 2 s.power.iin.toNat ++ leBytes 2 s.power.moduleW.toNat ++ leBytes 2 (s.capWatts % 65536)

/-- HEALTH: shortest predicted end of life in days, spare panels left per die. -/
def State.smbHealth (s : State) : List Byte :=
  leBytes 2 (s.hlt.eol.toNat / 2 ^ 16) ++
  ((List.finRange 8).map fun (d : Fin 8) => if s.populated d && s.hlt.recordLoaded then byteOf (s.roleCount d .spare) else 0)

/-- SMBUS_SNAPSHOT_REFRESH: the snapshot behind every block read. -/
def execSmbusSnapshotRefresh (junction : List Nat) (s : State) : Out :=
  .next { s with smbus := { s.smbus with
    id := s.smbId, status := s.smbStatus, temps := s.smbTemps junction, power := s.smbPower, health := s.smbHealth } }

/-- Answer a read. -/
def State.smbAnswer (s : State) (bs : List Byte) : State := { s with smbus := { s.smbus with reply := bs, nack := false } }

/-- SMBUS_ID. -/
def execSmbusId (s : State) : Out := .next (s.smbAnswer s.smbus.id)

/-- SMBUS_STATUS. -/
def execSmbusStatus (s : State) : Out := .next (s.smbAnswer s.smbus.status)

/-- SMBUS_TEMPS. -/
def execSmbusTemps (s : State) : Out := .next (s.smbAnswer s.smbus.temps)

/-- SMBUS_POWER. -/
def execSmbusPower (s : State) : Out := .next (s.smbAnswer s.smbus.power)

/-- SMBUS_HEALTH. -/
def execSmbusHealth (s : State) : Out := .next (s.smbAnswer s.smbus.health)

/-- ALERT_STATUS: read, or a write-byte whose 1s clear; a write with a bad PEC is discarded. -/
def execAlertStatus (clear : Option Byte) (pecOk : Bool) (s : State) : Out :=
  match clear with
  | none => .next (s.smbAnswer [BitVec.ofNat 8 s.smbus.alert.toNat])
  | some v => if pecOk then .next { s with smbus := { s.smbus with alert := s.smbus.alert &&& ~~~(BitVec.ofNat 5 v.toNat) } } else .next s

/-- ALERT_MASK: read or written; a write with a bad PEC is discarded. -/
def execAlertMask (write : Option Byte) (pecOk : Bool) (s : State) : Out :=
  match write with
  | none => .next (s.smbAnswer [BitVec.ofNat 8 s.smbus.mask.toNat])
  | some v => if pecOk then .next { s with smbus := { s.smbus with mask := BitVec.ofNat 5 v.toNat } } else .next s

/-- SMBALERT_N is asserted while any unmasked bit of ALERT_STATUS is 1. -/
def State.smbAlert (s : State) : Bool := (s.smbus.alert &&& ~~~s.smbus.mask) != 0

/-- The target's 7-bit address: 0x58 plus the straps (R369, R409). -/
def State.smbAddress (s : State) : Nat := 0x58 + s.power.smbAddr.toNat

/-! ## Boundary scan (R370, R371) -/

/-- Whether the TAPs offer every instruction. -/
def State.tapOpen (s : State) : Bool := !s.bscanLocked || s.unlocked

/-- Select an instruction on a die's TAP; while locked everything but IDCODE selects BYPASS (R371). A TAP exists on each populated die. -/
def State.selectTap (s : State) (d : Fin 8) (ir : TapInstr) (cells : List Bool) (driving : Bool) : State :=
  if !s.populated d then s
  else
    let x := s.taps[d]
    let y : Tap := if ir = .idcode ∨ ir = .bypass then { x with ir := ir, driving := false }
      else if s.tapOpen then { ir := ir, cells := cells, driving := driving } else { x with ir := .bypass, driving := false }
    { s with taps := s.taps.set d y }

/-- TAP_IDCODE (R371). -/
def execTapIdcode (d : Fin 8) (s : State) : Out := .next (s.selectTap d .idcode [] false)

/-- TAP_BYPASS (R371). -/
def execTapBypass (d : Fin 8) (s : State) : Out := .next (s.selectTap d .bypass [] false)

/-- TAP_EXTEST (R370, R371): the boundary cells drive the pins. -/
def execTapExtest (d : Fin 8) (cells : List Bool) (s : State) : Out := .next (s.selectTap d .extest cells true)

/-- TAP_SAMPLE_PRELOAD (R370, R371): the boundary cells are captured or loaded; the pins are not driven. -/
def execTapSamplePreload (d : Fin 8) (cells : List Bool) (s : State) : Out := .next (s.selectTap d .samplePreload cells false)

/-- TAP_EXTEST_PULSE (R370, R371). -/
def execTapExtestPulse (d : Fin 8) (cells : List Bool) (s : State) : Out := .next (s.selectTap d .extestPulse cells true)

/-- TAP_EXTEST_TRAIN (R370, R371). -/
def execTapExtestTrain (d : Fin 8) (cells : List Bool) (s : State) : Out := .next (s.selectTap d .extestTrain cells true)

/-- TAP_RESET (R370): TRST_N resets every TAP of the chain. -/
def execTapReset (s : State) : Out := .next { s with taps := Vector.replicate 8 .reset }

end Sys2Proof.Machine
end

