-- ==== Sys2Proof/Machine/Dispatch.lean ====
section
/-! DEFINITION. The dispatch: one arm per command, each one call of its meaning. -/

namespace Sys2Proof.Machine

/-- The effect of a command on everything but the queue. -/
def exec (i : Instr) (s : State) : Host.Outcome State Fault Refusal :=
  match i with
  | .coldReset straps => Sys2Proof.Machine.execColdReset straps s
  | .moduleReset lowNs straps => Sys2Proof.Machine.execModuleReset lowNs straps s
  | .powerOffSequence thermtrip vinOff => Sys2Proof.Machine.execPowerOffSequence thermtrip vinOff s
  | .inputOvervoltage millivolts us => Sys2Proof.Machine.execInputOvervoltage millivolts us s
  | .stageRom pllLock serdesLock die0Absent => Sys2Proof.Machine.execStageRom pllLock serdesLock die0Absent s
  | .stageFirmware failedStart => Sys2Proof.Machine.execStageFirmware failedStart s
  | .stagePrimer badA badB => Sys2Proof.Machine.execStagePrimer badA badB s
  | .stageMemory failedDies badPcs badGroups => Sys2Proof.Machine.execStageMemory failedDies badPcs badGroups s
  | .stagePanels failedDies badPanels => Sys2Proof.Machine.execStagePanels failedDies badPanels s
  | .stageScrubTime => Sys2Proof.Machine.execStageScrubTime s
  | .ready => Sys2Proof.Machine.execReady s
  | .registerWrite fn off size be value => Sys2Proof.Machine.execRegisterWrite fn off size be value s
  | .latchedReadLo fn off => Sys2Proof.Machine.execLatchedReadLo fn off s
  | .guardedWrite off value off2 value2 gap other => Sys2Proof.Machine.execGuardedWrite off value off2 value2 gap other s
  | .rwbWrite fn off value => Sys2Proof.Machine.execRwbWrite fn off value s
  | .rwbApply b => Sys2Proof.Machine.execRwbApply b s
  | .intStatusClear fn value => Sys2Proof.Machine.execIntStatusClear fn value s
  | .function0Flr => Sys2Proof.Machine.execFunction0Flr s
  | .suiteReset k => Sys2Proof.Machine.execSuiteReset k s
  | .dmaTimeout op => Sys2Proof.Machine.execDmaTimeout op s
  | .sqDoorbell k q value => Sys2Proof.Machine.execSqDoorbell k q value s
  | .sqErrClear k q => Sys2Proof.Machine.execSqErrClear k q s
  | .cqHeadWrite k value => Sys2Proof.Machine.execCqHeadWrite k value s
  | .disableFunction f => Sys2Proof.Machine.execDisableFunction f s
  | .enableFunction f => Sys2Proof.Machine.execEnableFunction f s
  | .drainComplete f => Sys2Proof.Machine.execDrainComplete f s
  | .drainTimeout f => Sys2Proof.Machine.execDrainTimeout f s
  | .taskFetch k src => Sys2Proof.Machine.execTaskFetch k src s
  | .taskDispatch k h => Sys2Proof.Machine.execTaskDispatch k h s
  | .syncWaitSatisfied k h => Sys2Proof.Machine.execSyncWaitSatisfied k h s
  | .taskComplete k h => Sys2Proof.Machine.execTaskComplete k h s
  | .watchdog k h => Sys2Proof.Machine.execWatchdog k h s
  | .taskTimeout k h => Sys2Proof.Machine.execTaskTimeout k h s
  | .threadAgePromotion d p t => Sys2Proof.Machine.execThreadAgePromotion d p t s
  | .tileStart d p t => Sys2Proof.Machine.execTileStart d p t s
  | .threadPreempt d p t => Sys2Proof.Machine.execThreadPreempt d p t s
  | .tileDrain d p upsets => Sys2Proof.Machine.execTileDrain d p upsets s
  | .tileRecompute d p own other => Sys2Proof.Machine.execTileRecompute d p own other s
  | .spareSelfTestDone d p pass => Sys2Proof.Machine.execSpareSelfTestDone d p pass s
  | .panelStoreError d p t double inContext => Sys2Proof.Machine.execPanelStoreError d p t double inContext s
  | .sliceSteal d thief => Sys2Proof.Machine.execSliceSteal d thief s
  | .mergeAdd k h row fails => Sys2Proof.Machine.execMergeAdd k h row fails s
  | .mergedRowDrain k h row => Sys2Proof.Machine.execMergedRowDrain k h row s
  | .productPlain k h => Sys2Proof.Machine.execProductPlain k h s
  | .productTurned k h => Sys2Proof.Machine.execProductTurned k h s
  | .productSampled k h => Sys2Proof.Machine.execProductSampled k h s
  | .skimPredict k h => Sys2Proof.Machine.execSkimPredict k h s
  | .skimFused k h => Sys2Proof.Machine.execSkimFused k h s
  | .skimInit k h => Sys2Proof.Machine.execSkimInit k h s
  | .skimSet k h => Sys2Proof.Machine.execSkimSet k h s
  | .skimSave k h => Sys2Proof.Machine.execSkimSave k h s
  | .skimRestore k h => Sys2Proof.Machine.execSkimRestore k h s
  | .relayStore k h => Sys2Proof.Machine.execRelayStore k h s
  | .relayStoreValues k h => Sys2Proof.Machine.execRelayStoreValues k h s
  | .relayOnehot k h => Sys2Proof.Machine.execRelayOnehot k h s
  | .relayCopy k h => Sys2Proof.Machine.execRelayCopy k h s
  | .relayHostIn k h bytes => Sys2Proof.Machine.execRelayHostIn k h bytes s
  | .relayHostOut k h => Sys2Proof.Machine.execRelayHostOut k h s
  | .relayCheck k h => Sys2Proof.Machine.execRelayCheck k h s
  | .relayTwin k h => Sys2Proof.Machine.execRelayTwin k h s
  | .exchangeAllreduce k h => Sys2Proof.Machine.execExchangeAllreduce k h s
  | .exchangeReduceScatter k h => Sys2Proof.Machine.execExchangeReduceScatter k h s
  | .exchangeAllgather k h members => Sys2Proof.Machine.execExchangeAllgather k h members s
  | .exchangeBroadcast k h rootBytes => Sys2Proof.Machine.execExchangeBroadcast k h rootBytes s
  | .exchangeSend k h => Sys2Proof.Machine.execExchangeSend k h s
  | .exchangeRecv k h bytes => Sys2Proof.Machine.execExchangeRecv k h bytes s
  | .exchangeGet k h peerRefused => Sys2Proof.Machine.execExchangeGet k h peerRefused s
  | .exchangePut k h peerRefused => Sys2Proof.Machine.execExchangePut k h peerRefused s
  | .exchangeNorm k h => Sys2Proof.Machine.execExchangeNorm k h s
  | .exchangeDefine k h => Sys2Proof.Machine.execExchangeDefine k h s
  | .chunkResend k h stage step chunk => Sys2Proof.Machine.execChunkResend k h stage step chunk s
  | .updateApply k h => Sys2Proof.Machine.execUpdateApply k h s
  | .applyOpen d st => Sys2Proof.Machine.execApplyOpen d st s
  | .gradientArrival d st h elem total grid marked => Sys2Proof.Machine.execGradientArrival d st h elem total grid marked s
  | .updateFreeze k h => Sys2Proof.Machine.execUpdateFreeze k h s
  | .updateThaw k h => Sys2Proof.Machine.execUpdateThaw k h s
  | .updateVerify k h => Sys2Proof.Machine.execUpdateVerify k h s
  | .updateReplay k h => Sys2Proof.Machine.execUpdateReplay k h s
  | .updateRender k h => Sys2Proof.Machine.execUpdateRender k h s
  | .maskSample k h => Sys2Proof.Machine.execMaskSample k h s
  | .maskRank k h => Sys2Proof.Machine.execMaskRank k h s
  | .maskBuild k h => Sys2Proof.Machine.execMaskBuild k h s
  | .topkScan k h => Sys2Proof.Machine.execTopkScan k h s
  | .topkProductScan k h => Sys2Proof.Machine.execTopkProductScan k h s
  | .barrier k h d => Sys2Proof.Machine.execBarrier k h d s
  | .scaleInit k h => Sys2Proof.Machine.execScaleInit k h s
  | .scaleSet k h => Sys2Proof.Machine.execScaleSet k h s
  | .scaleSave k h => Sys2Proof.Machine.execScaleSave k h s
  | .scaleRestore k h => Sys2Proof.Machine.execScaleRestore k h s
  | .markRun k h => Sys2Proof.Machine.execMarkRun k h s
  | .markStepEnd k h d => Sys2Proof.Machine.execMarkStepEnd k h d s
  | .markCheckpoint k h => Sys2Proof.Machine.execMarkCheckpoint k h s
  | .markLoad k h bytes => Sys2Proof.Machine.execMarkLoad k h bytes s
  | .stepBoundary k => Sys2Proof.Machine.execStepBoundary k s
  | .pcRetirementMove d st pc unreadable => Sys2Proof.Machine.execPcRetirementMove d st pc unreadable s
  | .memoryRead k d who h unit lines fails ecc cls speculative late full => Sys2Proof.Machine.execMemoryRead k d who h unit lines fails ecc cls speculative late full s
  | .memoryWrite k d who h unit off bytes cls fails ecc full => Sys2Proof.Machine.execMemoryWrite k d who h unit off bytes cls fails ecc full s
  | .d2dFlitReplay d e g replays => Sys2Proof.Machine.execD2dFlitReplay d e g replays s
  | .memKeyRotationStart k => Sys2Proof.Machine.execMemKeyRotationStart k s
  | .reencryptionDone d st => Sys2Proof.Machine.execReencryptionDone d st s
  | .codewordReceive d q seq ack correctable corrected => Sys2Proof.Machine.execCodewordReceive d q seq ack correctable corrected s
  | .link d q nak credits reserved => Sys2Proof.Machine.execLink d q nak credits reserved s
  | .idle d q => Sys2Proof.Machine.execIdle d q s
  | .keepalive d q time => Sys2Proof.Machine.execKeepalive d q time s
  | .hello d q cell => Sys2Proof.Machine.execHello d q cell s
  | .frameForward inPort srcDie f => Sys2Proof.Machine.execFrameForward inPort srcDie f s
  | .exchData d q f vals marks grids => Sys2Proof.Machine.execExchData d q f vals marks grids s
  | .exchCarry d q f carries => Sys2Proof.Machine.execExchCarry d q f carries s
  | .exchCtrl d q f msg => Sys2Proof.Machine.execExchCtrl d q f msg s
  | .getReq d q f requesterKey => Sys2Proof.Machine.execGetReq d q f requesterKey s
  | .getRsp d q f h bytes => Sys2Proof.Machine.execGetRsp d q f h bytes s
  | .put d q f bytes => Sys2Proof.Machine.execPut d q f bytes s
  | .pairKey d q m => Sys2Proof.Machine.execPairKey d q m s
  | .pairKeyRotation k peer => Sys2Proof.Machine.execPairKeyRotation k peer s
  | .previousPairKeyDestroy k peer => Sys2Proof.Machine.execPreviousPairKeyDestroy k peer s
  | .tsyncSend d q => Sys2Proof.Machine.execTsyncSend d q s
  | .tsync d q cell phase => Sys2Proof.Machine.execTsync d q cell phase s
  | .signalDetect d q pairs => Sys2Proof.Machine.execSignalDetect d q pairs s
  | .detectRetry d q => Sys2Proof.Machine.execDetectRetry d q s
  | .equalizeDone d q good => Sys2Proof.Machine.execEqualizeDone d q good s
  | .alignDone d q => Sys2Proof.Machine.execAlignDone d q s
  | .trainingLimitExpiry d q => Sys2Proof.Machine.execTrainingLimitExpiry d q s
  | .linkLossTimeout d q => Sys2Proof.Machine.execLinkLossTimeout d q s
  | .pairDegrade d q pair symbols => Sys2Proof.Machine.execPairDegrade d q pair symbols s
  | .downRetry d q => Sys2Proof.Machine.execDownRetry d q s
  | .dieOut d cause => Sys2Proof.Machine.execDieOut d cause s
  | .retirementRecordWrite => Sys2Proof.Machine.execRetirementRecordWrite s
  | .retiredRelog => Sys2Proof.Machine.execRetiredRelog s
  | .ageingSample samples others days => Sys2Proof.Machine.execAgeingSample samples others days s
  | .thermalTick junction stackTemps => Sys2Proof.Machine.execThermalTick junction stackTemps s
  | .thermalTrip => Sys2Proof.Machine.execThermalTrip s
  | .powerControlTick r => Sys2Proof.Machine.execPowerControlTick r s
  | .moduleCapEnforce => Sys2Proof.Machine.execModuleCapEnforce s
  | .smbusSnapshotRefresh junction => Sys2Proof.Machine.execSmbusSnapshotRefresh junction s
  | .smbusId => Sys2Proof.Machine.execSmbusId s
  | .smbusStatus => Sys2Proof.Machine.execSmbusStatus s
  | .smbusTemps => Sys2Proof.Machine.execSmbusTemps s
  | .smbusPower => Sys2Proof.Machine.execSmbusPower s
  | .smbusHealth => Sys2Proof.Machine.execSmbusHealth s
  | .alertStatus clear pecOk => Sys2Proof.Machine.execAlertStatus clear pecOk s
  | .alertMask write pecOk => Sys2Proof.Machine.execAlertMask write pecOk s
  | .tapIdcode d => Sys2Proof.Machine.execTapIdcode d s
  | .tapBypass d => Sys2Proof.Machine.execTapBypass d s
  | .tapExtestPulse d cells => Sys2Proof.Machine.execTapExtestPulse d cells s
  | .tapExtestTrain d cells => Sys2Proof.Machine.execTapExtestTrain d cells s
  | .doeAbort fn => Sys2Proof.Machine.execDoeAbort fn s
  | .getVersion fn => Sys2Proof.Machine.execGetVersion fn s
  | .getCapabilities fn => Sys2Proof.Machine.execGetCapabilities fn s
  | .negotiateAlgorithms fn ecdsaP384 sha384 => Sys2Proof.Machine.execNegotiateAlgorithms fn ecdsaP384 sha384 s
  | .getDigests fn => Sys2Proof.Machine.execGetDigests fn s
  | .getCertificate fn slot => Sys2Proof.Machine.execGetCertificate fn slot s
  | .challenge fn nonce => Sys2Proof.Machine.execChallenge fn nonce s
  | .getMeasurements fn index => Sys2Proof.Machine.execGetMeasurements fn index s
  | .respondIfReady fn => Sys2Proof.Machine.execRespondIfReady fn s
  | .mailboxUndefinedCommand fn code => Sys2Proof.Machine.execMailboxUndefinedCommand fn code s
  | .mailboxCompletion fn => Sys2Proof.Machine.execMailboxCompletion fn s
  | .identify fn => Sys2Proof.Machine.execIdentify fn s
  | .debugUnlock fn ownerOk vendorOk devKey => Sys2Proof.Machine.execDebugUnlock fn ownerOk vendorOk devKey s
  | .dieRecycle fn d => Sys2Proof.Machine.execDieRecycle fn d s
  | .dieRecycleTimeout d => Sys2Proof.Machine.execDieRecycleTimeout d s
  | .scrub fn k => Sys2Proof.Machine.execScrub fn k s
  | .scrubFillDone k => Sys2Proof.Machine.execScrubFillDone k s
  | .provision fn k record ownerSigOk => Sys2Proof.Machine.execProvision fn k record ownerSigOk s
  | .unwrap fn k tensor pkg => Sys2Proof.Machine.execUnwrap fn k tensor pkg s
  | .wrapExport fn k tensor host capacity => Sys2Proof.Machine.execWrapExport fn k tensor host capacity s
  | .rotateMem fn k => Sys2Proof.Machine.execRotateMem fn k s
  | .spdm fn host len => Sys2Proof.Machine.execSpdm fn host len s
  | .measLog fn k log host capacity => Sys2Proof.Machine.execMeasLog fn k log host capacity s
  | .fwStage fn img => Sys2Proof.Machine.execFwStage fn img s
  | .fwActivateScheduled fn t => Sys2Proof.Machine.execFwActivateScheduled fn t s
  | .scheduledActivation => Sys2Proof.Machine.execScheduledActivation s
  | .fwActivateHitless fn => Sys2Proof.Machine.execFwActivateHitless fn s
  | .hitlessHandover proc => Sys2Proof.Machine.execHitlessHandover proc s
  | .handoverTimeout proc => Sys2Proof.Machine.execHandoverTimeout proc s
  | .fwConfirm fn => Sys2Proof.Machine.execFwConfirm fn s
  | .fwRevert fn mode t => Sys2Proof.Machine.execFwRevert fn mode t s
  | .fwUnstage fn cls => Sys2Proof.Machine.execFwUnstage fn cls s
  | .primerStage fn img record => Sys2Proof.Machine.execPrimerStage fn img record s
  | .primerSelect fn slot => Sys2Proof.Machine.execPrimerSelect fn slot s
  | .recoveryLoad fn img device0Answers => Sys2Proof.Machine.execRecoveryLoad fn img device0Answers s
  | .doeDiscovery fn index => Sys2Proof.Machine.execDoeDiscovery fn index s
  | .guardWindowExpiry => Sys2Proof.Machine.execGuardWindowExpiry s
  | .startUpAllowed millivolts => Sys2Proof.Machine.execStartUpAllowed millivolts s
  | .tapExtest d cells => Sys2Proof.Machine.execTapExtest d cells s
  | .tapSamplePreload d cells => Sys2Proof.Machine.execTapSamplePreload d cells s
  | .tapReset => Sys2Proof.Machine.execTapReset s

end Sys2Proof.Machine
end

