-- ==== Sys2Proof/Machine/Tick.lean ====
section
/-! DEFINITION. One TCLK of module time: the count with its slew (R247, R401) and the phase timers (R47). -/

namespace Sys2Proof.Machine

/-- The tasks that own the array of a panel of a die, one entry for each panel. -/
def State.panelOwners (s : State) (d : Fin 8) : List Task :=
  s.dies[d].panels.toList.filterMap fun x => (x.owner.bind x.thread?).bind fun th => s.tileTask th.tile

/-- The PHASE of the task with the most panels, ties to the lower PHASE. -/
def topPhase (ts : List Task) : Nat :=
  let n := fun (t : Task) => (ts.filter fun x => x.h == t.h).length
  let top := (ts.map n).foldl max 0
  ((ts.filter fun t => n t == top).map fun t => t.desc.phase).foldl min 7

/-- The phase that the time of a task is charged to: the task's, and 5 for every UPDATE task (R47, R253, R269). -/
def TaskDesc.charged (d : TaskDesc) : Nat := if d.type = 5 then 5 else d.phase

/-- The phase that a die charges a TCLK to (R47): with no panel computing, that of a RELAY, EXCHANGE, UPDATE or MASK task in flight,
otherwise idle. -/
def State.phaseNow (s : State) (d : Fin 8) : Nat :=
  let own := s.panelOwners d
  if !own.isEmpty then topPhase own
  else match s.owner d with
    | none => 7
    | some k => ((s.suites[k].tasks.filter fun t => t.state == .running && t.desc.dieMask.getLsbD d && decide (3 ≤ t.desc.type) &&
        decide (t.desc.type ≤ 6)).map fun t => t.desc.charged).foldl min 7

/-- Charge one TCLK to a phase. -/
def Trowel.charge (x : Trowel) (p : Nat) : Trowel :=
  { x with phaseRun := Vector.ofFn fun (i : Fin 8) => x.phaseRun[i] + b2n (i.val == p) }

/-- The count of module time after one more TCLK edge (R247): while a correction is left, at most one count in 1,024 edges is added or
withheld. -/
def Clk.count (c : Clk) : Clk :=
  if c.slew = 0 ∨ c.edges < 1023 then { c with time := (c.time + 1) % 2 ^ 64, edges := min 1024 (c.edges + 1) }
  else if 0 < c.slew then { c with time := (c.time + 2) % 2 ^ 64, edges := 0, slew := c.slew - 1 }
  else { c with edges := 0, slew := c.slew + 1 }

/-- One TCLK passes. DESIGN CHOICE for the empty queue, log 1. -/
def State.tick (s : State) : State :=
  { s with
    clk := s.clk.count,
    dies := Vector.ofFn fun (d : Fin 8) => { s.dies[d] with trw := s.dies[d].trw.charge (s.phaseNow d) } }

end Sys2Proof.Machine
end

