-- ==== Sys2Proof/WellFormed.lean ====
section
/-! DEFINITION. Well-formed commands: operands that the outside world can present (lengths of byte strings, offsets inside a BAR). -/

namespace Sys2Proof

/-- A frame header's fields lie in the ranges of R220's layout. -/
def Frame.wf (f : Frame) : Bool :=
  f.arg.length == 8 && f.cells < 256 && f.dstCoord.length == 4 && f.srcCoord.length == 4 && f.dstDie < 256 && f.srcDie < 256 && f.hops < 256

/-- Well-formedness of a command's operands. -/
def Instr.wf : Instr → Bool
  | .taskFetch _ (.queue _ bytes) => bytes.length == 128
  | .registerWrite fn off size _ _ => (size == 1 || size == 2 || size == 4 || size == 8) && decide (off < if fn.val = 0 then 2 ^ 25 else 2 ^ 20)
  | .rwbWrite fn off _ => decide (off < if fn.val = 0 then 2 ^ 25 else 2 ^ 20)
  | .latchedReadLo fn off => decide (off < if fn.val = 0 then 2 ^ 25 else 2 ^ 20)
  | .guardedWrite off _ off2 _ _ _ => decide (off < 2 ^ 25) && decide (off2 < 2 ^ 25)
  | .relayHostIn _ _ bytes => bytes.length % 64 == 0
  | .markLoad _ _ bytes => bytes.length % 128 == 0
  | .mergeAdd _ _ _ fails => fails.all fun x => decide (x.2 ≤ 3)
  | .exchData _ _ f vals _ _ => f.wf && decide (vals.length ≤ 1024)
  | .exchCarry _ _ f carries => f.wf && decide (carries.length ≤ 1024)
  | .exchCtrl _ _ f _ => f.wf
  | .getReq _ _ f _ => f.wf
  | .frameForward _ _ f => f.wf
  | .memoryWrite _ _ _ _ _ off bytes _ _ _ _ => decide (off < 64) && decide (off + bytes.length ≤ 1024) && !bytes.isEmpty
  | .memoryRead _ _ _ _ _ lines _ _ _ _ _ _ => decide (1 ≤ lines) && decide (lines ≤ 16)
  | .link _ _ _ credits _ => credits.length == 16
  | .getRsp _ _ f _ bytes => f.wf && bytes.length % 64 == 0
  | .put _ _ f bytes => f.wf && bytes.length % 64 == 0
  | _ => true

end Sys2Proof
end

