-- ==== Sys2Proof/Safety.lean ====
section
/-! DEFINITION. What the statements call safe: the memory in its canonical form, the list of poisoned lines rising, and what no command
undoes: the queue that waits, the keys generated and the free values drawn. -/

namespace Sys2Proof

/-- The suite of a task command, whose accesses R195 confines to the suite's lines: the commands of TYPE 0x1 to 0x7 and 0x9, LOAD, and the two of a
merge row. -/
def Instr.taskSuite : Instr → Option (Fin 8)
  | .productPlain k _ | .productTurned k _ | .productSampled k _ | .skimPredict k _ | .skimFused k _ | .skimInit k _ | .skimSet k _
  | .skimSave k _ | .skimRestore k _ | .relayStore k _ | .relayStoreValues k _ | .relayOnehot k _ | .relayCopy k _ | .relayHostIn k _ _
  | .relayHostOut k _ | .relayCheck k _ | .relayTwin k _ | .exchangeAllreduce k _ | .exchangeReduceScatter k _
  | .exchangeAllgather k _ _ | .exchangeBroadcast k _ _ | .exchangeSend k _ | .exchangeRecv k _ _ | .exchangeGet k _ _
  | .exchangePut k _ _ | .exchangeNorm k _ | .exchangeDefine k _ | .updateApply k _ | .updateFreeze k _ | .updateThaw k _
  | .updateVerify k _ | .updateReplay k _ | .updateRender k _ | .maskSample k _ | .maskRank k _ | .maskBuild k _ | .topkScan k _
  | .topkProductScan k _ | .scaleInit k _ | .scaleSet k _ | .scaleSave k _ | .scaleRestore k _ | .markLoad k _ _ | .mergeAdd k _ _ _
  | .mergedRowDrain k _ _ => some k
  | _ => none

end Sys2Proof

namespace Sys2Proof.Machine

/-- A rising list of line addresses. -/
def rising : List Nat → Bool
  | a :: b :: l => decide (a < b) && rising (b :: l)
  | _ => true

/-- The memory invariant: visible memory and the bytes written to host memory are in canonical form. -/
def State.memInv (s : State) : Prop := Memory.wf s.mem = true ∧ Memory.wf s.host = true

/-- The structural invariant of the block. -/
def State.inv (s : State) : Prop := s.memInv ∧ rising s.poison = true

/-- A started task of suite `k` with the handle, TYPE and MODE of a command (R29, R34). -/
def State.Runs (s : State) (k : Fin 8) (h type mode : Nat) (t : Task) : Prop :=
  s.task? k h = some t ∧ t.state = .running ∧ t.desc.type = type ∧ t.desc.mode = mode

/-- A task of suite `k` with a handle and a run state. -/
def State.Has (s : State) (k : Fin 8) (h : Nat) (st : TaskState) (t : Task) : Prop := s.task? k h = some t ∧ t.state = st

/-- A task that runs on the panels passes its checks, keeps its stack frame and has the extremes of its grid group (R132, R180 to R183, R243). -/
def State.MayProduce (s : State) (k : Fin 8) (t : Task) (p : Prod) : Prop :=
  s.underflow k t t.desc.panelReq = false ∧ s.panelCheck k t = .ok p ∧ (s.beginProd k t p).2 = true ∧
  (s.prodStart k t p).groupReady k t.h p p.groupTiles = true

/-- The record of `n` units that a task names can be read (R195, R201). -/
def State.Readable (s : State) (k : Fin 8) (t : Task) (n : Nat) : Prop :=
  s.firstBad k (t.desc.arg 0 5) n = none ∧ ∀ u ∈ s.poison, ¬(t.desc.arg 0 5 ≤ u ∧ u < t.desc.arg 0 5 + n)

/-- A function's mailbox takes a command (R367, R368): nothing discards the write, BUSY is 0 and R368 refuses nothing. -/
def State.Accepts (s : State) (fn : Fin 9) (code : Nat) : Prop :=
  s.mbxKind fn = none ∧ (s.mailbox fn).busy = false ∧ s.mbxRefusal fn code = none

/-- The state in which a mailbox command that is taken starts its effect: BUSY is 1 and the command is latched (R367); a command that moves
bytes has a progress that the spec does not state (log entry 25). -/
def State.started (s : State) (fn : Fin 9) (code : Nat) : State :=
  ((s.mbxBegin fn (BitVec.ofNat 8 code)).modMailbox fn fun y => { y with begun := true }).mbxProgress fn code

/-- A frame that a port takes for suite `k` (R220, R231, R236, R308, R319): well formed and encrypted, for the suite of its die, from another member of a
group of it, whose pair key has the frame's epoch, with a counter that is fresh in its window `base`, and authentic. -/
def State.TakesFrame (s : State) (d : Fin 8) (f : Frame) (k : Fin 8) (p : PairKey) (base : Nat) : Prop :=
  frameMalformed f = false ∧ f.flags.getLsbD 0 = true ∧ f.dstSuite < 8 ∧ s.owner d = some k ∧ fin8 f.dstSuite = k ∧
  s.suites[k].st ≠ .scrubbing ∧ f.srcSuite = f.dstSuite ∧ s.isMember k f.srcCoord = true ∧
  s.suites[k].pairOf f.srcCoord f.srcSuite = some p ∧
  p.epochKey f.keyEpoch = some base ∧ p.fresh (base + f.srcDie % 8) (f.frameCtr.toNat % 2 ^ 60) = true ∧ f.tagOk = true

/-- The state in which a frame that is taken has its effect: its buffer space is free (R224) and its counter is seen (R220, R308). -/
def State.taken (s : State) (d : Fin 8) (q : Fin 2) (k : Fin 8) (f : Frame) (p : PairKey) (base : Nat) : State :=
  (s.modPort d q fun x => x.freed f).modSuite k fun u => u.modPair p.peer fun x => x.take (base + f.srcDie % 8) (f.frameCtr.toNat % 2 ^ 60)

/-- What blowing fuses does (R333, R338): rollback counters rise, owner slots are written one after another, and nothing else changes. -/
def Fuses.Grown (f g : Fuses) : Prop :=
  { g with rollback := f.rollback, ownerSlots := f.ownerSlots } = f ∧ (∀ i, f.rollback.getD i 0 ≤ g.rollback.getD i 0) ∧
  f.ownerSlots <+: g.ownerSlots

/-- What no task command touches: the flash, the power chain, module time, function 0's mailbox, the security
service's memory, the layout, the fitted units, the latched halves, SMBus, the TAPs, the DOE mailboxes and the locks of one power cycle. -/
def State.still (s : State) : Flash × Power × Clk × Mailbox × Sec × Vector Nat 8 × Option Primer × List (Nat × Nat × Word) × Smbus ×
    Vector Tap 8 × Vector Doe 9 × Bool × Bool :=
  (s.flash, s.power, s.clk, s.mbx, s.sec, s.layout, s.primer, s.latch, s.smbus, s.taps, s.doe, s.bscanLocked, s.unlocked)

/-- What holds between a state and one that commands' effects lead to from it: the structural invariant is kept, the waiting commands are
untouched, the counters of keys generated (R319, R320) and of free values drawn (log 6) do not fall, and fuses are only blown; in the quiet
form, which a suite's tasks have, no fuse is blown and what is still stays as it is. -/
structure Keeps (quiet : Bool) (a s : State) : Prop where
  inv : a.inv → s.inv
  pending : s.pending = a.pending
  keyGen : a.keyGen ≤ s.keyGen
  free : a.free ≤ s.free
  fuses : a.fuses.Grown s.fuses
  still : quiet = true → s.still = a.still ∧ s.fuses = a.fuses

/-- `Keeps` for what a command answers. -/
def KeepsOut (quiet : Bool) (a : State) (o : Out) : Prop := ∀ t, o = .next t → Keeps quiet a t

/-- `Keeps` for what a RELAY plan leads to, whichever way it goes. -/
def PlanKeeps (quiet : Bool) (a : State) : RelayPlan → Prop
  | .ends u => Keeps quiet a u
  | .works _ _ _ late run => (∀ u, late = some u → Keeps quiet a u) ∧ ∀ u, Keeps quiet a u → Keeps quiet a (run u)

end Sys2Proof.Machine
end

