-- ==== Sys2Proof/Certificates/Slice0/Obligations.lean ====
section
/-! DEFINITION. The statements for the provers. A statement of a command's result is an equation, so it also says that the command completes
and what it leaves as it was. -/

section

open Sys2Proof Sys2Proof.Machine

/-! ## The queue, the reset state and what every step keeps -/

/-- The row's own law: a step runs the command at the front of the queue, on the state with the rest of the queue. -/
def Obligations.StepRunsFrontCommand : Prop :=
  ∀ (c : Instr) (rest : List Instr) (s : State), step { s with pending := c :: rest } = exec c { s with pending := rest }

/-- On an empty queue one TCLK passes (log 1): module time advances by one when no correction is left (R247) and each die charges it to one of its
phases (R47); nothing else changes. -/
def Obligations.StepOnEmptyQueueIsOneTclk : Prop :=
  ∀ s : State, s.pending = [] → s.clk.slew = 0 →
    step s = .next { s with
      clk := { s.clk with time := (s.clk.time + 1) % 2 ^ 64, edges := min 1024 (s.clk.edges + 1) },
      dies := Vector.ofFn fun (d : Fin 8) => { s.dies[d] with trw := { s.dies[d].trw with
        phaseRun := Vector.ofFn fun (i : Fin 8) => s.dies[d].trw.phaseRun[i] + b2n (i.val == s.phaseNow d) } } }

/-- The state after reset has the structural invariant and an empty queue. -/
def Obligations.ResetHasInvariant : Prop :=
  State.reset.inv ∧ State.reset.pending = []

/-- Every step keeps the structural invariant: the visible memory and the bytes written to host memory keep their canonical form, and the list of
poisoned lines rises. -/
def Obligations.StepKeepsInvariant : Prop :=
  ∀ s t : State, s.inv → step s = .next t → t.inv

/-- No command's effect touches the commands that wait behind it, the counters of keys generated and of free values drawn never fall, and fuses
are only blown: rollback counters never fall (R338), owner slots are only appended (R333), and the rest never changes. -/
def Obligations.EffectsOnlyBlowFuses : Prop :=
  ∀ (c : Instr) (s t : State), exec c s = .next t →
    t.pending = s.pending ∧ s.keyGen ≤ t.keyGen ∧ s.free ≤ t.free ∧
    { t.fuses with rollback := s.fuses.rollback, ownerSlots := s.fuses.ownerSlots } = s.fuses ∧
    (∀ i, s.fuses.rollback.getD i 0 ≤ t.fuses.rollback.getD i 0) ∧ s.fuses.ownerSlots <+: t.fuses.ownerSlots

/-- What registers read at reset, where the register tables give a value (R42, R46, R48, R105, R214 to R216, R249, R250): for every die, stack,
present edge, port and panel, among them STK_CAP, which the retirement record loads at the end of stage 0x4 and which reads 0 until then (R377). -/
def Obligations.RegistersAtReset : Prop :=
  ∀ (d : Fin 8) (i : Fin 12) (q : Fin 2) (p : Fin 104),
    let r := fun (o : Nat) => State.reset.readRaw 0 (0x100000 + d.val * 0x200000 + o)
    r 0x10 = some 0x17D8 ∧ r 0x14 = some 0x40 ∧ r 0x18 = some 0xC5001000 ∧ r 0x30 = some 0x4000 ∧ r 0x34 = some 0 ∧
    r (0x80000 + i.val * 0x2000 + 0x4) = some 0 ∧ r (0x80000 + i.val * 0x2000 + 0x10) = some 0x268 ∧
    r (0x40000 + p.val * 0x400 + 0x110) = some 0x80000400 ∧ r (0xE0000 + 0x4) = some 0x268 ∧
    r (0xC0000 + q.val * 0x4000) = some 0x0C0FFC00 ∧ r (0xC0000 + q.val * 0x4000 + 0x4) = some 0xC0000001 ∧
    r (0xC0000 + q.val * 0x4000 + 0x8) = some 0x1268 ∧ r (0xC0000 + q.val * 0x4000 + 0xC) = some 0x400

/-! ## Number formats -/

/-- R62, R63, R68: a quotient q + rem/den is rounded to q or q + 1, to q where it is exact: by nearest even to the nearer, a tie to the even one;
stochastically up exactly where the draw is below the fraction in 24 bits. A code of a narrow format whose value is within QMAX converts back to
itself in every mode and under every block and tensor exponent, one conversion being counted and no saturation, underflow or invalid element; a
zero gives code 0; a magnitude above QMAX saturates in every mode and counts once. -/
def Obligations.ConversionRules : Prop :=
  (∀ (neg : Bool) (q rem den u : Nat), rem < den →
    (let n := roundQ .rne neg q rem den
     (n = q ∧ 2 * rem ≤ den ∨ n = q + 1 ∧ den ≤ 2 * rem) ∧ (2 * rem = den → n % 2 = 0)) ∧
    roundQ (.sr u) neg q rem den = q + (if u < rem * 2 ^ 24 / den then 1 else 0) ∧
    ∀ m : RMode, roundQ m neg q 0 den = q) ∧
  (∀ (f : Fmt) (m : RMode) (c : Nat) (x : Int), f.narrow = true → c < 2 ^ f.bits → (decNarrow f c).bad = none →
    (∀ n mag e, (decNarrow f c).v = .fin n mag e → dyLe mag e f.qmax 0 = true) →
    convNarrow f m ((decNarrow f c).v.shift x) x = (if (decNarrow f c).v.isZero then 0 else c, ⟨1, 0, 0, 0⟩)) ∧
  (∀ (f : Fmt) (m : RMode) (neg : Bool) (mag : Nat) (e x : Int), mag ≠ 0 → dyLe mag e f.qmax x = false →
    convNarrow f m (.fin neg mag e) x = (satCode f neg, ⟨1, 1, 0, 0⟩))

/-- Binary32 (R101, R149, R259): every pattern that is not a NaN, subnormals and negative zero among them, encodes its own value in every rounding
mode, so no binary32 value is changed by being decoded and encoded again. -/
def Obligations.Binary32RoundTrip : Prop :=
  ∀ (m : RMode) (w : Word), (f32dec w).isNan = false → f32enc m (f32dec w) = w

/-- R90, R92: adding raw partials is exact: codes of two sums in the accumulator's range give the code of their sum where that is in the range,
the mark where it is not, and a mark stays one. -/
def Obligations.RawPartialsAddExactly : Prop :=
  ∀ a b : Int, -accMax ≤ a → a ≤ accMax → -accMax ≤ b → b ≤ accMax →
    rawAdd (partRaw a) (partRaw b) = partRaw (a + b) ∧ signed 32 (partRaw a) = a ∧ rawAdd rawMark (partRaw b) = rawMark ∧
    rawAdd (partRaw a) rawMark = rawMark

/-! ## Registers and interrupts -/

/-- R358 and R359: a write of another size, unaligned or with a byte enable clear changes no register: it is recorded as kind 0 in MGT_ACC_VIOL
(kind, function and offset), counted in MGT_ACC_CNT, and vector 2 of function 0, and vector 3 of a suite function, are raised. A request to the MGT
block also breaks a pending guarded write (R363). R364: once REG_LOCK is set, the lockable registers keep their values; each write is recorded as
kind 3. An unlocked lockable register takes the value of an aligned write (R358, R364, R400, R403, R388): TCLK_CAP its low 11 bits, whose factors
then apply, PWR_CAP its low 16 bits, HLT_CTRL its implemented bits. -/
def Obligations.OddAndLockedWrites : Prop :=
  (∀ (fn : Fin 9) (off size : Nat) (be : BitVec 4) (v : Word) (s : State), ¬(size = 4 ∧ off % 4 = 0 ∧ be = 0xF) →
    let s0 := if fn.val = 0 ∧ off < 0x10000 then s.breakGuard else s
    let s1 := (s0.modMgt fun m => { m with
      accViol := BitVec.ofNat 32 (fn.val % 16 * 2 ^ 25 + off % 2 ^ 25), accCnt := m.accCnt.satAdd 1 }).raise 0 2
    exec (.registerWrite fn off size be v) s = .next (if fn.val = 0 then s1 else s1.raise fn 3)) ∧
  (∀ (off : Nat) (v : Word) (s t : State), s.mgt.lock = true → s.mgt.stage ≠ .recovery → off ∈ [0x30004, 0x40004, 0x50004] →
    exec (.registerWrite 0 off 4 0xF v) s = .next t →
    t.clk = s.clk ∧ t.power = s.power ∧ t.hlt = s.hlt ∧ t.mgt.lock = true ∧ t.mgt.accViol = BitVec.ofNat 32 (3 * 2 ^ 29 + off)) ∧
  (∀ (v : Word) (s : State), s.mgt.lock = false → s.mgt.stage ≠ .recovery →
    exec (.registerWrite 0 0x30004 4 0xF v) s = .next (({ s with clk := { s.clk with tclkCap := v &&& 0x7FF } }).applyK false) ∧
    exec (.registerWrite 0 0x40004 4 0xF v) s = .next { s with power := { s.power with cap := v &&& 0xFFFF } } ∧
    exec (.registerWrite 0 0x50004 4 0xF v) s = .next { s with hlt := { s.hlt with ctrl := v &&& 0x80FFFFFF } })

/-- R363 and R364: with no pair pending, a write to MGT_LOCK and the exact complement to MGT_LOCK_N within 256 FCLK, with no other request to the
block between them, set the lock where the value has its bit set and never clear it; the guard is free again. R363: in every other case both
writes of a guarded pair are discarded and GUARD_FAULT is recorded: a complement that does not match, another request to the block between them, a
second write to X, or a complement too late. The lock stays as it was. The pair's window ends (R363): a first write whose complement has not come
within 256 FCLK is discarded and recorded. -/
def Obligations.GuardedPairs : Prop :=
  (∀ (v : Word) (gap : Nat) (s : State), s.mgt.guard = none → gap ≤ 256 →
    exec (.guardedWrite 0x40 v 0x44 (~~~v) gap false) s = .next (s.modMgt fun m => { m with lock := m.lock || v.getLsbD 0, guard := none })) ∧
  (∀ (v w : Word) (gap : Nat) (other : Bool) (off2 : Nat) (s t : State), s.mgt.guard = none →
    (off2 = 0x40 ∨ (off2 = 0x44 ∧ (w ≠ ~~~v ∨ other = true ∨ 256 < gap))) →
    exec (.guardedWrite 0x40 v off2 w gap other) s = .next t →
    t.mgt.lock = s.mgt.lock ∧ t.mgt.guard = none ∧ t.mgt.accCnt = s.mgt.accCnt.satAdd 1 ∧
    t.mgt.accViol = BitVec.ofNat 32 (5 * 2 ^ 29 + off2)) ∧
  (∀ (t0 : Nat) (v : Word) (broken : Bool) (s : State), s.mgt.guard = some (t0, v, broken) → t0 + guardWindow < s.clk.time →
    exec .guardWindowExpiry s = .next ((s.modMgt fun m => { m with guard := none }).violation 5 0 0x40))

/-- Reading the LO half of a pair outside the MGT block latches its HI half, as the register reads at that moment (R47, R105, R411); nothing else
changes. R366: a 1 written to a cause bit of MGT_INT_STS, or of SFN_INT_STS of a present suite, clears it; causes that persist set their bits
again at once. Nothing else changes but the messages sent. -/
def Obligations.LatchedReadsAndInterruptClear : Prop :=
  (∀ (fn : Fin 9) (off : Nat) (w : Word) (s : State), latchPair fn off = true → ¬(fn.val = 0 ∧ off < 0x10000) →
    s.readRaw fn (off + 4) = some w →
    ∃ t, exec (.latchedReadLo fn off) s = .next t ∧ t.latched fn (off + 4) = w ∧ { t with latch := s.latch } = s) ∧
  (∀ (fn : Fin 9) (v : Word) (s : State),
    (fn.val = 0 → ∃ t, exec (.intStatusClear fn v) s = .next t ∧
      (∀ i : Nat, i ≠ 3 → t.mgt.intSts.getLsbD i = (s.mgt.intSts.getLsbD i && !v.getLsbD i)) ∧
      t.mgt.intSts.getLsbD 3 = ((s.mgt.intSts.getLsbD 3 && !v.getLsbD 3) || s.doe[0].ready) ∧
      { t with msix := s.msix, mgt := s.mgt } = s) ∧
    (fn.val ≠ 0 → s.sfnAbsent (fin8 (fn.val - 1)) = false → (s.readRaw fn 0x500).isSome →
      exec (.intStatusClear fn v) s = .next (s.clearInt fn v)))

/-- R362: RWB values are held from their write, with CFG_PEND set, and at the boundary all of a block's values take effect, the last one of a
register winning, and CFG_PEND clears. A stack's, an edge's and a port's register are shown, and a trowel's outside a step; nothing else changes. -/
def Obligations.BufferedWritesTakeEffectTogether : Prop :=
  ∀ (s : State) (d : Fin 8) (i : Fin 12) (e : Fin 3) (q : Fin 2) (v : Word),
    (∀ off, (s.readRaw 0 off).isSome → off = 0x100000 + d.val * 0x200000 + 0x80000 + i.val * 0x2000 + 0x10 →
      exec (.rwbWrite 0 off v) s = .next (s.modStack d i fun x => { x with pend := x.pend ++ [(0x10, v)] })) ∧
    exec (.rwbApply (.stk d i)) (s.modStack d i fun x => { x with pend := x.pend ++ [(0x10, v)] }) =
      .next (s.modStack d i fun x => { x with arb := v &&& 0xFFF, pend := [] }) ∧
    exec (.rwbApply (.d2d d e)) (s.modEdge d e fun x => { x with pend := x.pend ++ [(0x4, v)] }) =
      .next (s.modEdge d e fun x => { x with arb := v &&& 0xFFF, pend := [] }) ∧
    exec (.rwbApply (.scr d q)) (s.modPort d q fun x => { x with pend := x.pend ++ [(0x8, v)] }) =
      .next (s.modPort d q fun x => { x with arb := v &&& 0xFFFF, pend := [] }) ∧
    (s.trwWaits d = false → exec (.rwbApply (.trw d)) s = .next (s.modDie d fun x => { x with trw := x.trw.applyPend }))

/-! ## Queues, completion and the functions of a suite -/

/-- R27: a tail below 2^SIZE that leaves the queue with at most 2^SIZE − 1 entries is taken; any other is discarded, sets SFN_SQq_CTRL.ERR and
logs QUEUE_ERROR. Nothing is fetched from the queue while ERR is set; clearing ERR ends that. -/
def Obligations.DoorbellRule : Prop :=
  ∀ (k : Fin 8) (q : Fin 4) (v : Word) (s : State), s.sfnAbsent k = false →
    let x := s.suites[k].sq[q]
    let n := 2 ^ (x.size.toNat % 32)
    (v.toNat < n ∧ ringUsed n x.tail x.head + ringUsed n v.toNat x.tail ≤ n - 1 →
      exec (.sqDoorbell k q v) s = .next (s.modSuite k fun u => { u with sq := u.sq.set q { x with tail := v.toNat } })) ∧
    (¬(v.toNat < n ∧ ringUsed n x.tail x.head + ringUsed n v.toNat x.tail ≤ n - 1) →
      ∃ t, exec (.sqDoorbell k q v) s = .next t ∧ t.suites[k].sq[q] = { x with err := true } ∧
        (t.suites[k].log.recs.head?).map (·.code) = some 0x0007 ∧ t.mem = s.mem ∧ t.dies = s.dies) ∧
    (x.err = true → ∀ bytes, exec (.taskFetch k (.queue q bytes)) s = .next s) ∧
    exec (.sqErrClear k q) s = .next (s.modSuite k fun u => { u with sq := u.sq.set q { u.sq[q] with err := false } })

/-- R39: the host consumes completion records by writing the ring's head; nothing else changes. R357: a reset of function 0 touches its
configuration space (with its DOE mailbox) and its MSI-X state only; a reset of a suite function performs the suite reset, once no die of the
suite is being recycled. R357: a DMA read that is not answered ends its operation TIMEOUT: a running HOST_IN or LOAD task, function 0's mailbox
command, or a fetch, whose entry is taken from its queue as a task that completes TIMEOUT under an id that stays free (log 27). -/
def Obligations.HostWritesAndResets : Prop :=
  (∀ (k : Fin 8) (v : Word) (s : State), s.sfnAbsent k = false →
    exec (.cqHeadWrite k v) s = .next (s.modSuite k fun x => { x with cq := { x.cq with head := v.toNat } })) ∧
  (∀ (k : Fin 8) (s : State),
    exec .function0Flr s = .next { s with msix := s.msix.filter fun (m : Nat × Nat) => m.1 != 0, doe := s.doe.set 0 .reset } ∧
    (((s.suiteDies k).any fun d => s.dies[d].recycling) = false → exec (.suiteReset k) s = .next (s.suiteReset k))) ∧
  (∀ (k : Fin 8) (h : Nat) (q : Fin 4) (t : Task) (s : State),
    (s.Runs k h 3 4 t ∨ s.Runs k h 10 3 t → exec (.dmaTimeout (.task k h)) s = .next (s.stopTask k t .timeout)) ∧
    (s.mbx.busy = true → s.mbx.outcome = none →
      exec (.dmaTimeout .mailbox) s = .next { s with mbx := { s.mbx with begun := true, outcome := some (Status.timeout.code, []) } }) ∧
    ((s.coordinator k).isSome → s.suites[k].st = .running → s.suites[k].sq[q].err = false → s.suites[k].sq[q].fn.st ≠ .stopped →
      ringLen s.suites[k].sq[q].size ≠ 0 → s.suites[k].sq[q].head ≠ s.suites[k].sq[q].tail →
      ∃ u x, exec (.dmaTimeout (.fetch k q)) s = .next u ∧ u.suites[k].tasks = s.suites[k].tasks ++ [x] ∧ x.status = .timeout ∧
        x.state = .fetched ∧ x.queue = q.val ∧
        u.suites[k].sq[q].head = (s.suites[k].sq[q].head + 1) % ringLen s.suites[k].sq[q].size ∧ u.mem = s.mem ∧ u.dies = s.dies))

/-- R27, R28, R30, R52: the coordinator takes the entry at HEAD of a queue that holds one: HEAD advances by one modulo the ring, the task is
appended with its descriptor, and its status is FORMAT_ERROR where R30 rejects it, else DISABLED where its queue or its suite drains. The suite is
no longer clean; nothing else changes. R34: the running program's next task is taken from memory in its program order: PC advances by one, the
task carries the descriptor at 64 × PROGRAM + 128 × PC and no queue, and the memory is not changed. -/
def Obligations.TaskFetchRules : Prop :=
  (∀ (k : Fin 8) (q : Fin 4) (bytes : List Byte) (s : State),
    let sq := s.suites[k].sq[q]
    (s.coordinator k).isSome → (s.suites[k].st = SuiteState.running ∨ s.suites[k].st = SuiteState.draining) →
    sq.err = false → sq.fn.st ≠ RunState.stopped →
    ringLen sq.size ≠ 0 → sq.head ≠ sq.tail → bytes.length = 128 →
    exec (.taskFetch k (.queue q bytes)) s = .next (s.modSuite k fun v =>
      ({ v with sq := v.sq.set q { sq with head := (sq.head + 1) % ringLen sq.size }, clean := false }).addTask
        (newTask s.suites[k].nextH (parseTask bytes) q false
          (if taskRejected (dieMaskOf (s.suiteDies k)) bytes then .formatError
           else if sq.fn.st ≠ RunState.running ∨ s.suites[k].st ≠ SuiteState.running then .disabled else .done) s.clk.time))) ∧
  (∀ (k : Fin 8) (r : Run) (s : State),
    (s.coordinator k).isSome → (s.suites[k].st = SuiteState.running ∨ s.suites[k].st = SuiteState.draining) → s.suites[k].run = some r →
    r.steps ≠ 0 → r.ended = 0 → r.pc < r.count → s.poisonIn (64 * r.prog + 128 * r.pc) 128 = false →
    ∃ t x, exec (.taskFetch k .program) s = .next t ∧ t.suites[k].tasks = s.suites[k].tasks ++ [x] ∧
      x.desc = parseTask (s.bytes (64 * r.prog + 128 * r.pc) 128) ∧ x.program = true ∧ x.state = .fetched ∧ x.h = s.suites[k].nextH ∧
      (x.status = .formatError ↔ taskRejected (dieMaskOf (s.suiteDies k)) (s.bytes (64 * r.prog + 128 * r.pc) 128) = true) ∧
      (t.suites[k].run).map (·.pc) = some (r.pc + 1) ∧ t.suites[k].sq = s.suites[k].sq ∧ t.mem = s.mem ∧ t.dies = s.dies)

/-- R28, R34, R39, R48, R53: a fetched task is dispatched in the order of its source once a completion slot is free. It reserves the slot; one that
is refused before it runs is finished with that status, any other starts at once when it may, and else waits. R37: a waiting task whose conditions
hold starts; a queue task of a suite that is no longer running completes DISABLED (R52); a task whose conditions do not hold goes on waiting. R39:
while the completion ring is full no task of the suite is dispatched, and a PLAIN product that runs has its whole effect. -/
def Obligations.TaskDispatchAndSync : Prop :=
  (∀ (k : Fin 8) (h : Nat) (t : Task) (s : State), s.Has k h .fetched t → s.mayDispatch k t = true →
    (∀ st, s.refusal k t = some st → exec (.taskDispatch k h) s =
      .next (s.modSuite k fun u => u.dispatched { t with reserved := true, state := .finished, status := st })) ∧
    (s.refusal k t = none →
      let t1 : Task := { t with reserved := true, state := .waiting, waitFrom := s.clk.time }
      let s1 := s.modSuite k fun u => u.dispatched t1
      exec (.taskDispatch k h) s = .next (if s1.mayStart k t1 then s1.launch k t1 else s1))) ∧
  (∀ (k : Fin 8) (h : Nat) (t : Task) (s : State), s.Has k h .waiting t →
    (t.program = true ∨ s.suites[k].st = SuiteState.running →
      (s.mayStart k t = true → exec (.syncWaitSatisfied k h) s = .next (s.launch k t)) ∧
      (s.mayStart k t = false → exec (.syncWaitSatisfied k h) s = .next s)) ∧
    (t.program = false → s.suites[k].st ≠ SuiteState.running → exec (.syncWaitSatisfied k h) s = .next (s.refuseTask k h .disabled))) ∧
  (∀ (k : Fin 8) (h : Nat) (t : Task) (s : State), s.suites[k].cq.room = false →
    exec (.taskDispatch k h) s = .next s ∧
    (s.Runs k h 1 0 t → exec (.productPlain k h) s = .next (s.merge k ((s.view k).runProduct k t))))

/-- R37 to R40, R89, R177, R184: completing a finished task poisons an ABORTED task's outputs, logs the elements that saturated, counts its paired
groups, marks what it did to the slots, applies its signal once, drops its tiles and extremes, removes it, releases its completion slot and its
stack frame, and writes its record where one is required. R37 and R38: when a task completes that holds its slot, its handle is gone from its suite,
SIGNAL_INC has been added to its SIGNAL_CTR whatever its status, and no other counter has changed; its record, where one is required, stands at the
ring's tail in host memory, the tail has advanced by one modulo the ring, and nothing else in host memory has changed. -/
def Obligations.TaskCompletion : Prop :=
  (∀ (k : Fin 8) (h : Nat) (t : Task) (s : State), s.Has k h .finished t →
    (t.reserved = true ∨ t.needsRecord = false ∨ s.suites[k].cq.room = true) →
    let s1 := ((if t.status = .aborted then s.poisonOutputs k t else s).closeSat k h).countPairs t
    let s3 := (((s1.slotTouch k t).signal k t.desc).dropTiles k h).modSuite k fun u =>
      { u with tasks := u.tasks.filter fun x => x.h != h, ast := u.ast.release h, extremes := u.extremes.filter fun x => x.h != h,
               cq := { u.cq with reserved := u.cq.reserved - b2n t.reserved } }
    exec (.taskComplete k h) s = .next (if t.needsRecord then s3.writeRecord k t else s3)) ∧
  (∀ (k : Fin 8) (h : Nat) (t : Task) (s : State), s.Has k h .finished t → t.reserved = true →
    let c := s.suites[k].cq
    ∃ u, exec (.taskComplete k h) s = .next u ∧ u.task? k h = none ∧
      u.suites[k].ctrs = (if t.desc.signalCtr < 1024 then
        sput 0 s.suites[k].ctrs t.desc.signalCtr (s.suites[k].ctr t.desc.signalCtr + t.desc.signalInc) else s.suites[k].ctrs) ∧
      (t.needsRecord = true → u.host = memPut s.host (c.base.toNat / 16 * 16 + 16 * c.tail) (completionRecord t c.wraps s.clk.time) ∧
        u.suites[k].cq.tail = (c.tail + 1) % ringLen c.size) ∧
      (t.needsRecord = false → u.host = s.host ∧ u.suites[k].cq.tail = c.tail) ∧ u.clk = s.clk)

/-- R46: a wait longer than LIMIT × 16,384 TCLK logs one WATCHDOG event with the task, what it waits on and how long; with ACTION = 1 the task
also completes TIMEOUT. A task whose own shorter TIMEOUT has passed completes TIMEOUT, and an EXCHANGE as R242 says. -/
def Obligations.WatchdogAndTimeout : Prop :=
  ∀ (k : Fin 8) (h id : Nat) (t : Task) (s : State), s.task? k h = some t →
    let w := s.dies[t.die0].trw.wdog
    let logged := (s.modTask k h fun x => { x with wdLogged := true }).suiteEvent k 0x0005 t.die0 0
      (pack [(4, t.desc.taskId), (2, id), (2, 0), (8, s.clk.time - t.waitFrom)])
    (s.waitsOn k t = some id → w.toNat % 2 ^ 24 ≠ 0 → t.wdLogged = false → t.waitFrom + 16384 * (w.toNat % 2 ^ 24) < s.clk.time →
      ¬(t.desc.timeout ≠ 0 ∧ t.desc.timeout < w.toNat % 2 ^ 24) →
      exec (.watchdog k h) s = .next (if w.getLsbD 31 then logged.timeOut k t else logged)) ∧
    (t.desc.timeout ≠ 0 → t.waitFrom + 16384 * t.desc.timeout < s.clk.time →
      (t.state = .running → t.desc.type = 4 → exec (.taskTimeout k h) s = .next (s.exchangeTimeout k t)) ∧
      (¬(t.state = .running ∧ t.desc.type = 4) → s.waitsOn k t = some id → exec (.taskTimeout k h) s = .next (s.timeOut k t)))

/-- R45: an arrival of a die of the mask marks it and adds one to the barrier; the count of the first arrival stands, and an arrival beyond it
completes FORMAT_ERROR. R33, R34, R37, R412: RUN of a loaded, untouched program starts it at its first task with the sync counters reset and its
tensor set formed; a RUN of no steps is DONE at once, one of a program that is not loaded or has been written is ACCESS_DENIED, and a RUN inside a
program is FORMAT_ERROR (log 18). R35 and R189: STEP_END marks the dies that have reached it and is DONE when every die of its mask in service has;
a CHECKPOINT of a queue records its id and is DONE with one CHECKPOINT event, or FORMAT_ERROR beyond 256 ids. -/
def Obligations.BarriersRunsAndSteps : Prop :=
  (∀ (k d : Fin 8) (h : Nat) (t : Task) (s : State), s.Has k h .running t → t.desc.type = 8 →
    t.desc.dieMask.getLsbD d → t.arrived.getLsbD d = false → s.dies[d].inService = true →
    let b := s.suites[k].barrier? (t.desc.arg 0 2)
    let count := if b.1 = 0 then t.desc.arg 4 4 else b.1
    let s1 := (s.modTask k h fun x => { x with arrived := x.arrived ||| (1 <<< d.val) }).modSuite k fun u =>
      u.setBarrier (t.desc.arg 0 2) count (b.2 + 1)
    exec (.barrier k h d) s = .next ((if count < b.2 + 1 then s1.worsen k h .formatError else s1).barrierDone k (t.desc.arg 0 2))) ∧
  (∀ (k : Fin 8) (h : Nat) (t : Task) (s : State), s.Runs k h 10 0 t → s.suites[k].run = none →
    let prog := t.desc.arg 0 5
    let count := t.desc.arg 5 4
    let loaded := s.suites[k].programs.any fun p => p.addr == prog && p.count == count && p.intact
    let s1 := s.modSuite k fun v =>
      { v with ctrs := [], lastTable := some (prog, count, t.desc.arg 9 5), tensSet := (s.programTensors prog count).eraseDups }
    let s2 := s1.modSuite k fun v => { v with run := some (Run.mk h prog count (t.desc.arg 9 5) (t.desc.arg 14 4) 0 0) }
    (t.program = true → exec (.markRun k h) s = .next (s.finish k h .formatError)) ∧
    (t.program = false → loaded = false → exec (.markRun k h) s = .next (s.finish k h .accessDenied)) ∧
    (t.program = false → loaded = true → t.desc.arg 14 4 = 0 → exec (.markRun k h) s = .next (s1.finish k h .done)) ∧
    (t.program = false → loaded = true → t.desc.arg 14 4 ≠ 0 → exec (.markRun k h) s =
      .next (if s.suites[k].forceNext then s2.forceDefer k s.suites[k].step else s2))) ∧
  (∀ (k d : Fin 8) (h : Nat) (t : Task) (s : State),
    (s.Runs k h 10 1 t → t.desc.dieMask.getLsbD d →
      let a := t.arrived ||| (1 <<< d.val)
      let s1 := s.modTask k h fun x => { x with arrived := a }
      exec (.markStepEnd k h d) s =
        .next (if (maskDies t.desc.dieMask).all fun i => a.getLsbD i || !s.dies[i].inService then s1.finish k h .done else s1)) ∧
    (s.Runs k h 10 2 t →
      let id := t.desc.arg 0 4
      let seg := if t.program then (s.suites[k].recompute, s.suites[k].ckpts, t.recompute) else segmentAfter s.suites[k] t.desc false
      let s1 := s.modSuite k fun u => { u with recompute := seg.1, ckpts := seg.2.1 }
      exec (.markCheckpoint k h) s = .next (if seg.2.2 = false ∧ id ∉ seg.2.1 then s1.finish k h .formatError
        else (s1.suiteEvent k 0x145 0xFF 0
          (pack [(4, id), (4, t.desc.taskId), (1, b2n seg.2.2), (3, 0), (4, s.suites[k].step.toNat)])).finish k h .done)))

/-- R52, R54, R167, R330, R331, R365, R371, R404: a write of STOPPED makes a running function DRAINING from that time, and what its drain ends at
once is ended; at its boundary with nothing in flight it ends its drain, and when its limit has passed first the rest is cut off and logged. A write
of RUNNING enables a queue, a skim engine, an update unit or a mask unit; a suite unless it is held STOPPED; an enabled panel, reset where it leaves
STOPPED; a port, which starts. A write to a function that refuses it is discarded with its violation. -/
def Obligations.FunctionsDrainAndRun : Prop :=
  ∀ (f : FuncId) (x : FnState) (s : State), s.fnOf f = some x →
    (s.fnRefused f = none → x.st = .running →
      let s1 := (s.setFn f (x.disable s.clk.time)).drainStarts f
      exec (.disableFunction f) s = .next (if s1.drainLimit f = 0 ∧ s1.inFlight f = true then s1.drainTimeout f else s1)) ∧
    (s.fnRefused f = none → (∀ k, f ≠ .suite k) → (∀ d p, f ≠ .panel d p) → (∀ d q, f ≠ .port d q) →
      exec (.enableFunction f) s = .next (s.setFn f x.enable)) ∧
    (s.fnRefused f = none → ∀ k, f = .suite k → exec (.enableFunction f) s = .next (if x.st = .stopped ∧ s.suiteHeld k then
      s.violation 6 (fnLoc f).1 (fnLoc f).2 else s.setFn f x.enable)) ∧
    (s.fnRefused f = none → ∀ d p, f = .panel d p → exec (.enableFunction f) s = .next (
      if (s.panel d p).role ≠ .enabled then s.violation 6 (fnLoc f).1 (fnLoc f).2
      else if x.st = .stopped then s.resetPanel d p fun y => { y with fn := x.enable } else s.setFn f x.enable)) ∧
    (s.fnRefused f = none → ∀ d q, f = .port d q → exec (.enableFunction f) s = .next ((s.setFn f x.enable).startPort d q)) ∧
    (x.st = .draining → s.inFlight f = false → exec (.drainComplete f) s = .next (s.drained f)) ∧
    (x.st = .draining → s.inFlight f = true → x.since + s.drainLimit f ≤ s.clk.time →
      exec (.drainTimeout f) s = .next (s.drainTimeout f)) ∧
    (∀ kind, s.fnRefused f = some kind →
      exec (.disableFunction f) s = .next (s.violation kind (fnLoc f).1 (fnLoc f).2) ∧
      exec (.enableFunction f) s = .next (s.violation kind (fnLoc f).1 (fnLoc f).2))

/-! ## Tasks -/

/-- R130 to R147, R180 to R183, R243, R256: a started PLAIN, TURNED or SAMPLED product that passes its checks and has the extremes of its grid group
has its units run and drained into what it writes and finishes DONE, unless its status is worse already; while its values wait for an APPLY that is
not open it goes on holding them, and while its group's extremes are missing it has only reported its own. A product that its checks refuse
completes with their status, a pop at depth 0 logs AST_UNDERFLOW, and one whose frame header does not match completes FORMAT_ERROR. A full
completion ring changes none of this (R39). -/
def Obligations.ProductTasks : Prop :=
  ∀ (c : Instr) (k : Fin 8) (h mode : Nat) (t : Task) (p : Prod) (st : Status) (s : State),
    (c = .productPlain k h ∧ mode = 0) ∨ (c = .productTurned k h ∧ mode = 1) ∨ (c = .productSampled k h ∧ mode = 2) → s.Runs k h 1 mode t →
    let v := s.view k
    let r := t.desc.panelReq
    let u := v.prodStart k t p
    (v.MayProduce k t p → u.streamWaits k p = false → exec c s = .next (s.merge k ((u.prodDrain k t p).finish k t.h .done))) ∧
    (v.MayProduce k t p → u.streamWaits k p = true → exec c s = .next (s.merge k u)) ∧
    (v.underflow k t r = false → v.panelCheck k t = .ok p → (v.beginProd k t p).2 = true → u.groupReady k t.h p p.groupTiles = false →
      exec c s = .next (s.merge k u)) ∧
    (v.underflow k t r = false → v.panelCheck k t = .ok p → (v.beginProd k t p).2 = false →
      exec c s = .next (s.merge k ((v.beginProd k t p).1.finish k t.h .formatError))) ∧
    (v.underflow k t r = false → v.panelCheck k t = .error st → exec c s = .next (s.merge k (v.refuse k t (r.mode == 1) [r.a, r.mask, r.c] st))) ∧
    (v.underflow k t r = true → exec c s = .next (s.merge k ((v.suiteEvent k 0x141 0xFF 0
      (pack [(4, t.desc.taskId), (8, 0), (4, v.suites[k].step.toNat)])).finish k t.h .formatError)))

/-- R150 to R157, R164, R168: a started PREDICT that passes its checks writes its map and finishes DONE; a FUSED one then drains its product with
the map that stands; each binds its map to its slot first. The parts of dies whose skim controller does not run complete DISABLED, all parts where
none runs, and a task that finds no room for its binding BUSY. INIT writes the fields of each slot of its range and clears every count; SET writes
FLAGS and MARGIN; SAVE copies the slots to its area; RESTORE copies them back when every saved slot is in range; each then finishes DONE, an empty
range without effect and a range beyond the slots FORMAT_ERROR. -/
def Obligations.SkimTasks : Prop :=
  (∀ (k : Fin 8) (h : Nat) (t t' : Task) (p : Prod) (s : State),
    let v := s.view k
    let u := v.prodStart k t p
    let dies := maskDies t.desc.dieMask
    let on := dies.filter fun d => v.dies[d].skm.fn.st == .running
    let s1 := (u.modSuite k fun x => x.bind p.r.map (t.desc.arg 10 2)).skimPass k t p
    let s2 := if on.length < dies.length then s1.worsen k t.h .disabled else s1
    (s.Runs k h 2 0 t → on ≠ [] → v.MayProduce k t p → p.r.predict = true → u.suites[k].bindFull p.r.map = false →
      exec (.skimPredict k h) s = .next (s.merge k ((s2.closeSat k t.h).finish k t.h .done))) ∧
    (s.Runs k h 2 1 t → on ≠ [] → v.MayProduce k t p → p.r.predict = false → u.suites[k].bindFull p.r.map = false → s2.task? k t.h = some t' →
      exec (.skimFused k h) s = .next (s.merge k ((s2.prodDrain k t' p).finish k t.h .done))) ∧
    (on ≠ [] → v.MayProduce k t p → u.suites[k].bindFull p.r.map = true →
      (s.Runs k h 2 0 t → exec (.skimPredict k h) s = .next (s.merge k (u.finish k t.h .busy))) ∧
      (s.Runs k h 2 1 t → exec (.skimFused k h) s = .next (s.merge k (u.finish k t.h .busy)))) ∧
    (on = [] → (s.Runs k h 2 0 t → exec (.skimPredict k h) s = .next (s.merge k (v.finish k t.h .disabled))) ∧
      (s.Runs k h 2 1 t → exec (.skimFused k h) s = .next (s.merge k (v.finish k t.h .disabled))))) ∧
  (∀ (k : Fin 8) (h : Nat) (t : Task) (s : State),
    let v := s.view k
    let d := t.desc
    let first := d.arg 0 2
    let at_ := v.suites[k].skimAddr
    let area := d.arg 4 5
    let head := leBytes 1 (d.arg 4 1) ++ leBytes 1 (d.arg 5 1) ++ leBytes 1 (d.arg 6 1) ++ leBytes 1 (d.arg 7 1) ++ leBytes 2 (d.arg 8 2) ++
      leBytes 2 (d.arg 10 2)
    let okInit := skimSlotOk (head ++ List.replicate 120 0)
    let okSet := decide (d.arg 4 1 < 4) && decide (d.arg 5 1 < 16)
    let okSaved := v.savedOk (64 * area) (d.arg 2 2) skimSlotOk
    let out := fun (u : State) => (Host.Outcome.next (s.merge k u) : Out)
    (d.arg 2 2 ≠ 0 → first + d.arg 2 2 ≤ v.suites[k].skimSlots →
      (s.Runs k h 2 2 t → okInit = true → exec (.skimInit k h) s = out (v.slotsRun k t at_ none fun u a i =>
        ((u.write a head).write (a + 0x10) (List.replicate 0x5C 0)).knownSkim k (first + i))) ∧
      (s.Runs k h 2 3 t → okSet = true → exec (.skimSet k h) s = out (v.slotsRun k t at_ none fun u a i =>
        (u.write a (leBytes 1 (d.arg 4 1) ++ leBytes 1 (d.arg 5 1))).respoilSkim k (first + i))) ∧
      (s.Runs k h 2 4 t → exec (.skimSave k h) s = out (v.slotsRun k t at_ (some area) fun u a i => u.write (64 * area + 128 * i) (v.bytes a 128))) ∧
      (s.Runs k h 2 5 t → okSaved = true → exec (.skimRestore k h) s = out (v.slotsRun k t at_ (some area) fun u a i =>
        (u.write a (v.bytes (64 * area + 128 * i) 128)).knownSkim k (first + i)))) ∧
    (d.arg 2 2 ≠ 0 → v.suites[k].skimSlots < first + d.arg 2 2 →
      (s.Runs k h 2 2 t → exec (.skimInit k h) s = out (v.finish k t.h .formatError)) ∧
      (s.Runs k h 2 3 t → exec (.skimSet k h) s = out (v.finish k t.h .formatError)) ∧
      (s.Runs k h 2 4 t → exec (.skimSave k h) s = out (v.finish k t.h .formatError)) ∧
      (s.Runs k h 2 5 t → exec (.skimRestore k h) s = out (v.finish k t.h .formatError))) ∧
    (d.arg 2 2 = 0 →
      (s.Runs k h 2 2 t → okInit = true → exec (.skimInit k h) s = out (v.finish k t.h .done)) ∧
      (s.Runs k h 2 3 t → okSet = true → exec (.skimSet k h) s = out (v.finish k t.h .done)) ∧
      (s.Runs k h 2 4 t → exec (.skimSave k h) s = out (v.finish k t.h .done)) ∧
      (s.Runs k h 2 5 t → okSaved = true → exec (.skimRestore k h) s = out (v.finish k t.h .done))))

/-- R33, R72, R79, R310: SCALE INIT over a range of scale slots writes an empty history, the fields and zero counts; SET writes SCALE; SAVE copies
the slots to its area and RESTORE copies them back when every saved slot is in range; each then finishes DONE, an empty range without effect and a
range beyond the slots FORMAT_ERROR, and so does a value out of its range. LOAD into lines of the suite places the program that the DMA brought,
measures it into the program log, and finishes DONE; into any other line it is ACCESS_DENIED and logged. -/
def Obligations.ScaleTasksAndLoad : Prop :=
  (∀ (k : Fin 8) (h : Nat) (t : Task) (s : State),
    let v := s.view k
    let d := t.desc
    let first := d.arg 0 2
    let at_ := v.suites[k].slotAddr
    let area := d.arg 4 5
    let okInit := d.arg 4 1 != 128 && decide (1 ≤ d.arg 6 1) && decide (d.arg 6 1 ≤ 16) && decide (1 ≤ d.arg 7 1) && decide (d.arg 7 1 ≤ 8) &&
      headroomOk (d.arg 8 2) && decide (1 ≤ d.arg 14 1)
    let okSaved := v.savedOk (64 * area) (d.arg 2 2) scaleSlotOk
    let out := fun (u : State) => (Host.Outcome.next (s.merge k u) : Out)
    (d.arg 2 2 ≠ 0 → first + d.arg 2 2 ≤ v.suites[k].slots →
      (s.Runs k h 9 0 t → okInit = true → exec (.scaleInit k h) s = out (v.slotsRun k t at_ none fun u a i =>
        ((u.write a (emptyHist ++ leBytes 1 (d.arg 4 1) ++ leBytes 1 (d.arg 5 1 % 8) ++ leBytes 1 (d.arg 6 1) ++ leBytes 1 (d.arg 7 1) ++
          leBytes 2 (d.arg 8 2) ++ leBytes 2 (d.arg 10 2) ++ leBytes 2 (d.arg 12 2) ++ leBytes 1 (d.arg 14 1) ++ [0])).write (a + 0x40)
          (List.replicate 64 0)).knownScale k (first + i))) ∧
      (s.Runs k h 9 1 t → d.arg 4 1 ≠ 128 → exec (.scaleSet k h) s = out (v.slotsRun k t at_ none fun u a i =>
        (u.write (a + 0x30) (leBytes 1 (d.arg 4 1))).respoilScale k (first + i))) ∧
      (s.Runs k h 9 2 t → exec (.scaleSave k h) s = out (v.slotsRun k t at_ (some area) fun u a i => u.write (64 * area + 128 * i) (v.bytes a 128))) ∧
      (s.Runs k h 9 3 t → okSaved = true → exec (.scaleRestore k h) s = out (v.slotsRun k t at_ (some area) fun u a i =>
        (u.write a (v.bytes (64 * area + 128 * i) 128)).knownScale k (first + i)))) ∧
    (d.arg 2 2 ≠ 0 → v.suites[k].slots < first + d.arg 2 2 →
      (s.Runs k h 9 0 t → exec (.scaleInit k h) s = out (v.finish k t.h .formatError)) ∧
      (s.Runs k h 9 1 t → exec (.scaleSet k h) s = out (v.finish k t.h .formatError)) ∧
      (s.Runs k h 9 2 t → exec (.scaleSave k h) s = out (v.finish k t.h .formatError)) ∧
      (s.Runs k h 9 3 t → exec (.scaleRestore k h) s = out (v.finish k t.h .formatError))) ∧
    (s.Runs k h 9 0 t → okInit = false → exec (.scaleInit k h) s = out (v.finish k t.h .formatError)) ∧
    (s.Runs k h 9 1 t → d.arg 4 1 = 128 → exec (.scaleSet k h) s = out (v.finish k t.h .formatError)) ∧
    (s.Runs k h 9 3 t → okSaved = false → exec (.scaleRestore k h) s = out (v.finish k t.h .formatError)) ∧
    (d.arg 2 2 = 0 →
      (s.Runs k h 9 0 t → okInit = true → exec (.scaleInit k h) s = out (v.finish k t.h .done)) ∧
      (s.Runs k h 9 1 t → d.arg 4 1 ≠ 128 → exec (.scaleSet k h) s = out (v.finish k t.h .done)) ∧
      (s.Runs k h 9 2 t → exec (.scaleSave k h) s = out (v.finish k t.h .done)) ∧
      (s.Runs k h 9 3 t → okSaved = true → exec (.scaleRestore k h) s = out (v.finish k t.h .done)))) ∧
  (∀ (k : Fin 8) (h : Nat) (bytes : List Byte) (t : Task) (s : State), s.Runs k h 10 3 t →
    let v := s.view k
    let prog := t.desc.arg 8 5
    let count := t.desc.arg 13 4
    let bs := (bytes ++ List.replicate (128 * count - bytes.length) 0).take (128 * count)
    let entry := Config.sha384 bs ++ leBytes 4 count
    (v.regionOk k prog (2 * count) = true → exec (.markLoad k h bytes) s = .next (s.merge k (((v.rawWrite (64 * prog)
      (v.keepFlags (64 * prog) bs)).modSuite k fun u => { u with
        programs := { addr := prog, count := count, digest := Config.sha384 bs, intact := true } ::
          u.programs.filter fun p => !(p.addr == prog && p.count == count)
        progLog := chain u.progLog entry, progEntries := u.progEntries ++ [entry] }).finish k t.h .done))) ∧
    (v.regionOk k prog (2 * count) = false → exec (.markLoad k h bytes) s = .next (s.merge k
      ((v.taskMemError k t ((v.firstBad k prog (2 * count)).getD prog) 2 2).finish k t.h .accessDenied))))

/-- R103, R104, R281 to R298: a started MASK task whose record can be read and passes its checks does its work in a step of change and is DONE with
no work in any other: SAMPLE writes the raw rows of its product, RANK the candidates of each scheduled row, BUILD the next epoch with its binding
propagated. A task that the checks refuse completes with their status. TOPK SCAN with a source, values and positions that fit writes the entries of
largest magnitude of each segment; PRODUCT_SCAN those of each row of its checked product. -/
def Obligations.MaskAndScanTasks : Prop :=
  (∀ (k : Fin 8) (h : Nat) (t : Task) (c : MaskCtx) (e : Status) (dz x out gt : Tensor) (b : State) (s : State),
    let v := s.view k
    v.Readable k t 2 →
    (v.maskCheck k t = .ok c → c.change = true →
      (s.Runs k h 6 0 t → v.tensor? k (t.desc.tensor 1) = some dz → v.tensor? k (t.desc.tensor 2) = some x → v.tensor? k (t.desc.tensor 3) = some out →
        v.sampleOk k c dz x = true → exec (.maskSample k h) s = .next (s.merge k (v.sampleRun k t c dz x out))) ∧
      (s.Runs k h 6 1 t → v.tensor? k (t.desc.tensor 3) = some gt → exec (.maskRank k h) s = .next (s.merge k (v.rankRun k t c gt))) ∧
      (s.Runs k h 6 2 t → ¬(v.dies[c.d].msk.fn.st = .stopped ∨ (v.dies[c.d].msk.fn.st = .draining ∧ v.dies[c.d].msk.fn.since < t.waitFrom)) →
        (c.r.sandOnly = true ∨ (c.r.state = 1 ∧ c.r.candStep = c.t)) →
        (∀ g < c.m.nBlocks c.st, v.tagOf c.m g = c.t % 2 ^ 24) → ((v.builtNow k).filter fun y => y.addr != c.r.unit).length < 256 →
        v.bindTo k ((v.maskLive k c).map fun y => (y.1, y.2.1)) c.r.alts [] = some b →
        exec (.maskBuild k h) s = .next (s.merge k ((b.noteBuild k t.h c.r.unit c.t).buildEpoch k t c)))) ∧
    (v.maskCheck k t = .ok c → c.change = false →
      (s.Runs k h 6 0 t → exec (.maskSample k h) s = .next (s.merge k (v.finish k t.h .done))) ∧
      (s.Runs k h 6 1 t → exec (.maskRank k h) s = .next (s.merge k (v.finish k t.h .done))) ∧
      (s.Runs k h 6 2 t → exec (.maskBuild k h) s = .next (s.merge k (v.finish k t.h .done)))) ∧
    (v.maskCheck k t = .error e →
      (s.Runs k h 6 0 t → exec (.maskSample k h) s = .next (s.merge k (v.updRefuse k t e))) ∧
      (s.Runs k h 6 1 t → exec (.maskRank k h) s = .next (s.merge k (v.updRefuse k t e))) ∧
      (s.Runs k h 6 2 t → exec (.maskBuild k h) s = .next (s.merge k (v.updRefuse k t e))))) ∧
  (∀ (k : Fin 8) (h : Nat) (t : Task) (src x y : Tensor) (st : Struct) (p : Prod) (s : State),
    let v := s.view k
    let seg := t.desc.arg 0 4
    let n := t.desc.arg 4 2
    (s.Runs k h 7 0 t → v.tensor? k (t.desc.tensor 0) = some src → v.tensor? k (t.desc.tensor 1) = some x → v.tensor? k (t.desc.tensor 2) = some y →
      v.opStruct k src = .ok st → 1 ≤ n → n ≤ 256 → 1 ≤ seg → seg ≤ 2 ^ 24 → src.elems % seg = 0 → topOutOk x y (src.elems / seg * n) = true →
      exec (.topkScan k h) s = .next (s.merge k (v.scanRun k t src x y st))) ∧
    (let u := v.prodStart k t p
     s.Runs k h 7 1 t → v.MayProduce k t p → u.tensor? k (t.desc.tensor 6) = some x → u.tensor? k (t.desc.tensor 7) = some y →
      exec (.topkProductScan k h) s = .next (s.merge k (u.productTop k t p x y))))

/-- R118 to R128, R195, R316, R317: a started RELAY task whose plan is to work, with every region in the suite's memory, none it reads meeting one
it writes, and room for its binding, does its work on the state with the binding propagated; where no other task uses what it writes (R122), that is
all it does. A plan that ends, an overlap, a foreign region and a binding without room complete with their status. HOST_IN writes the image's pieces
into the destination's regions, and HOST_OUT the source's regions into host memory, zeros for poisoned lines, where nothing is bound; CHECK logs the
structures and the twin lists that fail, and finishes. -/
def Obligations.RelayTasks : Prop :=
  (∀ (c : Instr) (k : Fin 8) (h mode : Nat) (bytes : List Byte) (t : Task) (plan : RelayPlan) (dst : Tensor) (rs ws : List (Nat × Nat))
    (late : Option State) (run : State → State) (u b : State) (s : State), s.Runs k h 3 mode t →
    let v := s.view k
    (c = .relayStore k h ∧ mode = 0 ∧ plan = v.storePlan k t) ∨ (c = .relayStoreValues k h ∧ mode = 1 ∧ plan = v.valuesPlan k t) ∨
    (c = .relayOnehot k h ∧ mode = 2 ∧ plan = v.onehotPlan k t) ∨ (c = .relayCopy k h ∧ mode = 3 ∧ plan = v.copyPlan k t) ∨
    (c = .relayHostIn k h bytes ∧ mode = 4 ∧ plan = v.hostInPlan k t bytes) ∨ (c = .relayHostOut k h ∧ mode = 5 ∧ plan = v.hostOutPlan k t) ∨
    (c = .relayTwin k h ∧ mode = 7 ∧ plan = v.twinPlan k t) →
    (plan = .ends u → exec c s = .next (s.merge k u)) ∧
    (plan = .works dst rs ws late run →
      ((rs ++ ws).all fun r => v.regionOk k r.1 r.2) = true →
      (anyMeet rs ws = true → exec c s = .next (s.merge k (v.relayDone k t .overlap))) ∧
      (anyMeet rs ws = false → v.bindTo k rs ws [dst] = none → exec c s = .next (s.merge k ((v.boundRefused k t dst.id 2).relayDone k t .accessDenied))) ∧
      (anyMeet rs ws = false → v.bindTo k rs ws [dst] = some b →
        exec c s = .next (s.merge k (v.afterBuild (late.getD (run b)) k t ws)) ∧
        (late = none → v.intruders k t ws = [] → t.logged.contains (0xA2, 0) = false → exec c s = .next (s.merge k (run b))))) ∧
    (plan = .works dst rs ws late run → ∀ r, (rs ++ ws).find? (fun r => !v.regionOk k r.1 r.2) = some r →
      exec c s = .next (s.merge k ((v.taskMemError k t ((v.firstBad k r.1 r.2).getD r.1) 2 2).relayDone k t .accessDenied)))) ∧
  (∀ (k : Fin 8) (h : Nat) (bytes : List Byte) (t : Task) (x : Tensor) (st : Struct) (ls : List TwinList) (b : State) (s : State),
    let v := s.view k
    let rs := hostRegions x t.desc
    let us := rs.map fun r => (r.1, r.2.1)
    (s.Runs k h 3 4 t → v.tensor? k (t.desc.tensor 1) = some x → x.bound = false → v.suites[k].boundSet us = none →
      (us.all fun r => v.regionOk k r.1 r.2) = true → v.bindTo k [] us [x] = some b → v.intruders k t us = [] → t.logged.contains (0xA2, 0) = false →
      exec (.relayHostIn k h bytes) s = .next (s.merge k ((rs.foldl (fun w r =>
        let bs := (bytes.drop (64 * r.2.2)).take (64 * r.2.1)
        w.write (64 * r.1) (bs ++ List.replicate (64 * r.2.1 - bs.length) 0)) b).relayDone k t .done))) ∧
    (s.Runs k h 3 5 t → v.tensor? k (t.desc.tensor 0) = some x → x.bound = false → v.suites[k].boundSet us = none →
      (us.all fun r => v.regionOk k r.1 r.2) = true → v.bindTo k us [] [x] = some b → v.poisonOf us = none → t.logged.contains (0xA2, 0) = false →
      exec (.relayHostOut k h) s = .next (s.merge k ((rs.foldl (fun w r => (List.range r.2.1).foldl (fun z i => z.hostWrite
        (t.desc.arg 0 8 + 64 * (r.2.2 + i)) (if v.poisoned (r.1 + i) then List.replicate 64 0 else v.bytes (64 * (r.1 + i)) 64)) w) b).relayDone k t .done))) ∧
    (s.Runs k h 3 6 t → v.tensor? k (t.desc.tensor 0) = some x → v.struct k x = .ok st →
      (if x.layout = .st ∧ x.hasTwin then v.twin k x st else .ok []) = .ok ls →
      let lists := (ls.filter fun l => !l.ok st.strips).length
      let s1 := if st.bad = 0 then v else v.formatEvent k t x.id x.layout.badKind 0 st.bad
      let s2 := if lists = 0 then s1 else s1.formatEvent k t x.id 6 0 lists
      exec (.relayCheck k h) s = .next (s.merge k ((s2.reportAccess k t
        (if x.layout = .d then none else v.poisonOf ((v.regions x st).drop 1 |>.take 2)) none).relayDone k t .done))))

/-- R231, R238 to R245, R255, R316, R317: a started EXCHANGE of a defined group, with its tensors, its regions and room for its binding. ALLREDUCE
and REDUCE_SCATTER complete with their totals once these have come, all chunks sent are acknowledged and an APPLY that takes them is open, and wait
until then. ALLGATHER, and BROADCAST at its root, send this member's region where it may leave and write the data here; BROADCAST elsewhere and RECV
write the bytes that came; SEND and PUT send a region to PEER, a member; GET completes when all its lines have come; NORM hands over the exact sum
of the accumulators, which it clears, once every other member's has come; DEFINE defines its group. Each finishes DONE unless its status is
worse. -/
def Obligations.ExchangeTasks : Prop :=
  (∀ (c : Instr) (k : Fin 8) (h mode : Nat) (all : Bool) (t : Task) (g : Group) (r : Reduce) (src dst : Tensor)
    (ts : List (Nat × Option (Fin 8) × Total)) (b : State) (s : State), s.Runs k h 4 mode t →
    (c = .exchangeAllreduce k h ∧ mode = 0 ∧ all = true) ∨ (c = .exchangeReduceScatter k h ∧ mode = 1 ∧ all = false) →
    let v := s.view k
    let upd := bitOf (t.desc.arg 2 1) 1
    v.suites[k].group? (t.desc.arg 0 2) = some g → v.reduceOf k t = some r → v.tensor? k (t.desc.tensor 0) = some src →
    v.tensor? k (t.desc.tensor 1) = some dst → v.exchDstOk k upd src dst = true →
    (v.totals k r all = none → exec c s = .next (s.merge k v)) ∧
    (v.totals k r all = some ts → t.allAcked = false → exec c s = .next (s.merge k v)) ∧
    (v.totals k r all = some ts → t.allAcked = true → (upd = true → ∀ d i, homeOf dst.base = some (d, i) → v.mustWait d i k dst.id = false) →
      v.bindTo k src.rawRegions (v.exchBound upd dst) (if upd then [] else [dst]) = some b →
      exec c s = .next (s.merge k (b.reduceDone v k t g r src dst ts)))) ∧
  (∀ (k : Fin 8) (h : Nat) (members : List (List Byte)) (bytes : List Byte) (t : Task) (g : Group) (src dst : Tensor) (r w : Nat × Nat) (root : List Nat)
    (b : State) (s : State),
    let v := s.view k
    let self := (v.memberCoords g).idxOf v.ownCoord
    let out := fun (u : State) => (Host.Outcome.next (s.merge k u) : Out)
    v.suites[k].group? (t.desc.arg 0 2) = some g →
    (s.Runs k h 4 2 t → v.tensor? k (t.desc.tensor 0) = some src → v.tensor? k (t.desc.tensor 1) = some dst → v.baseRegion k src = some r →
      v.baseRegion k dst = some w → (v.gathered g r members).length ≤ 64 * w.2 → v.bindTo k [r] [w] [dst] = some b →
      b.leaveOk k r (v.others g) = true → exec (.exchangeAllgather k h members) s =
        out (b.sendOff k t r (v.others g) fun u => u.copyIn v k t r w (self * r.2) (v.gathered g r members))) ∧
    (s.Runs k h 4 3 t → (v.memberCoords g)[t.desc.arg 3 1]? = some root → v.tensor? k (t.desc.tensor 1) = some dst → v.baseRegion k dst = some w →
      (root ≠ v.ownCoord → bytes.length ≤ 64 * w.2 → exec (.exchangeBroadcast k h bytes) s =
        out (((v.write (64 * w.1) bytes).reportAccess k t none (v.firstBad k w.1 w.2)).finish k t.h .done)) ∧
      (root = v.ownCoord → v.tensor? k (t.desc.tensor 0) = some src → v.baseRegion k src = some r → r.2 ≤ w.2 →
        v.bindTo k [r] [w] [dst] = some b → b.leaveOk k r (v.others g) = true → exec (.exchangeBroadcast k h bytes) s =
          out (b.sendOff k t r (v.others g) fun u => u.copyIn v k t r w 0 (v.image r)))) ∧
    (s.Runs k h 4 8 t →
      let ins := v.suites[k].normIn.filter fun x => x.1 == g.id
      let ds := maskDies g.dies
      let parts := ds.map (fun d => (v.dies[d].norm[k], v.dies[d].normSat[k])) ++ ins.map fun x => x.2.2
      ((v.others g).all fun c => ins.any fun x => x.2.1 == c) = true → exec (.exchangeNorm k h) s =
        out (((ds.foldl (fun u d => u.modDie d fun x => { x with norm := x.norm.set k 0, normSat := x.normSat.set k false }) v).modSuite k fun u =>
          { u with normNext := some (sumL (parts.map (·.1)), parts.any (·.2)), normIn := u.normIn.filter fun x => x.1 != g.id }).finish k t.h .done))) ∧
  (∀ (k : Fin 8) (h : Nat) (bytes : List Byte) (t : Task) (g : Group) (x : Tensor) (r : Nat × Nat) (s : State),
    let v := s.view k
    let out := fun (u : State) => (Host.Outcome.next (s.merge k u) : Out)
    v.suites[k].group? (t.desc.arg 0 2) = some g → (v.others g).contains t.desc.peer = true →
    (s.Runs k h 4 4 t → v.tensor? k (t.desc.tensor 0) = some x → v.baseRegion k x = some r → v.leaveOk k r [t.desc.peer] = true →
      exec (.exchangeSend k h) s = out (v.sendOff k t r [t.desc.peer] fun u => u)) ∧
    (s.Runs k h 4 5 t → (v.tensor? k (t.desc.tensor 1)).bind (v.baseRegion k) = some r → bytes.length ≤ 64 * r.2 →
      exec (.exchangeRecv k h bytes) s = out (((v.write (64 * r.1) bytes).reportAccess k t none (v.firstBad k r.1 r.2)).finish k t.h .done)) ∧
    (s.Runs k h 4 6 t → (v.tensor? k (t.desc.tensor 1)).bind (v.baseRegion k) = some r →
      ((∀ i < r.2, i ∈ t.got) → exec (.exchangeGet k h false) s = out ((v.reportAccess k t none (v.firstBad k r.1 r.2)).finish k t.h .done)) ∧
      exec (.exchangeGet k h true) s = out (v.finish k t.h .accessDenied)) ∧
    (s.Runs k h 4 7 t → v.tensor? k (t.desc.tensor 0) = some x → v.baseRegion k x = some r →
      (v.leaveOk k r [t.desc.peer] = true → exec (.exchangePut k h false) s = out (v.sendOff k t r [t.desc.peer] fun u => u)) ∧
      exec (.exchangePut k h true) s = out (v.finish k t.h .accessDenied))) ∧
  (∀ (k : Fin 8) (h : Nat) (t : Task) (s : State), s.Runs k h 4 9 t →
    let v := s.view k
    let id := t.desc.arg 0 2
    let dims : BitVec 4 := BitVec.ofNat 4 (t.desc.arg 20 1)
    let ds : BitVec 8 := BitVec.ofNat 8 (t.desc.arg 21 1)
    let suite := dieMaskOf (v.suiteDies k)
    id ≤ 63 → dims &&& ~~~(dimsOf suite) = 0 → ds &&& ~~~suite = 0 → dimsOf ds &&& dims ≠ 0 → exec (.exchangeDefine k h) s =
      .next (s.merge k ((v.modSuite k fun u =>
        { u with groups := { id := id, dims := dims, dies := ds } :: u.groups.filter fun x => x.id != id }).finish k t.h .done)))

/-- R253 to R258, R269, R270, R276, R277, R316: a started APPLY, REPLAY or RENDER whose record can be read and passes its checks, on a running unit
with its binding propagated. An APPLY, of a master that no open one has, opens where fewer than 64 are open and none waits, and else waits in
dispatch order; a REPLAY that has its retained values applies them under the same condition; a RENDER renders every block and finishes. FREEZE and
THAW set the flags of their group's entries at once, or at the next boundary while a RUN is in flight. VERIFY counts and logs the blocks whose tags
and retained tags differ. A task that the checks refuse completes with their status. -/
def Obligations.UpdateTasks : Prop :=
  (∀ (k : Fin 8) (h : Nat) (t : Task) (c : UpdCtx) (r : UpdRec) (lr : Word) (e : Status) (b : State) (s : State),
    let v := s.view k
    let out := fun (u : State) => (Host.Outcome.next (s.merge k u) : Out)
    v.Readable k t 1 →
    (v.updCheck k t = .ok (c, r, lr) → (v.stack c.d c.i).upd.fn.st = .running →
      (v.bindUpdate k c (r.areas c) = some b →
        let u := (b.stack c.d c.i).upd
        (u.open? k t.h).isNone → u.waiting.contains (k.val, t.h) = false → (u.opened.any fun o => o.k == k.val && o.master == c.m.id) = false →
        (u.opened.length < 64 → u.waiting = [] →
          (s.Runs k h 5 0 t → exec (.updateApply k h) s = out (b.openApply k t c r lr)) ∧
          (s.Runs k h 5 4 t → c.m.frozen = false → b.replayShort c r (t.desc.arg 8 4) = false → exec (.updateReplay k h) s = out (b.replayRun k t c r))) ∧
        (64 ≤ u.opened.length ∨ u.waiting ≠ [] →
          let w := b.modUpd c.d c.i fun x => { x with waiting := waitIns (k.val, t.h) x.waiting }
          (s.Runs k h 5 0 t → exec (.updateApply k h) s = out w) ∧
          (s.Runs k h 5 4 t → c.m.frozen = false → exec (.updateReplay k h) s = out w))) ∧
      (v.bindUpdate k c [] = some b → s.Runs k h 5 5 t → (∀ g < c.m.nBlocks c.st, b.blockPoison c.m c.st g = false) →
        exec (.updateRender k h) s = out ((b.renderAll k c b.suites[k].step.toNat (!t.recompute)).finish k t.h .done))) ∧
    (v.updCheck k t = .error e →
      (s.Runs k h 5 0 t → exec (.updateApply k h) s = out (v.updRefuse k t e)) ∧
      (s.Runs k h 5 4 t → exec (.updateReplay k h) s = out (v.updRefuse k t e)) ∧
      (s.Runs k h 5 5 t → exec (.updateRender k h) s = out (v.updRefuse k t e)))) ∧
  (∀ (c : Instr) (k : Fin 8) (h mode : Nat) (on : Bool) (t : Task) (s : State), s.Runs k h 5 mode t →
    (c = .updateFreeze k h ∧ mode = 1 ∧ on = true) ∨ (c = .updateThaw k h ∧ mode = 2 ∧ on = false) →
    let v := s.view k
    (v.tensor? k (t.desc.tensor 0)).isSome → (∀ id ∈ [t.desc.tensor 1, t.desc.tensor 2], id = 0xFFFF ∨ (v.tensor? k id).isSome) →
    (v.suites[k].run = none → exec c s = .next (s.merge k ((v.setFrozen (v.frozenGroup k t.desc) on).finish k t.h .done))) ∧
    (v.suites[k].run.isSome → exec c s = .next (s.merge k ((v.modSuite k fun u =>
      { u with frozenPend := u.frozenPend ++ (v.frozenGroup k t.desc).map fun a => (a, on) }).finish k t.h .done)))) ∧
  (∀ (k : Fin 8) (h : Nat) (t : Task) (c : UpdCtx) (s : State), s.Runs k h 5 3 t →
    let v := s.view k
    let a := t.desc.arg 0 5
    let bs := v.bytes (64 * a) 64
    let ret := field bs 0x25 5
    let step := t.desc.arg 8 4
    let n := (v.otherTags c step).length
    let m := if a = 0 ∨ ret = 0 then 0 else ((List.range (c.m.nBlocks c.st)).filter fun g =>
      v.le (64 * ret + 64 + 4 * g) 4 / 2 ^ 31 != 1 || v.le (64 * ret + 64 + 4 * g) 4 % 2 ^ 24 != step % 2 ^ 24).length
    v.Readable k t (if a = 0 then 0 else 1) →
    (v.updCtx k t fun nr nc nb => if a = 0 then [] else
      (field bs 0x20 5, units (64 + up64 (4 * nr) + up64 (2 * nc) + 16 * nr + 16 * nc + 256 * field bs 0x2A 4)) ::
        (if ret = 0 then [] else [(ret, units (retainSize nb))])) = .ok c →
    (a ≠ 0 → crc32 (bs.take 60) = field bs 0x3C 4 ∧ (c.m.retain = true ↔ ret ≠ 0)) →
    exec (.updateVerify k h) s = .next (s.merge k (((v.verifyEvent k t c n m).modTask k t.h fun z => { z with count := min 65535 n }).finish k t.h .done)))

/-- R195: whatever a task command of suite `k` does, a line that the suite may not request keeps its bytes and its marker. -/
def Obligations.TasksLeaveForeignLinesAlone : Prop :=
  ∀ (c : Instr) (k : Fin 8) (s t : State), s.inv → c.taskSuite = some k → exec c s = .next t →
    ∀ a : Nat, s.reachable k (a / 64) = false → t.byte a = s.byte a ∧ t.poisoned (a / 64) = s.poisoned (a / 64)

/-- What no task command touches: the fuses, the flash, the power chain, module time, function 0's mailbox, the security service's memory, the
layout, the latched halves, SMBus, the TAPs, the DOE mailboxes and the locks of one power cycle. -/
def Obligations.TasksLeaveTheModuleAlone : Prop :=
  ∀ (c : Instr) (k : Fin 8) (s t : State), c.taskSuite = some k → exec c s = .next t → t.still = s.still ∧ t.fuses = s.fuses

/-- R21 to R24, R34, R35, R295: a suite whose step is over reaches its boundary 2,048 TCLK later: the boundary work is done in its order, then what
lasts one step is forgotten, the step count is one higher, and the RUN goes on with one step less or ends, DONE at its last step and DISABLED where
the suite drains (log 62). R253: a unit with fewer than 64 open updates takes the task that has waited longest; an APPLY that passes its checks
opens, and a REPLAY that has its values applies them. R256, R257: a value that arrives for a master with an open APPLY reaches it; with none open it
waits. -/
def Obligations.BoundaryAndUnits : Prop :=
  (∀ (k : Fin 8) (r : Run) (s : State), s.suites[k].run = some r → s.stepOver k r = true →
    let b := (s.clk.time + 2048) % 2 ^ 64
    let w := { s with clk := { s.clk with time := b } }.boundaryWork k (b - s.suites[k].stepStart)
    let w1 := w.modSuite k fun u => { u.clearStep w.clk.time with step := u.step + 1 }
    let w2 := w1.renderBoundary k r w1.suites[k].slotsChanged
    let w3 := if w2.suites[k].forceNext then w2.forceDefer k w2.suites[k].step else w2
    let ended := w3.modSuite k fun u => { u with run := none }
    (r.steps = 1 → exec (.stepBoundary k) s = .next (ended.finish k r.h .done)) ∧
    (r.steps ≠ 1 → w3.suites[k].st = .draining → exec (.stepBoundary k) s = .next (ended.finish k r.h .disabled)) ∧
    (r.steps ≠ 1 → w3.suites[k].st ≠ .draining → exec (.stepBoundary k) s = .next (w3.modSuite k fun u =>
      { u with run := some { r with steps := r.steps - 1, pc := if r.count ≤ r.pc then 0 else r.pc, ended := 0 } })) ∧
    ∃ u, exec (.stepBoundary k) s = .next u ∧ u.clk = { s.clk with time := b } ∧ u.power = s.power ∧ u.flash = s.flash ∧ u.sec = s.sec ∧
      u.layout = s.layout) ∧
  (∀ (d : Fin 8) (i : Fin 12) (kk h : Nat) (rest : List (Nat × Nat)) (t : Task) (c : UpdCtx) (r : UpdRec) (lr : Word) (b : State) (s : State),
    let k := fin8 kk
    let s1 := s.modUpd d i fun x => { x with waiting := rest }
    let v := s1.view k
    (s.stack d i).upd.waiting = (kk, h) :: rest → (s.stack d i).upd.opened.length < 64 → s1.Has k h .running t →
    v.updCheck k t = .ok (c, r, lr) → (v.stack c.d c.i).upd.fn.st = .running → v.bindUpdate k c (r.areas c) = some b →
    let u := (b.stack c.d c.i).upd
    (u.open? k t.h).isNone → u.waiting.contains (k.val, t.h) = false → (u.opened.any fun o => o.k == k.val && o.master == c.m.id) = false →
    (t.desc.mode ≠ 4 → exec (.applyOpen d i) s = .next (s1.merge k (b.openApply k t c r lr))) ∧
    (t.desc.mode = 4 → c.m.frozen = false → b.replayShort c r (t.desc.arg 8 4) = false →
      exec (.applyOpen d i) s = .next (s1.merge k (b.replayRun k t c r)))) ∧
  (∀ (d k : Fin 8) (i : Fin 12) (h elem : Nat) (total grid : Int) (marked : Bool) (t : Task) (o : OpenApply) (s : State),
    s.owner d = some k → s.task? k h = some t → t.desc.type = 5 → t.desc.mode = 0 → t.state ≠ .finished →
    let u := ((s.view k).stack d i).upd
    (u.applyOf k (t.desc.tensor 0) = some o → exec (.gradientArrival d i h elem total grid marked) s =
      .next (s.merge k ((s.view k).arriveAll d i k o.h [{ p := elem, s := total, g := grid, marked := marked }]))) ∧
    (u.applyOf k (t.desc.tensor 0) = none → exec (.gradientArrival d i h elem total grid marked) s = .next (s.merge k (s.view k))))

/-! ## Panels -/

/-- R42, R98, R243: the most urgent ready thread of an enabled, running panel takes the array, whose tile settles: a thread that holds a saved
context has both its banks restored when both banks are free; any other whose task opens and has the extremes of its grid group complete takes a
free bank, the first one first, with the grids and initial accumulators of its unit, and run-ahead reads of a skim start. A less urgent thread
leaves the array as it is. R42, R178: a ready thread that has waited LIMIT × 16,384 TCLK longer than its promotions account for becomes one level
more urgent, unless it is deferred and non-deferred tasks remain. -/
def Obligations.TileStartAndPromotion : Prop :=
  (∀ (d : Fin 8) (p : Fin 104) (i : Fin 64) (th : Thread) (c : UnitCtx) (s : State),
    let x := s.panel d p
    let k := fin8 th.tile.k
    let own := fun (u : State) => u.modPanel d p fun y =>
      { y with owner := some th.id, lastRun := some (th.tile.k, th.tile.h),
               threads := modFirst th.id (fun w => { w with started := true, saved := none }) y.threads }
    let s0 := s.settleOwner d p
    let s1 := (s0.openTask th.tile c).1
    let ts := if c.p.r.epi.groupEn then rowTiles c.rows else []
    let s2 := s1.merge k ((s1.view k).reportExtremes k th.tile.h c.q ts)
    let bank := s2.newBank th.tile c
    x.ready.find? (fun y => y.id == i.val) = some th → x.role = .enabled → x.fn.st = .running →
    ((x.ready.any fun y => y.id != i.val && s.before d p y th) = false →
      (∀ a b, th.saved = some (a, b) → (s0.panel d p).bankA.state = .free → (s0.panel d p).bankB.state = .free →
        exec (.tileStart d p i) s = .next (own (s0.modPanel d p fun y => { y with bankA := a, bankB := b }))) ∧
      (th.saved = none → (s0.panel d p).bankA.state = .free ∨ (s0.panel d p).bankB.state = .free → s0.unitCtx th.tile = some c →
        (s0.openTask th.tile c).2 = true → s2.groupReady k th.tile.h c.q ts = true →
        exec (.tileStart d p i) s = .next ((own (s2.modPanel d p fun y =>
          if y.bankA.state = .free then { y with bankA := bank } else { y with bankB := bank })).fetchAhead d p th.tile c))) ∧
    ((x.ready.any fun y => y.id != i.val && s.before d p y th) = true → exec (.tileStart d p i) s = .next s)) ∧
  (∀ (d : Fin 8) (p : Fin 104) (i : Fin 64) (th : Thread) (s : State),
    (s.panel d p).ready.find? (fun y => y.id == i.val) = some th →
    (th.readyAt + s.dies[d].trw.age.toNat % 2 ^ 20 * 16384 * (th.boosts + 1) < s.clk.time → s.isDeferred d th = false →
      exec (.threadAgePromotion d p i) s =
        .next (s.modPanel d p fun y => { y with threads := modFirst i (fun w => { w with boosts := w.boosts + 1 }) y.threads })) ∧
    (s.isDeferred d th = true → exec (.threadAgePromotion d p i) s = .next s))

/-- R43, R44, R99, R167: a ready thread of more urgent priority that is not deferred takes the array from its owner at the owner's next window
boundary. Both banks, as they stand there, are saved whole in the owner's thread (the cells with their sticky flags, the checker cells, the grids,
the K and drain positions), its speculative reads are cancelled, and the banks that the incoming thread saved are restored whole; one that saved
none takes its tile. A bank that does not compute is saved as it is. A deferred thread changes nothing. -/
def Obligations.ThreadPreemption : Prop :=
  (∀ (d : Fin 8) (p : Fin 104) (i : Fin 64) (th ow : Thread) (c : UnitCtx) (s : State),
    let x := s.panel d p
    let s1 := (s.cancelSpec d p fun y => y.h == ow.tile.h).modPanel d p fun y =>
      { y with owner := none, bankA := .free, bankB := .free,
               threads := modFirst ow.id (fun w => { w with saved := some (s.toBoundary c y.bankA, s.toBoundary c y.bankB),
                                                            readyAt := s.clk.time }) y.threads }
    x.owner.bind x.thread? = some ow → x.ready.find? (fun y => y.id == i.val) = some th →
    (s.isDeferred d th = true → exec (.threadPreempt d p i) s = .next s) ∧
    (s.isDeferred d th = false → (th.prio : Int) - th.boosts < (ow.prio : Int) - ow.boosts →
      (x.ready.any fun y => y.id != i.val && s.before d p y th) = false → s.unitCtx ow.tile = some c →
      (if x.bankA.tile = some ow.tile then x.bankA.boundary else x.bankB.boundary) < c.kEnd →
      (∀ a b, th.saved = some (a, b) → exec (.threadPreempt d p i) s = .next ((s1.modPanel d p fun y => { y with bankA := a, bankB := b }).modPanel d p
        fun y => { y with owner := some th.id, lastRun := some (th.tile.k, th.tile.h),
                          threads := modFirst th.id (fun w => { w with started := true, saved := none }) y.threads })) ∧
      ((s1.takeArray d p th).2 = true → exec (.threadPreempt d p i) s = .next (s1.takeArray d p th).1))) ∧
  (∀ (s : State) (c : UnitCtx) (b : Bank), b.state ≠ .computing → s.toBoundary c b = b)

/-- R96, R97, R101: a tile all of whose rows pass their check is written and its bank and thread released. With a failing row it is not written:
MISMATCH is counted and logged and the bank waits for the recompute, or the panel is retired where CHK_CTRL asks for it on a repeat; the third
failing computation writes it poisoned. A recompute that passes writes the tile; one that fails is followed, where the panel stays in service, by
one on another panel, and the tile is written poisoned when that one fails too or there is no other panel. R96: a row with a saturated element
passes unchecked. -/
def Obligations.TileDrainAndRecompute : Prop :=
  (∀ (d : Fin 8) (p : Fin 104) (us : Upsets) (r : Nat) (tl : Tile) (c : UnitCtx) (s : State),
    s.unitCtx tl = some c → (s.view (fin8 tl.k)).streamWaits (fin8 tl.k) c.p = false → (s.panel d p).drainTile = some tl →
    let b := s.settleBank ((s.panel d p).bankOf tl)
    let got := upsetCells us b.cells b.checker
    let held := (s.modPanel d p fun y => if y.bankA.tile = some tl then { y with bankA := b } else { y with bankB := b }).failUnit d p tl c r false
    (failRow got.1 got.2 = none → exec (.tileDrain d p us) s = .next (s.unitDone d p tl c got.1 false)) ∧
    (failRow got.1 got.2 = some r →
      (2 ≤ (s.panel d p).triesOf tl → exec (.tileDrain d p us) s = .next ((s.unitDone d p tl c b.cells true).failUnit d p tl c r false)) ∧
      ((s.panel d p).triesOf tl < 2 →
        (((held.panel d p).holder tl).isSome → exec (.tileDrain d p us) s = .next held) ∧
        (((held.panel d p).holder tl).isNone → exec (.tileDrain d p us) s =
          .next (held.modTask (fin8 tl.k) tl.h fun y => { y with retried := true }))))) ∧
  (∀ (d : Fin 8) (p : Fin 104) (own other : Upsets) (r r' : Nat) (q : Fin 104) (tl : Tile) (c : UnitCtx) (s : State),
    s.unitCtx tl = some c → (s.view (fin8 tl.k)).streamWaits (fin8 tl.k) c.p = false → (s.panel d p).failedTile = some tl →
    let s0 := s.modTask (fin8 tl.k) tl.h fun y => { y with retried := true }
    let b := s.settleBank (s.newBank tl c)
    let got := upsetCells own b.cells b.checker
    let got' := upsetCells other b.cells b.checker
    let s1 := s0.failUnit d p tl c r true
    (failRow got.1 got.2 = none → exec (.tileRecompute d p own other) s = .next (s0.unitDone d p tl c got.1 false)) ∧
    (failRow got.1 got.2 = some r →
      (2 ≤ (s.panel d p).triesOf tl → exec (.tileRecompute d p own other) s = .next ((s0.unitDone d p tl c b.cells true).failUnit d p tl c r true)) ∧
      ((s.panel d p).triesOf tl < 2 →
        (((s1.panel d p).holder tl).isNone → exec (.tileRecompute d p own other) s = .next s1) ∧
        (((s1.panel d p).holder tl).isSome → s1.otherPanel d p = none → exec (.tileRecompute d p own other) s =
          .next (s1.unitDone d p tl c b.cells true)) ∧
        (((s1.panel d p).holder tl).isSome → s1.otherPanel d p = some q →
          (failRow got'.1 got'.2 = none → exec (.tileRecompute d p own other) s = .next (s1.unitDone d p tl c got'.1 false)) ∧
          (failRow got'.1 got'.2 = some r' → exec (.tileRecompute d p own other) s =
            .next ((s1.unitDone d p tl c b.cells true).failUnit d q tl c r' false)))))) ∧
  (∀ (cells : List Cell) (chk : Int × Int), (cells.any fun x => x.sticky) = true → rowPasses cells chk = true)

/-- R12, R382, R385, R404: a spare whose self test passes is reset and enabled while fewer than 96 panels of its die are; one that fails is retired
and the next is tried. A single-bit error of a panel's store is corrected and counted; after a double-bit error the tiles it hits start again from
their first K position, and a second one within the window retires the panel. R49, R176: an idle enabled panel takes the last slice that no array
has started from the busiest panel of its die, all the tiles of the slice together; the task is marked, and the tiles run unpaired. -/
def Obligations.SparesStoreErrorsAndStealing : Prop :=
  (∀ (d : Fin 8) (p : Fin 104) (i : Fin 64) (ctx : Bool) (s : State),
    let x := s.panel d p
    ((s.panel d p).role = .spare → (s.panel d p).selfTest = true →
      (s.roleCount d .enabled < 96 → exec (.spareSelfTestDone d p true) s =
        .next (s.resetPanel d p fun y => { y with role := .enabled, fn := .running, selfTest := false })) ∧
      exec (.spareSelfTestDone d p false) s = .next ((s.retirePanel d p 4).startSpare d)) ∧
    exec (.panelStoreError d p i false ctx) s = .next (s.modPanel d p fun y => { y with storeCorr := sat16 y.storeCorr 1 }) ∧
    (∀ th, x.thread? i = some th →
      let hit := th.tile :: (if ctx then (match th.saved with | some (a, b) => a.tile.toList ++ b.tile.toList | none => []) else [])
      let s1 := s.modPanel d p fun y =>
        let clear := fun (b : Bank) => if !ctx && b.tile.any hit.contains then Bank.free else b
        { y with lastDouble := some s.clk.time, bankA := clear y.bankA, bankB := clear y.bankB,
                 owner := if !ctx && y.owner = some i.val then none else y.owner,
                 threads := y.threads.map fun w => if hit.contains w.tile then { w with started := false, saved := none } else w }
      let s2 := hit.foldl (fun u (z : Tile) => u.modTask (fin8 z.k) z.h fun y => { y with retried := true }) s1
      (x.lastDouble = none → exec (.panelStoreError d p i true ctx) s = .next s2) ∧
      (∀ m, x.lastDouble = some m → s.clk.time - m ≤ x.chkCtrl.toNat % 2 ^ 24 * 2 ^ 20 →
        exec (.panelStoreError d p i true ctx) s = .next (s2.retirePanel d p 2)) ∧
      (∀ m, x.lastDouble = some m → x.chkCtrl.toNat % 2 ^ 24 * 2 ^ 20 < s.clk.time - m →
        exec (.panelStoreError d p i true ctx) s = .next s2))) ∧
  (∀ (d : Fin 8) (thief v : Fin 104) (z : Thread) (s : State),
    let x := s.panel d thief
    let y := s.panel d v
    s.dies[d].trw.slice.getLsbD 31 = true → x.threads = [] → x.role = .enabled → x.fn.st = .running → s.busiest d = some v →
    (y.threads.filter fun w => !w.started && y.sliceFree w.tile.k w.tile.h w.slice).getLast? = some z →
    let mine := fun (w : Thread) => w.tile.k == z.tile.k && w.tile.h == z.tile.h && w.slice == z.slice
    let gone := (y.threads.filter mine).map (·.tile)
    exec (.sliceSteal d thief) s = .next ((((s.modPanel d v fun u => { u with threads := u.threads.filter fun w => !mine w }).modPanel d thief
      fun u => { u with threads := u.threads ++ y.threads.filter mine })).modTask (fin8 z.tile.k) z.tile.h fun w =>
        { w with stolen := true, paired := w.paired.filter fun q => !gone.contains q.2 }))

/-- R90, R92, R139, R197: the oldest raw part drained for a merge row is taken: the first part to arrive writes the row, and each later part is
added into what the row holds, whose lines are read first; an element is the exact sum, or the mark 0x80000000 where it leaves the accumulator's
range, and a line is poisoned where the part is, or where a poisoned line is added into. The marks made are charged to the part's panel. R101, R139:
once all its parts have been counted a merged row is read back and drained once through the epilogue. -/
def Obligations.MergeRows : Prop :=
  (∀ (k : Fin 8) (h row : Nat) (fails : List (Fin 4 × Nat)) (t : Task) (x : RawPart) (s : State), s.Has k h .running t →
    t.parts.find? (fun y => y.row == row) = some x →
    let u := s.view k
    let m := t.desc.arg 16 5
    let read := (List.range 4).foldl (fun v j => v.rmwRead (some h) (m + 4 * row + j) (failsOf (fails.map fun f => (f.1.val, f.2)) j) 1) u
    let rest := fun (v : State) => v.modTask k h fun y => { y with parts := y.parts.erase x }
    (t.merged.lookup row = none → exec (.mergeAdd k h row fails) s = .next (s.merge k (rest (u.addPart k h m x)))) ∧
    ((t.merged.lookup row).isSome → exec (.mergeAdd k h row fails) s = .next (s.merge k (rest (read.addPart k h m x))))) ∧
  (∀ (k : Fin 8) (h m n : Nat) (t : Task) (x : RawPart) (s : State), s.task? k h = some t → n = (t.merged.lookup x.row).getD 0 →
    let a := 64 * (m + 4 * x.row)
    let old := fun (i : Nat) => s.le (a + 4 * i) 4
    let vals := if n = 0 then x.vals else x.vals.zipIdx.map fun y => rawAdd (old y.2) y.1
    let lines := (List.range (cdiv x.vals.length 16)).filter fun i =>
      x.pois || ((n != 0 || decide (x.vals.length < 16 * i + 16)) && s.poisoned (a / 64 + i))
    let marks := if n = 0 then 0 else
      (x.vals.zipIdx.filter fun y => vals.getD y.2 0 == rawMark && y.1 != rawMark && old y.2 != rawMark).length
    s.addPart k h m x = ((lines.foldl (fun v i => v.poisonLine (a / 64 + i)) (s.write a (vals.flatMap (leBytes 4)))).modTask k h fun y =>
      { y with merged := sput 0 y.merged x.row (n + 1) }).chargeSat k h x.die x.panel marks) ∧
  (∀ (k : Fin 8) (h row : Nat) (t : Task) (p : Prod) (o : OutTile) (s : State), s.Has k h .running t →
    let u := s.view k
    u.panelCheck k t = .ok p → (u.mergeDone k h p).contains row = true → u.streamWaits k p = false → u.mergedOut u k t p row = some o →
    let u1 := (u.tilesDrain u k t p [o] [o]).modTask k h fun y => { y with mergedDone := row :: y.mergedDone }
    exec (.mergedRowDrain k h row) s = .next (s.merge k (if o.pois then u1.reportAccess k t (some (u.firstPoison p)) none else u1)))

/-! ## Memory -/

/-- R166, R200, R201, R203, R206: a demand read that finds a free entry, of lines within one 1 KiB block that the suite may request, that carry no
marker and fail no tag, changes no byte, no marker and no task. A speculative read only counts and holds an entry: it changes no byte, no marker and
nothing of a suite. R200: a line whose read fails its tag three times is poisoned; its bytes and every other marker stay. -/
def Obligations.ReadsKeepMemory : Prop :=
  (∀ (k d home : Fin 8) (i : Fin 12) (who : Option (Fin 104)) (h : Option Nat) (unit lines ecc : Nat) (cls : Fin 4) (late full : Bool)
    (fails : List (Nat × Nat)) (p : List (Nat × Nat)) (alt : Bool) (s : State),
    lines ≠ 0 → unit / 16 = (unit + lines - 1) / 16 → s.mayRequest k d who h = true →
    (exec (.memoryRead k d who h unit lines fails ecc cls true late full) s = .next (s.specIssue k d who h unit lines) ∧
      (s.specIssue k d who h unit lines).mem = s.mem ∧ (s.specIssue k d who h unit lines).poison = s.poison ∧
      (s.specIssue k d who h unit lines).suites = s.suites) ∧
    (s.reachable k unit = true → homeOf unit = some (home, i) → s.route k d home = some (p, alt) → (s.stack home i).filled = true →
      (∀ j < lines, s.poisoned (unit + j) = false) →
      ∃ u, exec (.memoryRead k d who h unit lines [] ecc cls false late false) s = .next u ∧ u.mem = s.mem ∧ u.poison = s.poison ∧
        u.suites[k].tasks = s.suites[k].tasks ∧ u.mgt = s.mgt ∧ u.msix = s.msix)) ∧
  (∀ (k d home : Fin 8) (i : Fin 12) (who : Option (Fin 104)) (unit ecc : Nat) (cls : Fin 4) (late : Bool) (p : List (Nat × Nat)) (alt : Bool)
    (s : State),
    s.mayRequest k d who none = true → s.reachable k unit = true → homeOf unit = some (home, i) → s.route k d home = some (p, alt) →
    s.poisoned unit = false →
    ∃ u, exec (.memoryRead k d who none unit 1 [(0, 3)] ecc cls false late false) s = .next u ∧ u.poisoned unit = true ∧
      (∀ x, x ≠ unit → u.poisoned x = s.poisoned x) ∧ u.mem = s.mem)

/-- R32, R195, R197, R206: a write that a suite's requester may issue within one 1 KiB block, in a suite that runs no program, stores its bytes at
their addresses and no others, but for the FROZEN and BOUND flags of a table in force, which stay; where no read that it needs fails, a line that it
supplies whole loses its marker, and no other line's marker changes. -/
def Obligations.WriteStoresItsBytes : Prop :=
  ∀ (k d home : Fin 8) (i : Fin 12) (who : Option (Fin 104)) (h : Option Nat) (unit off ecc : Nat) (bytes : List Byte) (cls : Fin 4)
    (p : List (Nat × Nat)) (alt : Bool) (s : State), s.inv → bytes ≠ [] → off < 64 → unit / 16 = (unit + cdiv (off + bytes.length) 64 - 1) / 16 →
    s.mayRequest k d who h = true → s.reachable k unit = true → homeOf unit = some (home, i) → s.route k d home = some (p, alt) →
    (s.stack home i).filled = true → s.suites[k].run = none →
    let a := 64 * unit + off
    ∃ u, exec (.memoryWrite k d who h unit off bytes cls [] ecc false) s = .next u ∧
      (∀ x, u.byte x = if a ≤ x ∧ x < a + bytes.length then (s.keepFlags a bytes).getD (x - a) 0 else s.byte x) ∧
      ((∀ j : Fin 8, s.suites[j].table? = none) → s.keepFlags a bytes = bytes) ∧
      (∀ x, u.poisoned x = (s.poisoned x && !(decide (a ≤ 64 * x) && decide (64 * x + 64 ≤ a + bytes.length))))

/-- R32: a write of a suite's requester, in a suite that runs no program, leaves the FROZEN and BOUND flags of every entry of a tensor table in
force as they are. R195: a request of a suite to a line outside its dies or unmapped changes no byte and no marker: it is ACCESS_DENIED and
logged. -/
def Obligations.WritesKeepFlagsAndForeignLines : Prop :=
  (∀ (k d : Fin 8) (who : Option (Fin 104)) (h : Option Nat) (unit off ecc : Nat) (bytes : List Byte) (cls : Fin 4) (fails : List (Nat × Nat))
    (full : Bool) (s t : State), s.inv → s.suites[k].run = none → exec (.memoryWrite k d who h unit off bytes cls fails ecc full) s = .next t →
    ∀ x, s.isFlagByte x = true → t.byte x &&& 3 = s.byte x &&& 3) ∧
  (∀ (k d : Fin 8) (who : Option (Fin 104)) (h : Option Nat) (unit off lines ecc : Nat) (bytes : List Byte) (cls : Fin 4) (late full : Bool)
    (fails : List (Nat × Nat)) (s : State), s.mayRequest k d who h = true → s.reachable k unit = false → lines ≠ 0 →
    unit / 16 = (unit + lines - 1) / 16 → bytes ≠ [] → off < 64 → unit / 16 = (unit + cdiv (off + bytes.length) 64 - 1) / 16 →
    let u := s.demandDenied k h unit (s.classOf k h false cls)
    exec (.memoryRead k d who h unit lines fails ecc cls false late full) s = .next u ∧
    exec (.memoryWrite k d who h unit off bytes cls fails ecc full) s = .next u ∧ u.mem = s.mem ∧ u.poison = s.poison)

/-- R196, R382, R304, R305: a move before a retirement poisons the lines of the stack's window that cannot be read, and in a die of no suite the
retirement then commits; more flit replays of a group in 1 ms than 16 × EDGE_RETRY retire it, fewer change nothing; an elapsed rotation interval
rotates the suite's stacks; when a stack has been encrypted again its old key's use ends, KEY_ROTATED is logged and a queued rotation starts. -/
def Obligations.MemoryServiceCommands : Prop :=
  ∀ (d k : Fin 8) (i : Fin 12) (pc : Fin 64) (e : Fin 3) (g : Fin 16) (n : Nat) (lost : List Nat) (s : State),
    let x := s.stack d i
    let w := (12 * d.val + i.val) * 2 ^ 30
    let bad := lost.filter fun u => decide (w ≤ u) && decide (u < w + (x.cap - 0xFC0000 * x.pcPending.length)) && !s.poisoned u
    let lim := 16 * min (s.hlt.ctrl.toNat / 256 % 256) s.policy.edgeRetry
    let s1 := s.modStack d i fun y => { y with reenc := false, pages := 0, rotQueued := false }
    let s2 := s1.dieEvent d 0x193 i (pack [(1, 0), (3, 0), (2, x.epoch), (2, 0), (4, 12 * d.val + i.val), (4, 0)])
    ((x.pcPending.any fun (q : Nat × Nat) => q.1 == pc.val) = true → s.owner d ≠ none → exec (.pcRetirementMove d i pc lost) s =
      .next ((bad.foldl (fun t u => t.poisonLine u) s).modStack d i fun y => { y with moveLost := y.moveLost + bad.length })) ∧
    ((x.pcPending.any fun (q : Nat × Nat) => q.1 == pc.val) = true → s.owner d = none → exec (.pcRetirementMove d i pc lost) s =
      .next (((bad.foldl (fun t u => t.poisonLine u) s).modStack d i fun y => { y with moveLost := y.moveLost + bad.length }).commitStack d i 0xFFFFFFFF)) ∧
    (s.edgePresent d e = true → lim < n → exec (.d2dFlitReplay d e g n) s = .next (s.retireGroup d e g 7)) ∧
    (n ≤ lim → exec (.d2dFlitReplay d e g n) s = .next s) ∧
    (s.suites[k].memRot ≠ 0 → s.suites[k].key ≠ none → s.suites[k].st ≠ .absent → exec (.memKeyRotationStart k) s = .next (s.rotateSuite k)) ∧
    (x.reenc = true → exec (.reencryptionDone d i) s = .next (if x.rotQueued then s2.modStack d i Stack.rotate else s2))

/-- R305: an interval that elapses and a ROTATE_MEM start a rotation on every stack of the suite's dies in service; one that is requested while
one runs on a stack starts when that one ends; the epoch wraps from 0xFFFF to 0x0001, and a rotation never uses epoch 0. -/
def Obligations.KeyRotations : Prop :=
  ∀ (k : Fin 8) (fn : Fin 9) (d : Fin 8) (i : Fin 12) (s : State),
    let x := s.stack d i
    let next := if x.epoch = 0xFFFF then 1 else x.epoch + 1
    (s.suites[k].memRot ≠ 0 → s.suites[k].key ≠ none → s.suites[k].st ≠ .absent →
      ∃ t, exec (.memKeyRotationStart k) s = .next t ∧ (d ∈ s.liveDies k → t.stack d i = x.rotate)) ∧
    (s.Accepts fn 0x24 → s.suites[k].st ≠ .absent → s.suites[k].st ≠ .scrubbing →
      ∃ t, exec (.rotateMem fn k) s = .next t ∧ (d ∈ s.liveDies k → t.stack d i = x.rotate)) ∧
    (x.reenc = false → x.rotate.reenc = true ∧ x.rotate.epoch = next ∧ x.rotate.epoch ≠ 0) ∧
    (x.reenc = true → x.rotate = { x with rotQueued := true }) ∧
    (x.reenc = true → ∃ t, exec (.reencryptionDone d i) s = .next t ∧ (t.stack d i).reenc = x.rotQueued ∧
      (t.stack d i).epoch = (if x.rotQueued then next else x.epoch))

/-! ## Links, frames and module time -/

/-- R219 and R223: an ACTIVE port takes a correctable codeword of the expected SEQ in order, and its ACK acknowledges what it names; it discards any
other, with one NAK to a run of discards, and counts an uncorrectable one. A port that is not ACTIVE takes none. R219 to R225: a LINK cell on an
ACTIVE port returns its credits and applies its NAK, and one with a reserved bit set is dropped; IDLE and KEEPALIVE carry nothing that the block
keeps; HELLO in HANDSHAKE makes the port ACTIVE, MISWIRED, or fail its training (log 38). -/
def Obligations.CodewordsAndLinkCells : Prop :=
  (∀ (d : Fin 8) (q : Fin 2) (seq ack : BitVec 10) (corrected : Bool) (s : State),
    let x := s.port d q
    let fixed := fun (y : Port) => if corrected then { y with cwCorr := y.cwCorr.satAdd 1 } else y
    (x.st = .active → seq.toNat = x.rxSeq → exec (.codewordReceive d q seq ack true corrected) s = .next (s.modPort d q fun y =>
      { (fixed y).acked ack.toNat with rxSeq := (y.rxSeq + 1) % 1024, nakSent := false, lastGood := s.clk.time })) ∧
    (x.st = .active → seq.toNat ≠ x.rxSeq → exec (.codewordReceive d q seq ack true corrected) s =
      .next (s.modPort d q fun y => (fixed y).discard)) ∧
    (x.st = .active → exec (.codewordReceive d q seq ack false corrected) s =
      .next (s.modPort d q fun y => { y.discard with cwUncorr := y.cwUncorr.satAdd 1 })) ∧
    (∀ good, x.st ≠ .active → exec (.codewordReceive d q seq ack good corrected) s = .next s)) ∧
  (∀ (d : Fin 8) (q : Fin 2) (nak : Option (BitVec 10)) (credits : List Nat) (time : BitVec 64) (cell : HelloCell) (s : State),
    let s1 := s.modPort d q fun y => ((credits.take 16).zipIdx).foldl (fun z c => z.credit c.2 c.1) y
    let low := match s.linkWindow with | some w => decide (cell.iface < w.1 ∨ w.2 < cell.iface) | none => false
    ((s.port d q).st = .active → exec (.link d q nak credits true) s = .next (s.scrDrop d q) ∧
      exec (.link d q nak credits false) s = .next (match nak with | some a => s1.nak d q a.toNat | none => s1)) ∧
    exec (.idle d q) s = .next s ∧ exec (.keepalive d q time) s = .next s ∧
    ((s.port d q).st = .handshake →
      (s.helloFits d q cell = false → exec (.hello d q cell) s = .next (s.setPort d q .miswired)) ∧
      (s.helloFits d q cell = true → low = true → exec (.hello d q cell) s = .next (s.trainFail d q)) ∧
      (s.helloFits d q cell = true → low = false → exec (.hello d q cell) s =
        .next ((s.modPort d q fun y => { y with lastGood := s.clk.time }).setPort d q .active))))

/-- R225 and R226: DETECT with signal on at least 5 good pairs enters EQUALIZE on them and stays otherwise; in EQUALIZE a chosen pair that fails
becomes bad, and the port takes the widest width of all its good pairs: it ends DOWN below 5, trains on where it takes a pair that has not trained,
and else enters ALIGN; ALIGN enters HANDSHAKE; a limit that expires fails the training. R225 and R226: an ACTIVE port without a valid codeword for
its limit retrains, and so does one that loses a pair to AUTO_DEGRADE; a DOWN port with AUTO_RETRY and RUNNING detects again. -/
def Obligations.LinkTrainingAndLoss : Prop :=
  (∀ (d : Fin 8) (q : Fin 2) (pairs good : BitVec 10) (s : State),
    let x := s.port d q
    let left := x.pairs &&& ~~~(x.chosen &&& ~~~good)
    let pick := pickPairs left
    let s1 := s.modPort d q fun y => { y with pairs := left, chosen := pick }
    (x.st = .detect → 5 ≤ popcount (x.pairs &&& pairs).toNat 10 → exec (.signalDetect d q pairs) s = .next (s.equalize d q (x.pairs &&& pairs))) ∧
    (¬(x.st = .detect ∧ 5 ≤ popcount (x.pairs &&& pairs).toNat 10) → exec (.signalDetect d q pairs) s = .next s) ∧
    (x.fn.st = .running → exec (.detectRetry d q) s = .next (s.startPort d q)) ∧
    (x.st = .equalize →
      (popcount left.toNat 10 < 5 → exec (.equalizeDone d q good) s = .next (s1.setPort d q .down)) ∧
      (5 ≤ popcount left.toNat 10 → pick &&& ~~~(x.chosen &&& good) ≠ 0 → exec (.equalizeDone d q good) s = .next s1) ∧
      (5 ≤ popcount left.toNat 10 → pick &&& ~~~(x.chosen &&& good) = 0 → exec (.equalizeDone d q good) s = .next (s1.setPort d q .align))) ∧
    (x.st = .align → exec (.alignDone d q) s = .next (s.setPort d q .handshake)) ∧
    (x.st = .equalize ∨ x.st = .align ∨ x.st = .handshake → exec (.trainingLimitExpiry d q) s = .next (s.trainFail d q))) ∧
  (∀ (d : Fin 8) (q : Fin 2) (pair : Fin 10) (n : Nat) (s : State),
    let x := s.port d q
    let s1 := s.modPort d q fun y => { y with pairs := y.pairs &&& ~~~((1 : BitVec 10) <<< pair.val) }
    (x.st = .active → x.lastGood + lossLimit ≤ s.clk.time → exec (.linkLossTimeout d q) s = .next (s.retrain d q)) ∧
    (¬(x.st = .active ∧ x.lastGood + lossLimit ≤ s.clk.time) → exec (.linkLossTimeout d q) s = .next s) ∧
    (x.autoDegrade = true → x.degrade.toNat < n → x.pairs.getLsbD pair = true →
      exec (.pairDegrade d q pair n) s = .next (if x.st = .active then s1.retrain d q else s1)) ∧
    (n ≤ x.degrade.toNat → exec (.pairDegrade d q pair n) s = .next s) ∧
    (x.st = .down → x.autoRetry = true → x.fn.st = .running → exec (.downRetry d q) s = .next (s.setPort d q .detect)))

/-- R220, R224, R227 to R231, R236: a frame of a forwarded type that a suite's die injects has its header stamped, with the next FRAME_CTR of its
pair, which it uses up; one that the suite may not send is not sent. An injected or passing frame leaves by the port of its next dimension when its
credits and codewords are free, and waits when they are not, a passing one in the input buffer while it has room; without a usable route it is
dropped and logged; one that has arrived crosses to its die; an exchange chunk goes only when its task may send it. A malformed frame and one of no
forwarded type is dropped; link cells are not forwarded. -/
def Obligations.FrameForwarding : Prop :=
  (∀ (src : Fin 8) (f g : Frame) (k : Fin 8) (dim : Nat) (s : State),
    (f.type.toNat ∈ linkTypes → exec (.frameForward none src f) s = .next s) ∧
    (f.type.toNat ∉ linkTypes → frameMalformed f = false → f.type.toNat ∈ forwardTypes →
      (s.stamp src f = none → exec (.frameForward none src f) s = .next s) ∧
      (s.stamp src f = some g → s.owner src = some k →
        (s.nextDim g = none → exec (.frameForward none src f) s =
          .next (s.crossEdges (rowFirst src (g.dstDie % 8)) false (g.vc.toNat / 4 % 4 == 0))) ∧
        (s.nextDim g = some dim →
          (g.type ≠ 0x10 → g.type ≠ 0x11 → exec (.frameForward none src f) s = .next (((s.forward none src g dim).map (·.1)).getD s)) ∧
          (g.type = 0x10 ∨ g.type = 0x11 → (s.chunkGoes k g = none ∨ s.forward none src g dim = none → exec (.frameForward none src f) s = .next s) ∧
            ∀ t rec u b, s.chunkGoes k g = some (t, rec) → s.forward none src g dim = some (u, b) → exec (.frameForward none src f) s =
              .next (match rec with | some c => u.modTask k t.h fun x => { x with sent := c :: x.sent } | none => u))))) ∧
    (s.stamp src f = some g → s.owner src = some k → 0x10 ≤ f.type.toNat → g.flags.getLsbD 0 = true ∧
      ∃ p, s.suites[k].pairOf f.dstCoord f.dstSuite = some p ∧ g.keyEpoch = p.epoch ∧ g.frameCtr.toNat % 2 ^ 60 = p.sent % 2 ^ 60 ∧
        (s.countSent src g).suites[k].pairOf f.dstCoord f.dstSuite = some { p with sent := p.sent + 1 })) ∧
  (∀ (p : Fin 16) (src : Fin 8) (f : Frame) (dim : Nat) (s : State),
    let here := fin8 (p.val / 2)
    let face := Fin.ofNat 2 (p.val % 2)
    (f.type.toNat ∈ linkTypes → exec (.frameForward (some p) src f) s = .next s) ∧
    (f.type.toNat ∉ linkTypes → frameMalformed f = true ∨ f.type.toNat ∉ forwardTypes → exec (.frameForward (some p) src f) s =
      .next ((s.scrDrop here face).modPort here face fun x => x.freed f)) ∧
    (f.type.toNat ∉ linkTypes → frameMalformed f = false → f.type.toNat ∈ forwardTypes →
      (s.nextDim f = none → exec (.frameForward (some p) src f) s =
        .next (s.crossEdges (rowFirst here (f.dstDie % 8)) false (f.vc.toNat / 4 % 4 == 0))) ∧
      (s.nextDim f = some dim →
        (∀ u b, s.forward (some p) here f dim = some (u, b) → exec (.frameForward (some p) src f) s = .next (u.modPort here face fun x => x.freed f)) ∧
        (s.forward (some p) here f dim = none → exec (.frameForward (some p) src f) s = .next (s.modPort here face fun x =>
          if x.inBuf.contains f || decide (2048 < x.buffered + 1 + f.cells) then x else { x with inBuf := x.inBuf ++ [f] }))))) ∧
  (∀ (inPort : Option (Fin 16)) (here : Fin 8) (f : Frame) (dim : Nat) (s : State),
    (s.outPort inPort f dim = none → s.forward inPort here f dim = some (s.noRoute inPort here f dim, false)) ∧
    ∀ die face, s.outPort inPort f dim = some (die, face) →
      let straight := match inPort with | some p => p.val / 4 == dim | none => false
      let dl := if s.dateline dim (face == 0) || (straight && f.vc.getLsbD 0) then 1 else 0
      let sent := (s.port (fin8 die) (Fin.ofNat 2 face)).send s.clk.time dl f
      (sent = none → s.forward inPort here f dim = none) ∧
      ∀ x, sent = some x →
        let t := (s.modPort (fin8 die) (Fin.ofNat 2 face) fun _ => x).crossEdges (rowFirst here die) false (f.vc.toNat / 4 % 4 == 0)
        s.forward inPort here f dim = some (if inPort.isNone then t.countSent here f else t, true))

/-- R238, R240, R242, R243, R245, R256: the low words of a chunk that has not come before are held as its sums, with its marks and grids, and every
copy is acknowledged unless its totals wait for an APPLY; a carry adds the high words to the sums of its chunk; a control frame ends a chunk's
resends and returns its grant, counts barrier arrivals, combines extremes, or holds a member's norm. R242: a chunk that is not acknowledged within
RESEND is sent again, on the other rail when one exists, under a new FRAME_CTR and with its carries; its resends are counted, and EXCH_RESEND is
logged once per task and rail; after the eighth resend the task completes TIMEOUT; one that is not outstanding or not yet due is left. -/
def Obligations.ExchangeFramesAndResends : Prop :=
  (∀ (d : Fin 8) (q : Fin 2) (f : Frame) (k : Fin 8) (p : PairKey) (base stage step chunk id n h tile : Nat) (hi lo : Int)
    (vals : List Word) (marks : List Nat) (grids : List Int) (carries : List (BitVec 16)) (sum : Nat) (sat : Bool) (s : State),
    s.TakesFrame d f k p base →
    let t := s.taken d q k f p base
    let a := frameChunk f
    let group := frameArg f 1 1
    let held := t.holdsGrant k a.1 a.2.1 a.2.2.1
    let t1 := if held then t else t.answer k f
    let c : ExchChunk := { group := a.1, seq := a.2.1, stage := a.2.2.1, step := a.2.2.2.1, chunk := a.2.2.2.2, grids := grids,
                           sums := vals.map (fun w => signed 32 w.toNat), marks := (List.range vals.length).map marks.contains, acked := !held }
    let seen := t1.suites[k].chunks.any fun x => x.named a.1 a.2.1 a.2.2.1 a.2.2.2.1 a.2.2.2.2
    (f.type = 0x10 → (seen = true → exec (.exchData d q f vals marks grids) s = .next t1) ∧
      (seen = false → exec (.exchData d q f vals marks grids) s = .next (t1.modSuite k fun u => { u with chunks := c :: u.chunks }))) ∧
    (f.type = 0x11 → exec (.exchCarry d q f carries) s = .next (t.modSuite k fun u => { u with
      chunks := u.chunks.map fun x => if x.named a.1 a.2.1 a.2.2.1 a.2.2.2.1 a.2.2.2.2 then
        { x with sums := x.sums.zipIdx.map fun (v, i) => (carries[i]?).elim v (carrySum v) } else x })) ∧
    (f.type = 0x12 →
      (∀ x, t.exchTask? k group (frameArg f 2 1) = some x → exec (.exchCtrl d q f (.ack stage step chunk)) s = .next (t.modTask k x.h fun y =>
        { y with sent := y.sent.filter fun z => !(z.stage == stage && z.step == step && z.chunk == chunk) })) ∧
      (t.exchTask? k group (frameArg f 2 1) = none → exec (.exchCtrl d q f (.ack stage step chunk)) s = .next t) ∧
      exec (.exchCtrl d q f (.barrier id n)) s =
        .next ((t.modSuite k fun u => u.setBarrier id (u.barrier? id).1 ((u.barrier? id).2 + n)).barrierDone k id) ∧
      exec (.exchCtrl d q f (.extremes h tile hi lo)) s = .next (t.modSuite k fun u =>
        u.addExtreme { h := h, tile := tile, src := f.srcCoord, hi := hi, lo := lo }) ∧
      exec (.exchCtrl d q f (.norm sum sat)) s = .next (t.modSuite k fun u =>
        { u with normIn := (group, f.srcCoord, sum, sat) :: u.normIn.filter fun x => !(x.1 == group && x.2.1 == f.srcCoord) }))) ∧
  (∀ (k : Fin 8) (h stage step chunk : Nat) (t : Task) (x : SentChunk) (r : Reduce) (s : State), s.Has k h .running t →
    let mine := t.sent.find? fun y => y.stage == stage && y.step == step && y.chunk == chunk
    (mine = none → exec (.chunkResend k h stage step chunk) s = .next s) ∧
    (mine = some x → s.reduceOf k t = some r →
      (s.clk.time < x.time + t.desc.resend → exec (.chunkResend k h stage step chunk) s = .next s) ∧
      (x.time + t.desc.resend ≤ s.clk.time → 8 ≤ x.resends → exec (.chunkResend k h stage step chunk) s = .next (s.exchangeTimeout k t)) ∧
      (x.time + t.desc.resend ≤ s.clk.time → x.resends < 8 → ∀ dim i plus s0, s.chunkWay r stage step chunk = some (dim, i, plus) →
        let rail := if s.otherRail r.g dim x.rail plus then 1 - x.rail else x.rail
        let die := fin8 (2 * dim + rail)
        let fr := fun type => chunkFrame type (s.ringNext dim plus) die k.val rail t x
        s.sendAgain die (fr 0x10) = some s0 →
        let s1 := if needsCarry (s.runningSum k r stage step chunk) then (s0.sendAgain die (fr 0x11)).getD s0 else s0
        let y := { x with rail := rail, time := s.clk.time, resends := x.resends + 1 }
        let s2 := s1.modTask k h fun z => { z with sent := y :: z.sent.erase x }
        exec (.chunkResend k h stage step chunk) s = .next (if t.railsLogged.contains rail then s2
          else (s2.modTask k h fun z => { z with railsLogged := rail :: z.railsLogged }).suiteEvent k 0x163 0xFF 0
            (pack [(4, t.desc.taskId), (1, t.desc.arg 0 2), (1, rail), (2, 0), (4, 1), (4, s.suites[k].step.toNat)])))))

/-- R24, R195, R238, R317: a GET_REQ for lines that the suite may read is answered, from a bound source only for a key of its set, and another is
logged; a PUT into lines that the suite may write stores them, and one elsewhere changes no byte and is logged; a GET_RSP stores the lines of its
GET at their place, and they count as read from another module. -/
def Obligations.RemoteReadsAndWrites : Prop :=
  ∀ (d : Fin 8) (q : Fin 2) (f : Frame) (k : Fin 8) (p : PairKey) (base h : Nat) (key bytes : List Byte) (s : State),
    s.TakesFrame d f k p base →
    let t := s.taken d q k f p base
    let t1 := t.answer k f
    let unit := frameArg f 0 5
    let lines := frameArg f 5 2
    let n := cdiv bytes.length 64
    (f.type = 0x13 → (t.regionOk k unit lines = true → exec (.getReq d q f key) s = .next (if t.mayLeave k unit lines key then t1 else
        t1.suiteEvent k 0x194 0xFF 0 (pack [(4, 0xFFFFFFFF), (2, 0xFFFF), (1, 1), (1, 0), (4, t.suites[k].step.toNat)]))) ∧
      (t.regionOk k unit lines = false → exec (.getReq d q f key) s = .next (t1.memError k unit 2 2 0xFFFFFFFF))) ∧
    (f.type = 0x15 → (t.regionOk k unit n = true → exec (.put d q f bytes) s = .next ((t1.write (64 * unit) bytes).slotWrite k (64 * unit) bytes.length)) ∧
      (t.regionOk k unit n = false → exec (.put d q f bytes) s = .next (t1.memError k unit 2 2 0xFFFFFFFF))) ∧
    (f.type = 0x14 → ∀ task w, t.Runs k h 4 6 task → (((t.view k).tensor? k (task.desc.tensor 1)).bind ((t.view k).baseRegion k)) = some w →
      let at_ := unit - task.desc.arg 12 5
      task.desc.arg 12 5 ≤ unit → at_ + n ≤ w.2 → task.desc.peer = f.srcCoord →
      exec (.getRsp d q f h bytes) s = .next (t.merge k (((((t.view k).write (64 * (w.1 + at_)) bytes).modTask k h fun x =>
        { x with got := (((List.range n).map fun i => at_ + i) ++ x.got).eraseDups })).modSuite k fun v =>
          { v with reads := (f.dstDie % 8, 0xFF, bytes.length) :: v.reads })))

/-- R220, R231, R236, R319: a frame that is malformed, not encrypted, for another suite, from no member of its groups, of an unknown peer or epoch,
replayed, or not authentic changes no byte of memory, no marker, no task, no chunk, no pair key and no barrier of any suite. -/
def Obligations.UnauthenticFramesChangeNothing : Prop :=
  ∀ (c : Instr) (d : Fin 8) (q : Fin 2) (f : Frame) (s t : State),
    ((∃ a b e, c = .exchData d q f a b e) ∨ (∃ a, c = .exchCarry d q f a) ∨ (∃ m, c = .exchCtrl d q f m) ∨ (∃ a, c = .getReq d q f a) ∨
     (∃ a b, c = .getRsp d q f a b) ∨ (∃ a, c = .put d q f a)) →
    (∀ k p base, ¬s.TakesFrame d f k p base) → exec c s = .next t →
    t.mem = s.mem ∧ t.poison = s.poison ∧ t.host = s.host ∧ ∀ j : Fin 8,
      t.suites[j].tasks = s.suites[j].tasks ∧ t.suites[j].chunks = s.suites[j].chunks ∧ t.suites[j].pairs = s.suites[j].pairs ∧
      t.suites[j].barriers = s.suites[j].barriers

/-- R222, R307, R308: a PAIR_KEY whose device key has the digest of the peer table's entry and whose signature verifies puts its epoch in force;
otherwise no key of the pair is; it crosses to its die and to the primary core over C0; a malformed one is dropped. KEY_EPOCH advances at the limit;
the previous epoch's key is destroyed once the new one has been seen. R220, R246, R247: the child sends on its parent's port, stamped t1 with module
time in eighths; a request is stamped and answered; the reply to the request sent, on the parent's port, is stamped, its offset joins the last 16,
and once there are 16 their median corrects module time; another reply only tells its sender's depth; a cell with a reserved bit is dropped. -/
def Obligations.PairKeysAndTimeSync : Prop :=
  (∀ (d : Fin 8) (q : Fin 2) (m : PairKeyMsg) (k : Fin 8) (i : Nat) (p : PairKey) (s : State),
    let u := s.suites[k]
    let s0 := (s.crossEdges (rowFirst d (m.dstDie % 8)) false true).crossEdges (rowFirst (m.dstDie % 8) s.primaryDie) false true
    let good := (match u.peers[i]? with | some x => x.digest == m.keyDigest | none => false) && m.sigOk
    let s1 := s0.modSuite k fun v => v.setPair i m.keyEpoch
    let e := (p.epoch + 1) % 65536
    let co := match u.peers[i]? with | some x => x.coord | none => []
    (m.enc = true ∨ m.cells ≠ 5 ∨ m.reserved = true → exec (.pairKey d q m) s = .next (s.scrDrop d q)) ∧
    (m.enc = false → m.cells = 5 → m.reserved = false → m.dstSuite = k.val → u.st ≠ .scrubbing → u.st ≠ .absent → u.peerIdx m.srcCoord m.srcSuite = some i →
      (good = false → exec (.pairKey d q m) s = .next (s0.modSuite k fun v => { v with pairs := v.pairs.filter fun x => x.peer != i })) ∧
      (good = true → exec (.pairKey d q m) s = .next (if u.pairs.any fun x => x.peer == i && x.epoch != m.keyEpoch then
        s1.suiteEvent k 0x193 0xFF 0 (pack ([(1, 1), (3, 0), (2, m.keyEpoch), (2, 0)] ++ coordFields m.srcCoord ++ [(4, 0)])) else s1))) ∧
    ((u.pairs.find? fun x => x.peer == i) = some p →
      (p.sent < s.pairLimit → exec (.pairKeyRotation k i) s = .next s) ∧
      (s.pairLimit ≤ p.sent → exec (.pairKeyRotation k i) s = .next ((s.modSuite k fun v => v.setPair i e).suiteEvent k 0x193 0xFF 0
        (pack ([(1, 1), (3, 0), (2, e), (2, 0)] ++ coordFields co ++ [(4, 0)]))))) ∧
    exec (.previousPairKeyDestroy k i) s = .next (s.modSuite k fun v => v.modPair i fun x =>
      if x.prevAlive ∧ x.firstSeen then { x with prevAlive := false, seen := x.seen.filter fun y => decide (y.1 < 8) } else x)) ∧
  (∀ (d : Fin 8) (q : Fin 2) (cell : TsyncCell) (phase : Fin 8) (s : State),
    (s.timeParent = some (2 * d.val + q.val) → exec (.tsyncSend d q) s = .next { s.setParent (2 * d.val + q.val) with
      clk := { (s.setParent (2 * d.val + q.val)).clk with t1 := some (8 * (s.setParent (2 * d.val + q.val)).clk.time) } }) ∧
    (cell.reserved = true → exec (.tsync d q cell phase) s = .next (s.scrDrop d q)) ∧
    (cell.reserved = false →
      let now := 8 * s.clk.time + phase.val
      let s1 := s.modPort d q fun x => { x with peerDepth := cell.depth }
      let mine := s.clk.t1 = some cell.t1 ∧ s.clk.parent = 2 * d.val + q.val ∧ s.clk.syncState ≠ .free
      (cell.reply = false → exec (.tsync d q cell phase) s = .next (s1.modPort d q fun x => { x with tsReply := some (cell.t1, now, now) })) ∧
      (cell.reply = true → ¬mine → exec (.tsync d q cell phase) s = .next s1) ∧
      (cell.reply = true → mine →
        let off : Int := ((cell.t2 : Int) - cell.t1) - ((now : Int) - cell.t3)
        let xs := (off :: s.clk.offsets).take 16
        let s2 := { s1 with clk := { s.clk with t1 := none, offsets := xs, depth := match cell.depth with | some n => n + 1 | none => s.clk.depth } }
        exec (.tsync d q cell phase) s = .next (if xs.length < 16 then s2 else s2.applyOffset (median16 xs)))))

/-! ## Start-up, resets and suites -/

/-- R371, R397, R399, R404: a cold reset starts from the kept state with the straps read; PERST_N or MOD_RST_N held low for at least 1 µs on a
powered module resets it and a shorter pulse does nothing; the power-off sequence leads to standby, or off without an input; above 60 V for 10 µs
the input is disconnected; at 48 V start-up may go on; a sensor at 108 °C trips. R404: a cold reset keeps the fuses and the flash and clears what is
volatile: no byte of memory and no marker is left, no suite has a task or a key, no deferred response waits, the lock is open, module time starts
again at 0, and the stage is 0x1. -/
def Obligations.ResetAndPowerCommands : Prop :=
  (∀ (straps : Straps) (n mv us : Nat) (trip off : Bool) (s : State),
    exec (.coldReset straps) s = .next { s.fresh with
      power := { s.fresh.power with vinOk48 := false, strapDie1 := !straps.hostSel, smbAddr := straps.smbAddr },
      bscanLocked := !s.fuses.ownerSlots.isEmpty } ∧
    (1000 ≤ n → s.power.phase = .on → exec (.moduleReset n straps) s = .next (s.moduleReset straps)) ∧
    (n < 1000 → exec (.moduleReset n straps) s = .next s) ∧
    (s.power.phase = .on → exec (.powerOffSequence trip off) s = .next (s.powerOff (if off then .off else .standby) trip)) ∧
    (60000 < mv → 10 ≤ us → exec (.inputOvervoltage mv us) s = .next (s.powerOff .disconnected false)) ∧
    (¬(60000 < mv ∧ 10 ≤ us) → exec (.inputOvervoltage mv us) s = .next s) ∧
    (48000 ≤ mv → s.power.phase = .on → exec (.startUpAllowed mv) s = .next { s with power := { s.power with vinOk48 := true } }) ∧
    (s.power.phase = .on → exec .thermalTrip s = .next s.trip)) ∧
  (∀ (straps : Straps) (s t : State), exec (.coldReset straps) s = .next t →
    t.fuses = s.fuses ∧ t.flash = s.flash ∧ t.mem = [] ∧ t.poison = [] ∧ t.clk.time = 0 ∧ t.mgt.deferredSpdm = [] ∧
    t.mgt.stage = .rom ∧ t.mgt.lock = false ∧ ∀ k : Fin 8, t.suites[k].tasks = [] ∧ t.suites[k].key = none)

/-- R17, R329 to R333, R349 to R351: stage 0x1 reports the PLL locks of the populated dies, fails die 0 where it is absent under the strap, takes a
TRIAL class that failed three times back, and starts the Pyrhoax image of the slot named, else of the other slot, which the status area then names,
else enters RECOVERY. Stage 0x2 counts the classes that do not start; it enters RECOVERY where class 1 does not, MAINTENANCE where another does not,
and else goes on. Stage 0x3 applies the primer of the slot that the status area names, else of the other, else enters MAINTENANCE. R11, R377, R382,
R385, R397: from 48 V on, stage 0x4 applies the record to the stacks and edges, retires what failed training, and a die that fails leaves service;
stage 0x5 gives the panels their roles from the fuses and the record, retires those that fail, and takes out of service a die that fails or has no
panel. Stage 0x6 starts every scrub that is due and trains the ports; the module is READY once no suite scrubs and time is LOCKED or its own
root. -/
def Obligations.StartUpStages : Prop :=
  (∀ (pll serdes : BitVec 8) (absent badA badB : Bool) (failed : List Nat) (s : State),
    (s.mgt.stage = .rom → s.power.phase = .on →
      let on := dieMaskOf ((List.finRange 8).filter fun d => s.populated d)
      let s1 := { s with clk := { s.clk with pllSts := mkWord [(24, (pll &&& on).toNat), (16, (serdes &&& on).toNat)] } }
      let s3 := (if absent && s.power.strapDie1 then s1.failDie 0 else s1).trialFallback 1
      let ok := fun (i : Option FwImage) => match i with | some x => s3.fwValid 1 x | none => false
      (ok (s3.fwRun 1) = true → exec (.stageRom pll serdes absent) s = .next ((s3.setStage .firmware).applyK false)) ∧
      (ok (s3.fwRun 1) = false → ok (s3.fwOther 1) = true → exec (.stageRom pll serdes absent) s = .next
        (((s3.setStatus fun x => { x with slotB := x.slotB.set 0 (!flagOf x.slotB 1) }).setStage .firmware).applyK false)) ∧
      (ok (s3.fwRun 1) = false → ok (s3.fwOther 1) = false → exec (.stageRom pll serdes absent) s = .next ((s3.setStage .recovery).applyK false))) ∧
    (s.mgt.stage = .firmware →
      let s1 := [2, 3, 4, 5].foldl (fun t c => t.trialFallback c) s
      let bad := fun c => failed.contains c || !(match s1.fwRun c with | some x => s1.fwValid c x | none => false)
      let s3 := (s1.setStatus fun x =>
        { x with failedStarts := (List.range 5).map fun i => if bad (i + 1) then x.failedStarts.getD i 0 + 1 else 0 }).loadFwState
      (bad 1 = true → exec (.stageFirmware failed) s = .next (s3.setStage .recovery)) ∧
      (bad 1 = false → (bad 2 || bad 3 || bad 4 || bad 5) = true → exec (.stageFirmware failed) s = .next (s3.setStage .maintenance)) ∧
      ((bad 1 || bad 2 || bad 3 || bad 4 || bad 5) = false → exec (.stageFirmware failed) s = .next (s3.setStage .primer))) ∧
    (s.mgt.stage = .primer →
      let slot := fun (b : Bool) => if (if b then badB else badA) then none else if b then s.flash.primerB else s.flash.primerA
      let good := fun (b : Bool) => (slot b).filter fun p => s.primerForm p && s.primerTrusted p s.ownerDigest
      let first := s.flash.status.primerB
      (∀ p, good first = some p → exec (.stagePrimer badA badB) s =
        .next (((s.modMgt fun m => { m with primerSlotB := first }).applyPrimer p).setStage .memory)) ∧
      (∀ p, good first = none → good (!first) = some p → exec (.stagePrimer badA badB) s =
        .next (((s.modMgt fun m => { m with primerSlotB := !first, primerFallback := true }).applyPrimer p).setStage .memory)) ∧
      (good first = none → good (!first) = none → exec (.stagePrimer badA badB) s =
        .next ((s.modMgt fun m => { m with primerFallback := true }).setStage .maintenance)))) ∧
  (∀ (dies : BitVec 8) (pcs : List (Fin 8 × Fin 12 × Fin 64)) (groups : List (Fin 8 × Fin 3 × Fin 16)) (panels : List (Fin 8 × Fin 104)) (s : State),
    let ds := (List.finRange 8).filter fun (d : Fin 8) => s.populated d
    (s.mgt.stage = .memory → s.power.vinOk48 = true →
      let s2 := pcs.foldl (fun t (x : Fin 8 × Fin 12 × Fin 64) => t.failPc x.1 x.2.1 x.2.2 6) (ds.foldl State.loadStacks s)
      let s3 := pcs.foldl (fun t (x : Fin 8 × Fin 12 × Fin 64) => t.commitStack x.1 x.2.1 0xFFFFFFFF) s2
      let s4 := groups.foldl (fun t (x : Fin 8 × Fin 3 × Fin 16) => t.retireGroup x.1 x.2.1 x.2.2 6) s3
      exec (.stageMemory dies pcs groups) s = .next (((ds.filter fun (d : Fin 8) => dies.getLsbD d).foldl State.failDie s4).setStage .panels)) ∧
    (s.mgt.stage = .panels →
      let s1 := ds.foldl State.loadPanels s
      let of := fun (r : Role) => panels.filter fun x => (s1.panel x.1 x.2).role == r
      let s2 := (of .spare ++ of .enabled).foldl (fun t (x : Fin 8 × Fin 104) => t.bootRetire x.1 x.2) s1
      let s3 := (ds.filter fun (d : Fin 8) => s2.dies[d].inService && (dies.getLsbD d || s2.roleCount d .enabled == 0)).foldl State.failDie s2
      exec (.stagePanels dies panels) s = .next ({ s3 with hlt := { s3.hlt with recordLoaded := true } }.setStage .scrubTime)) ∧
    (s.mgt.stage = .scrubTime → exec .stageScrubTime s = .next ((List.finRange 16).foldl (fun t p => t.startPort (fin8 (p.val / 2)) (Fin.ofNat 2 (p.val % 2)))
      ((List.finRange 8).foldl (fun t k => if t.suites[k].st = .scrubbing ∧ t.suites[k].key = none then
        t.startFill k (s.flash.status.scrubPending.contains k.val) else t) s))) ∧
    (s.mgt.stage = .scrubTime → (s.suites.toList.any fun u => u.st == .scrubbing) = false → s.clk.root = true ∨ s.clk.syncState = .locked →
      exec .ready s = .next (s.setStage .ready))) ∧
  (∀ (d : Fin 8) (i : Fin 12) (p : Fin 104) (s : State), s.populated d = true →
    (s.loadStacks d).stack d i = (s.stack d i).fromRecord (((s.recorded 1 d).filter fun n => n / 64 == i.val).map (· % 64)) ∧
    ((s.loadPanels d).panel d p).role = (((s.flash.status.retired.filter fun e => e.kind == 0 && e.die == d.val).map fun e => e.index).foldl retireRole
      (fuseRoles ((s.fuses.fusedOff.filter fun x => x.1 == d.val).map fun x => x.2))).getD p.val .fusedOff ∧
    (s.failDie d).dies[d].inService = false)

/-- R318, R320, R321, R327: when the fill of a suite's stacks is done no line of the suite holds a byte or a marker, the suite is STOPPED and
clean, and SCRUB_DONE is logged with the bytes filled. Lines of other suites keep their bytes. -/
def Obligations.ScrubLeavesNothing : Prop :=
  ∀ (k : Fin 8) (s : State), s.suites[k].st = .scrubbing → s.suites[k].key ≠ none → (∀ d ∈ s.suiteDies k, s.dies[d].recycling = false) →
    ∃ t, exec (.scrubFillDone k) s = .next t ∧ t.suites[k].st = .stopped ∧ t.suites[k].clean = true ∧ t.suites[k].scrubBytes = s.fillBytes k ∧
      (∀ c ∈ t.mem, c ∈ s.mem ∧ ∀ d i, homeOf (c.1 / 64) = some (d, i) → s.owner d ≠ some k) ∧
      (∀ c ∈ s.mem, (∀ d i, homeOf (c.1 / 64) = some (d, i) → s.owner d ≠ some k) → c ∈ t.mem) ∧
      (∀ u ∈ t.poison, u ∈ s.poison ∧ ∀ d i, homeOf u = some (d, i) → s.owner d ≠ some k)

/-- R274, R345, R387, R405: a die in service that fails leaves service with its cause, its ports DISABLED and alert bit 2 set; a die recycle that
ends in failure or takes 5 s completes the command TIMEOUT. R345, R405, R318, R320: DIE_RECYCLE of a populated die that is not the primary one,
outside an activation, stops its tasks and ports and starts it again; SCRUB records itself, stops the suite and starts the fill. Other arguments
are refused with the status the rule names. -/
def Obligations.DiesAndScrub : Prop :=
  (∀ (d : Fin 8) (cause : Fin 6) (s : State),
    (s.populated d = true → s.dies[d].inService = true → ∃ t, exec (.dieOut d cause) s = .next t ∧
      t.dies[d].inService = false ∧ t.dies[d].outCause = some cause.val ∧ t.fuses = s.fuses) ∧
    (s.dies[d].inService = false → exec (.dieOut d cause) s = .next s) ∧
    (s.dies[d].recycling = true → exec (.dieRecycleTimeout d) s = .next ((s.endRecycle d false).mbxEnd 0 .timeout []))) ∧
  (∀ (fn : Fin 9) (d k : Nat) (i : Fin 8) (s : State),
    (s.Accepts fn 0x10 → let t := s.started fn 0x10
      (t.populated d = false → exec (.dieRecycle fn d) s = .next (t.mbxEnd fn .formatError [])) ∧
      (t.populated d = true → d = t.primaryDie.val → exec (.dieRecycle fn d) s = .next (t.mbxEnd fn .accessDenied [])) ∧
      (t.populated d = true → d ≠ t.primaryDie.val → t.mgt.fwState ≠ .switching → exec (.dieRecycle fn d) s =
        .next ([(0 : Fin 2), 1].foldl (fun v q => v.startPort (fin8 d) q) ((([(0 : Fin 2), 1].foldl (fun v q => v.setPort (fin8 d) q .disabled)
          (t.abortOnDie (fin8 d))).unlatch 0 (dieOff (fin8 d)) 0x200000 |>.modDie (fin8 d) Die.recycled).afterOut (fin8 d))))) ∧
    (s.Accepts fn 0x20 → let t := s.started fn 0x20
      (8 ≤ k → exec (.scrub fn k) s = .next (t.mbxEnd fn .formatError [])) ∧
      (t.suites[i].st = .scrubbing → exec (.scrub fn i) s = .next (t.mbxEnd fn .busy [])) ∧
      (t.suites[i].st ≠ .scrubbing → t.suites[i].st ≠ .absent →
        let s1 := (t.setStatus fun x => { x with scrubPending := (i.val :: x.scrubPending).eraseDups }).abortTasks i (fun _ => true) 1
        exec (.scrub fn i) s = .next ((((s1.suites[i].tasks.map fun (x : Task) => x.h).foldl (fun v h => v.completeTask i h) s1).startFill i false).mbxEnd
          fn .done []))))

/-! ## Mailboxes, firmware and attestation -/

/-- R367 and R368: a write of MBX_CMD while BUSY is 0 latches the command; an undefined code ends FORMAT_ERROR; a command that ends writes its
results and STATUS, counts SEQ, clears BUSY and raises the mailbox vector. IDENTIFY answers the module's identity and DEBUG_UNLOCK opens boundary
scan at the next reset. R306 and R313: an owner-signed binding set that names this module's key joins the sets in force; one that does not, or
that is in force, is DONE without effect; a peer table replaces the old one; an unsigned record is ACCESS_DENIED. ROTATE_MEM starts or queues a
rotation on every stack. -/
def Obligations.MailboxAndProvision : Prop :=
  (∀ (fn : Fin 9) (code : BitVec 8) (st : Nat) (rs : List Word) (owner vendor : Bool) (key : List Word) (s : State),
    (s.mbxKind fn = none → (s.mailbox fn).busy = false →
      (code.toNat ∈ mbxCodes → exec (.mailboxUndefinedCommand fn code) s = .next (s.mbxBegin fn code)) ∧
      (code.toNat ∉ mbxCodes → exec (.mailboxUndefinedCommand fn code) s =
        .next (((s.mbxBegin fn code).modMailbox fn fun x => { x with begun := true }).mbxEnd fn .formatError []))) ∧
    ((s.mailbox fn).busy = true → (s.mailbox fn).outcome = some (st, rs) → exec (.mailboxCompletion fn) s =
      .next ((s.modMailbox fn fun y => { y with results := putResults y.results rs, status := BitVec.ofNat 8 st, seq := y.seq + 1, busy := false,
                                                begun := false, outcome := none }).raise fn (if fn.val = 0 then 1 else 2))) ∧
    (s.Accepts fn 0x01 → exec (.identify fn) s = .next ((s.started fn 0x01).mbxEnd fn .done
      [s.moduleId, loWord s.fuses.serial.toNat, hiWord s.fuses.serial.toNat, s.layoutWord])) ∧
    (s.Accepts fn 0x02 → let t := s.started fn 0x02
      (owner = true → vendor = true → key = t.fuses.devKey → exec (.debugUnlock fn owner vendor key) s =
        .next (({ t with flash := { t.flash with status := { t.flash.status with unlockNext := true } } }).mbxEnd fn .done [])) ∧
      (¬(owner = true ∧ vendor = true ∧ key = t.fuses.devKey) → exec (.debugUnlock fn owner vendor key) s = .next (t.mbxEnd fn .accessDenied [])))) ∧
  (∀ (fn : Fin 9) (k : Fin 8) (keys : List (List Byte)) (es : List (List Nat × Nat × List Byte)) (r : ProvisionRecord)
    (s : State),
    (s.Accepts fn 0x21 → let t := s.started fn 0x21
      t.suites[k].st ≠ .absent → t.suites[k].st ≠ .scrubbing →
      (exec (.provision fn k r false) s = .next (t.mbxEnd fn .accessDenied [])) ∧
      (keys ≠ [] → keys.length ≤ 64 → (∀ x ∈ keys, x.length = 97) →
        let b : BindSet := { digest := setDigest keys, keys := keys.map Config.sha384 }
        let held := t.suites[k].sets.any fun x => x.digest == b.digest
        (b.keys.contains t.ownKey = false ∨ held = true → exec (.provision fn k (.bindingSet keys) true) s = .next (t.mbxEnd fn .done [])) ∧
        (b.keys.contains t.ownKey = true → held = false → t.suites[k].sets.length < 16 → exec (.provision fn k (.bindingSet keys) true) s =
          .next ((t.modSuite k fun u => { u with sets := u.sets ++ [b] }).mbxEnd fn .done [])) ∧
        (b.keys.contains t.ownKey = true → held = false → 16 ≤ t.suites[k].sets.length →
          exec (.provision fn k (.bindingSet keys) true) s = .next (t.mbxEnd fn .formatError []))) ∧
      (es.length ≤ 64 → let new := es.map fun e => ({ coord := e.1, suite := e.2.1, digest := e.2.2 } : Peer)
        exec (.provision fn k (.peerTable es) true) s =
          .next ((t.modSuite k fun u => { u with peers := new, pairs := u.pairs.filterMap (repeer u.peers new) }).mbxEnd fn .done []))) ∧
    (s.Accepts fn 0x24 → let t := s.started fn 0x24
      t.suites[k].st ≠ .absent → t.suites[k].st ≠ .scrubbing → exec (.rotateMem fn k) s = .next ((t.rotateSuite k).mbxEnd fn .done [])))

/-- R81, R313 to R316: UNWRAP of a well-formed package for a set in force whose checks all pass writes its regions, binds them, sets the BOUND flag
of the entry and logs it; a bad chunk tag, or a plaintext without the header's digest, is ACCESS_DENIED and logged, and the regions already written
are poisoned; a package that is not trusted is ACCESS_DENIED and logged; one whose header is out of range is FORMAT_ERROR, and neither writes. -/
def Obligations.UnwrapBindsATensor : Prop :=
  ∀ (fn : Fin 9) (k : Fin 8) (tensor : Nat) (pkg : BindingPackage) (x : Tensor) (s : State), s.Accepts fn 0x22 →
    let t := s.started fn 0x22
    t.suites[k].st ≠ .absent → t.suites[k].st ≠ .scrubbing → t.tensor? k tensor = some x →
    let rs := pkgRegions x pkg.sizes
    let bs := boundWith t.suites[k].bound (rs.map fun r => (r.1, r.2.1)) pkg.setDigest
    let trusted := (t.suites[k].sets.any fun b => b.digest == pkg.setDigest) && pkg.recipients.contains t.ownKey && pkg.keyUnwrapOk &&
      (pkg.descImage.drop 2).take 42 == ((t.bytes x.at_ 64).drop 2).take 42 && decide (bs.length ≤ 1024) && rs.all fun r => t.regionOk k r.1 r.2.1
    let n := match pkg.badChunk with | some c => c * pkg.chunk | none => pkg.image.length
    (packageOk pkg = false → exec (.unwrap fn k tensor pkg) s = .next (t.mbxEnd fn .formatError [])) ∧
    (packageOk pkg = true → trusted = false → exec (.unwrap fn k tensor pkg) s = .next ((t.logUnwrapped k tensor 1 pkg.digest).mbxEnd fn .accessDenied [])) ∧
    (packageOk pkg = true → trusted = true → unwrapsWhole pkg = false → exec (.unwrap fn k tensor pkg) s =
      .next ((((t.confine k fun u => (u.writeImage rs pkg.image n).poisonWritten rs n).imageOverSlots k rs n).logUnwrapped k tensor 1 pkg.digest).mbxEnd fn
        .accessDenied [])) ∧
    (packageOk pkg = true → trusted = true → unwrapsWhole pkg = true →
      let e := pkg.digest ++ leBytes 2 tensor
      exec (.unwrap fn k tensor pkg) s = .next ((((((t.confine k fun u => u.writeImage rs pkg.image n).imageOverSlots k rs n).setEntryFlag x.at_ 1 true).modSuite
        k fun u => { u with bound := bs, tensLog := (u.tensLog.1 + 1, Config.sha384 (u.tensLog.2 ++ e)), tensEntries := u.tensEntries ++ [e] }).logUnwrapped
          k tensor 0 pkg.digest).mbxEnd fn .done []))

/-- R202, R310, R314, R317, R326: WRAP_EXPORT of a tensor bound to one set, with room in the host buffer, writes a package there and is DONE, or
POISONED where a line is; MEAS_LOG writes the log's entries; SPDM answers into the host buffer. None of them changes a byte of the module's
memory. -/
def Obligations.ExportsWriteHostMemoryOnly : Prop :=
  ∀ (fn : Fin 9) (k : Fin 8) (tensor host cap log len : Nat) (x : Tensor) (st : Struct) (set : BindSet) (d : List Byte) (s : State),
    (s.Accepts fn 0x23 → let t := s.started fn 0x23
      let rs := (t.regions x st).filter fun r => r.2 != 0
      t.suites[k].st ≠ .absent → t.suites[k].st ≠ .scrubbing → t.tensor? k tensor = some x → t.opStruct k x = .ok st →
      t.suites[k].boundSet rs = some d → (t.suites[k].sets.find? fun b => b.digest == d) = some set → (rs.all fun r => t.regionOk k r.1 r.2) = true →
      (∀ v : Nat, 0x100 + 192 * set.keys.length + (rs.flatMap t.image).length +
        16 * cdiv (rs.flatMap t.image).length (64 * (1 + Config.freeNat v % 16384)) ≤ cap) →
      ∃ u, exec (.wrapExport fn k tensor host cap) s = .next u ∧ u.mem = s.mem ∧ u.poison = s.poison ∧
        (u.mailbox fn).outcome = some ((if rs.any fun r => t.poisonIn (64 * r.1) (64 * r.2) then Status.poisoned else Status.done).code, [])) ∧
    (s.Accepts fn 0x26 → let t := s.started fn 0x26
      let bs := (if log = 0 then t.suites[k].progEntries else t.suites[k].tensEntries).flatten
      log ≤ 1 → t.suites[k].st ≠ .absent → bs.length ≤ cap →
      exec (.measLog fn k log host cap) s = .next ((t.hostWrite host bs).mbxEnd fn .done [])) ∧
    (s.Accepts fn 0x25 → ∃ u bs, exec (.spdm fn host len) s = .next u ∧ bs.length ≤ len ∧ u.host = memPut s.host host bs ∧ u.mem = s.mem ∧
      (u.mailbox fn).outcome = some (Status.done.code, []))

/-- R337 to R340, R350, R353: a trusted package of a legal form goes into the inactive slot of its class and is logged; one that is not trusted is
ACCESS_DENIED, one of a bad form FORMAT_ERROR. FW_UNSTAGE removes it in state STAGED. -/
def Obligations.FirmwareStaging : Prop :=
  ∀ (fn : Fin 9) (img : FwImage) (cls : Nat) (s : State),
    (s.Accepts fn 0x30 → let t := s.started fn 0x30
      let slot := !flagOf t.flash.status.slotB img.cls
      let t1 := t.putFw img.cls slot (some img)
      let t2 := if t.mgt.stage = .maintenance then
          t1.setStatus fun x => { x with slotB := x.slotB.set (img.cls - 1) slot, trial := x.trial.set (img.cls - 1) true }
        else (t1.setStatus fun x => { x with staged := x.staged.set (img.cls - 1) true }).setFwState .staged
      t.mgt.fwState = .idle ∨ t.mgt.fwState = .staged →
      (fwForm img = false → exec (.fwStage fn img) s = .next (t.mbxEnd fn .formatError [])) ∧
      (fwForm img = true → t.fwTrusted img = false → exec (.fwStage fn img) s = .next (t.mbxEnd fn .accessDenied [])) ∧
      (fwForm img = true → t.fwTrusted img = true → (t.mgt.stage = .ready → t1.orderOk (img.cls :: classesOf t.flash.status.staged) updateOrder = true) →
        exec (.fwStage fn img) s = .next ((t2.mgtEvent 0x1A0 0xFF 0 (pack [(1, img.cls), (1, b2n slot), (2, 0), (4, img.version), (4, img.secver),
          (4, 0)])).mbxEnd fn .done []))) ∧
    (s.Accepts fn 0x34 → let t := s.started fn 0x34
      let t1 := (t.putFw cls (!flagOf t.flash.status.slotB cls) none).setStatus fun x => { x with staged := x.staged.set (cls - 1) false }
      t.mgt.fwState = .staged → 1 ≤ cls → cls ≤ 5 → flagOf t.flash.status.staged cls = true →
      exec (.fwUnstage fn cls) s = .next ((if (classesOf t1.flash.status.staged).isEmpty then t1.setFwState .idle else t1).mbxEnd fn .done []))

/-- R339, R341, R342, R348: FW_ACTIVATE of staged classes and FW_REVERT of TRIAL ones arm the switch at a time, at least 100 ms ahead, or start it
hitless, where the primer image allows it and the windows hold; at the time, with no suite RUNNING or DRAINING, every class switches in order and
the ports retrain, else the activation is withheld and logged. R342 and R343: a processor of the switching class hands over, a management controller
while no mailbox command runs and a Pyrhoax core in its turn; a handover that takes too long switches back the classes already switched, logs
FW_WITHHELD and ends the activation. -/
def Obligations.FirmwareActivation : Prop :=
  (∀ (fn : Fin 9) (time : Nat) (s : State),
    (s.Accepts fn 0x31 → let t := s.started fn 0x31
      exec (.fwActivateScheduled fn time) s = .next (t.mayActivate fn fun v => v.arm fn false time) ∧
      exec (.fwActivateHitless fn) s = .next (t.mayActivate fn fun v => v.startHitless fn false) ∧
      (∀ p, t.mgt.fwState = .staged → t.primer = some p → t.windowsHold false = true →
        (p.scheduledEn = true → t.clk.time + armLead ≤ time → time < 2 ^ 64 → exec (.fwActivateScheduled fn time) s =
          .next (((t.modMgt fun m => { m with fwMode := 0, fwRevert := false, fwTime := BitVec.ofNat 64 time }).setFwState .armed).mbxEnd fn .done [])) ∧
        (p.hitlessEn = true → exec (.fwActivateHitless fn) s =
          let u := (t.modMgt fun m => { m with fwMode := 1, fwRevert := false, fwSwitched := [] }).setFwState .switching
          .next ((u.nextClass false (u.moving false)).mbxEnd fn .done [])))) ∧
    (s.Accepts fn 0x33 → let t := s.started fn 0x33
      t.mgt.fwState = .trial → classesOf t.flash.status.trial ≠ [] →
      exec (.fwRevert fn 0 time) s = .next (t.arm fn true time) ∧ exec (.fwRevert fn 1 time) s = .next (t.startHitless fn true) ∧
      (∀ p, t.primer = some p → p.scheduledEn = true → t.clk.time + armLead ≤ time → time < 2 ^ 64 → t.windowsHold true = true →
        exec (.fwRevert fn 0 time) s =
          .next (((t.modMgt fun m => { m with fwMode := 0, fwRevert := true, fwTime := BitVec.ofNat 64 time }).setFwState .armed).mbxEnd fn .done []))) ∧
    (s.mgt.fwState = .armed → s.mgt.fwTime.toNat ≤ s.clk.time →
      let s1 := s.modMgt fun x => { x with fwTime := 0 }
      ((s.suites.toList.any fun u => u.st == .running || u.st == .draining) = true → exec .scheduledActivation s =
        .next ((s1.mgtEvent 0x1A2 0xFF 0 (pack [(1, 0), (1, 0), (2, 0), (8, s.clk.time), (4, 0)])).setFwState
          (if s.mgt.fwRevert then .trial else .staged))) ∧
      ((s.suites.toList.any fun u => u.st == .running || u.st == .draining) = false → exec .scheduledActivation s =
        .next (((List.finRange 16).foldl (fun t p =>
          if (t.port (fin8 (p.val / 2)) (Fin.ofNat 2 (p.val % 2))).st = .active then t.retrain (fin8 (p.val / 2)) (Fin.ofNat 2 (p.val % 2)) else t)
          ((s1.moving s.mgt.fwRevert).foldl (fun t c => (t.switchClass c s.mgt.fwRevert).logSwitched c 0 s.mgt.fwRevert)
            (s1.setFwState .switching))).setFwState (doneState s.mgt.fwRevert))))) ∧
  (∀ (proc : Nat) (s : State),
    let s1 := s.mgt.fwSwitched.reverse.foldl (fun t c => (t.switchClass c (!s.mgt.fwRevert)).logSwitched c s.mgt.fwMode (!s.mgt.fwRevert)) s
    let s2 := s1.mgtEvent 0x1A2 0xFF 0 (pack [(1, 1), (1, s.mgt.fwClass), (2, 0), (8, s.clk.time), (4, 0)])
    ((s.mgt.fwClass = 1 → s.mgt.fwPending.head? = some proc) → (s.mgt.fwClass = 2 → s.mailboxRuns = false) →
      exec (.hitlessHandover proc) s = .next (s.handedOver (· == proc))) ∧
    (s.mgt.fwClass = 2 → s.mailboxRuns = true → exec (.hitlessHandover proc) s = .next s) ∧
    (s.mgt.fwState = .switching → s.mgt.fwPending.contains proc = true → exec (.handoverTimeout proc) s =
      .next (({ s2 with sec := { s2.sec with updStep := false } }.modMgt fun x => { x with fwClass := 0, fwPending := [], fwSwitched := [] }).setFwState
        (if s.mgt.fwRevert then .trial else .staged))))

/-- R347, R332, R333, R351, R353: FW_CONFIRM ends the trial and advances the rollback counters; PRIMER_STAGE writes the spare slot, and one owner
slot for its record; PRIMER_SELECT names the slot the next reset reads; RECOVERY_LOAD writes a Pyrhoax image and starts the module again. -/
def Obligations.ConfirmPrimerAndRecovery : Prop :=
  ∀ (fn : Fin 9) (img : FwImage) (pr : Primer) (record : Option OwnerRecord) (slot : Nat) (dev0 : Bool) (s : State),
    (s.Accepts fn 0x32 → let t := s.started fn 0x32
      t.mgt.fwState = .trial ∨ t.mgt.fwState = .idle → classesOf t.flash.status.staged = [] → ∃ u, exec (.fwConfirm fn) s = .next u ∧
        u.mgt.fwState = .idle ∧ u.flash.status.trial = List.replicate 5 false ∧ t.fuses.Grown u.fuses ∧
        (∀ c ∈ classesOf t.flash.status.trial, ∀ i, t.fwRun c = some i → c - 1 < t.fuses.rollback.length → i.secver ≤ u.fuses.rollback.getD (c - 1) 0)) ∧
    (s.Accepts fn 0x35 → let t := s.started fn 0x35
      let owner := match record with | some r => some r.newOwner | none => t.ownerDigest
      t.primerForm pr = true → t.primerTrusted pr owner = true → record.all t.recordOk = true → ∃ u, exec (.primerStage fn pr record) s = .next u ∧
        u.fuses = { t.fuses with ownerSlots := t.fuses.ownerSlots ++ (record.map fun (r : OwnerRecord) => r.newOwner).toList } ∧
        (if t.primerSpare then u.flash.primerB = some pr ∧ u.flash.primerA = t.flash.primerA
         else u.flash.primerA = some pr ∧ u.flash.primerB = t.flash.primerB) ∧
        u.flash.status.primerB = t.primerSpare ∧ u.flash.status.primerTrial = true ∧ (u.mailbox fn).outcome = some (Status.done.code, [])) ∧
    (s.Accepts fn 0x36 → slot ≤ 1 → exec (.primerSelect fn slot) s =
      .next (((s.started fn 0x36).setStatus fun x => { x with primerB := slot == 1 }).mbxEnd fn .done [])) ∧
    (s.Accepts fn 0x37 → let t := s.started fn 0x37
      fwForm img = true → img.cls = 1 → t.fwTrusted img = true →
      let t1 := (t.putFw 1 (!dev0) (some img)).setStatus fun x => { x with slotB := x.slotB.set 0 (!dev0) }
      exec (.recoveryLoad fn img dev0) s = .next { t1.fresh with
        power := { Power.reset with vinOk48 := t.power.vinOk48, strapDie1 := t.power.strapDie1, smbAddr := t.power.smbAddr } })

/-! ## Health, temperature, power and service interfaces -/

/-- R389, R388, R382, R391: the oldest retirement waiting goes into the record while it has room; a withheld one whose resource is in service is
logged again; a day's samples join the fits, whose prediction and warnings follow. R192, R399, R402, R403: a sensor at 108 °C trips; below it each
die's thermal factor and each stack's refresh rate follow their sensors. The readings of a power tick are the registers' values, and above the cap
for 10 ms every die falls by one step with CAPPED set. -/
def Obligations.HealthThermalAndPower : Prop :=
  (∀ (e : RetEntry) (es : List RetEntry) (samples : List AgeSample) (others : List Crossing) (days : Nat) (s : State),
    (s.hlt.pendingRecs = e :: es → let t := { s with hlt := { s.hlt with pendingRecs := es } }
      exec .retirementRecordWrite s =
        .next (if 4096 ≤ t.flash.status.retired.length then t else t.setStatus fun x => { x with retired := x.retired ++ [e] })) ∧
    (s.hlt.pendingRecs = [] → exec .retirementRecordWrite s = .next s) ∧
    exec .retiredRelog s = .next ((s.hlt.withheld.filter fun x => s.inUse x.1).foldl (fun t x => t.withholdRet x.1 (t.leftOf x.1)) s) ∧
    (let s1 := samples.foldl (fun t a => t.addSample days a) (s.setStatus fun x => { x with days := days })
     exec (.ageingSample samples others days) s = .next ((s1.setEol (s1.firstCross days others)).warnPairs others))) ∧
  (∀ (js : List Nat) (ts : List (List Nat)) (r : PowerReading) (s : State), s.power.phase = .on →
    let hot := fun (d : Fin 8) => decide (108 ≤ js.getD d.val 0) || (ts.getD d.val []).any fun t => decide (108 ≤ t)
    ((∃ d : Fin 8, s.populated d = true ∧ hot d = true) → exec (.thermalTick js ts) s = .next s.trip) ∧
    ((∀ d : Fin 8, s.populated d = true → hot d = false) → ∃ t, exec (.thermalTick js ts) s = .next t ∧ ∀ (d : Fin 8) (i : Fin 12),
      s.populated d = true → (t.stack d i).temp = (ts.getD d.val []).getD i.val 0 ∧
        (t.stack d i).refresh2x = decide (85 < (ts.getD d.val []).getD i.val 0) ∧
        t.power.kTherm[d] = thermalK s.power.kTherm[d] (s.kLeast d) (js.getD d.val 0)) ∧
    (∃ t, exec (.powerControlTick r) s = .next t ∧ t.power.vin = reading r.vin ∧ t.power.iin = reading r.iin ∧
      t.power.moduleW = reading r.moduleDraw ∧ t.power.holdup = decide (46000 ≤ r.vin) ∧ t.mem = s.mem ∧ t.suites = s.suites) ∧
    (10 ≤ s.power.overMs → exec .moduleCapEnforce s =
      .next (({ s with power := { s.power with kModule := min 31 (s.power.kModule + 1), capped := true } }.throttle).alert 3)) ∧
    (s.power.overMs < 10 → exec .moduleCapEnforce s = .next s))

/-- R369: a refresh takes one snapshot, and each block read answers its part of it; ALERT_STATUS clears the bits written 1 and ALERT_MASK takes
the value, each only with a good PEC. R370 and R371: an instruction selects its register on the TAP of its die, EXTEST and its two AC forms with
the cells driving the pins; TRST_N resets every TAP of the chain. R309, R311, R356: each request over the DOE mailbox of a function leaves its
response there: the version, capabilities, algorithms, the digests and the certificate of slot 0, CHALLENGE_AUTH with the requester's nonce, and
the measurements of one snapshot, or ResponseNotReady while an update step runs. The response codes are the SPDM specification's (log 33). -/
def Obligations.ServiceInterfaces : Prop :=
  (∀ (js : List Nat) (v : Byte) (s : State),
    exec (.smbusSnapshotRefresh js) s = .next { s with smbus := { s.smbus with
      id := s.smbId, status := s.smbStatus, temps := s.smbTemps js, power := s.smbPower, health := s.smbHealth } } ∧
    exec .smbusId s = .next (s.smbAnswer s.smbus.id) ∧ exec .smbusStatus s = .next (s.smbAnswer s.smbus.status) ∧
    exec .smbusTemps s = .next (s.smbAnswer s.smbus.temps) ∧ exec .smbusPower s = .next (s.smbAnswer s.smbus.power) ∧
    exec .smbusHealth s = .next (s.smbAnswer s.smbus.health) ∧
    (∀ pec, exec (.alertStatus none pec) s = .next (s.smbAnswer [BitVec.ofNat 8 s.smbus.alert.toNat]) ∧
      exec (.alertMask none pec) s = .next (s.smbAnswer [BitVec.ofNat 8 s.smbus.mask.toNat])) ∧
    exec (.alertStatus (some v) true) s = .next { s with smbus := { s.smbus with alert := s.smbus.alert &&& ~~~(BitVec.ofNat 5 v.toNat) } } ∧
    exec (.alertMask (some v) true) s = .next { s with smbus := { s.smbus with mask := BitVec.ofNat 5 v.toNat } } ∧
    exec (.alertStatus (some v) false) s = .next s ∧ exec (.alertMask (some v) false) s = .next s) ∧
  (∀ (d : Fin 8) (cells : List Bool) (s : State),
    exec (.tapIdcode d) s = .next (s.selectTap d .idcode [] false) ∧ exec (.tapBypass d) s = .next (s.selectTap d .bypass [] false) ∧
    exec (.tapSamplePreload d cells) s = .next (s.selectTap d .samplePreload cells false) ∧
    exec (.tapExtest d cells) s = .next (s.selectTap d .extest cells true) ∧
    exec (.tapExtestPulse d cells) s = .next (s.selectTap d .extestPulse cells true) ∧
    exec (.tapExtestTrain d cells) s = .next (s.selectTap d .extestTrain cells true) ∧
    exec .tapReset s = .next { s with taps := Vector.replicate 8 .reset }) ∧
  (∀ (fn : Fin 9) (index slot : Nat) (a b : Bool) (nonce : List Byte) (x : Nat × Nat) (s : State),
    exec (.doeAbort fn) s = .next { s with doe := s.doe.set fn { ready := false, response := [], payload := [] } } ∧
    exec (.doeDiscovery fn index) s =
      .next (s.doeAnswer fn (match index with | 0 => [1, 0, 1] | 1 => [1, 1, 0] | _ => [0xFFFF, 0, 0]) []) ∧
    exec (.getVersion fn) s = .next (s.doeAnswer fn [0x04, 0x12] []) ∧ exec (.getCapabilities fn) s = .next (s.doeAnswer fn [0x61, 0x16] []) ∧
    exec (.negotiateAlgorithms fn a b) s = .next (s.doeAnswer fn [0x63, b2n a, b2n b] []) ∧
    exec (.getDigests fn) s = .next (s.doeAnswer fn [0x01, 1] (Config.sha384 Config.certChain)) ∧
    exec (.getCertificate fn slot) s = .next (if slot = 0 then s.doeAnswer fn [0x02, 0] Config.certChain else s.doeAnswer fn [0x7F, 0x01] []) ∧
    (let own := s.freeBytes 32
     let sig := own.2.sign
     exec (.challenge fn nonce) s = .next (sig.2.doeAnswer fn [0x03, 0]
       (Config.sha384 Config.certChain ++ nonce ++ own.1 ++ Config.sha384 (s.blocks fn 0xFF) ++ sig.1))) ∧
    (s.deferred = false → exec (.getMeasurements fn index) s = .next (s.measure fn index)) ∧
    (s.deferred = true → exec (.getMeasurements fn index) s = .next ((s.doeAnswer fn [0x7F, 0x42, 20] []).modMgt fun m =>
      { m with deferredSpdm := (fn.val, index) :: m.deferredSpdm.filter fun y => y.1 != fn.val })) ∧
    ((s.mgt.deferredSpdm.find? fun y => y.1 == fn.val) = some x → s.deferred = false → exec (.respondIfReady fn) s =
      .next ((s.modMgt fun m => { m with deferredSpdm := m.deferredSpdm.filter fun y => y.1 != fn.val }).measure fn x.2)) ∧
    ((s.mgt.deferredSpdm.find? fun y => y.1 == fn.val) = none → exec (.respondIfReady fn) s = .next (s.doeAnswer fn [0x7F, 0x04] [])))

end
end

