-- ==== Sys2Proof/Laws/Memory.lean ====
section
/-! SUPPORT. Laws of the sparse memory and of the list of poisoned lines: reading after writing, and that writing keeps the canonical
form. -/

namespace Sys2Proof.Machine

variable {β : Type} [DecidableEq β]

theorem swfFrom_weaken (d : β) {lo : Option Nat} {m : List (Nat × β)} (h : swfFrom d lo m = true) : swfFrom d none m = true := by
  cases m with
  | nil => rfl
  | cons x l =>
    obtain ⟨k, v⟩ := x
    cases lo <;> simp_all [swfFrom]

theorem swfFrom_lower (d : β) {b c : Nat} (hbc : b ≤ c) {m : List (Nat × β)} (h : swfFrom d (some c) m = true) :
    swfFrom d (some b) m = true := by
  cases m with
  | nil => rfl
  | cons x l =>
    obtain ⟨k, v⟩ := x
    simp only [swfFrom, Bool.and_eq_true, decide_eq_true_eq] at h ⊢
    exact ⟨⟨by omega, h.1.2⟩, h.2⟩

/-- A key at or below the lower bound of a canonical map is unlisted. -/
theorem sget_below (d : β) {m : List (Nat × β)} {lo k : Nat} (h : swfFrom d (some lo) m = true) (hk : k ≤ lo) : sget d m k = d := by
  induction m generalizing lo with
  | nil => rfl
  | cons x l ih =>
    obtain ⟨j, v⟩ := x
    simp only [swfFrom, Bool.and_eq_true, decide_eq_true_eq] at h
    have hj : ¬ j = k := by omega
    simp only [sget, hj, if_false]
    exact ih h.2 (by omega)

theorem sput_from (d : β) {m : List (Nat × β)} {lo : Option Nat} (k : Nat) (v : β) (h : swfFrom d lo m = true)
    (hk : ∀ l, lo = some l → l < k) : swfFrom d lo (sput d m k v) = true := by
  induction m generalizing lo with
  | nil =>
    simp only [sput]
    split
    · rfl
    · cases lo <;> simp_all [swfFrom]
  | cons x l ih =>
    obtain ⟨j, w⟩ := x
    have hl : swfFrom d (some j) l = true := by
      cases lo <;> simp_all [swfFrom]
    have hw : w ≠ d := by cases lo <;> simp_all [swfFrom]
    simp only [sput]
    split
    · split
      · exact h
      · cases lo <;> simp_all [swfFrom]
    · split
      · subst_vars
        split
        · cases lo with
          | none => exact swfFrom_weaken d hl
          | some b => exact swfFrom_lower d (by simp_all; omega) hl
        · cases lo <;> simp_all [swfFrom]
      · have := ih (lo := some j) hl (by intro q hq; cases hq; omega)
        cases lo <;> simp_all [swfFrom]

/-- A write keeps the canonical form. -/
theorem sput_wf (d : β) {m : List (Nat × β)} (k : Nat) (v : β) (h : swfFrom d none m = true) : swfFrom d none (sput d m k v) = true :=
  sput_from d k v h (by intro l hl; cases hl)

theorem sget_sput_from (d : β) {m : List (Nat × β)} {lo : Option Nat} (k j : Nat) (v : β) (h : swfFrom d lo m = true) :
    sget d (sput d m k v) j = if j = k then v else sget d m j := by
  induction m generalizing lo with
  | nil =>
    by_cases hv : v = d
    · simp [sput, sget, hv]
    · simp [sput, sget, hv, eq_comm (a := k)]
  | cons x l ih =>
    obtain ⟨i, w⟩ := x
    have hl : swfFrom d (some i) l = true := by cases lo <;> simp_all [swfFrom]
    rcases Nat.lt_trichotomy k i with hki | hki | hki
    · by_cases hv : v = d
      · by_cases hj : j = k
        · have hij : ¬ i = j := by omega
          simp [sput, sget, hki, hv, hj, sget_below d hl (Nat.le_of_lt hki)]
          omega
        · simp [sput, hki, hv, hj]
      · by_cases hj : j = k
        · simp [sput, sget, hki, hv, hj]
        · have hkj : ¬ k = j := fun e => hj e.symm
          simp [sput, sget, hki, hv, hj, hkj]
    · subst hki
      by_cases hv : v = d
      · by_cases hj : j = k
        · simp [sput, hv, hj, sget_below d hl (Nat.le_refl _)]
        · have hkj : ¬ k = j := fun e => hj e.symm
          simp [sput, sget, hv, hj, hkj]
      · by_cases hj : j = k
        · simp [sput, sget, hv, hj]
        · have hkj : ¬ k = j := fun e => hj e.symm
          simp [sput, sget, hv, hj, hkj]
    · have h1 : ¬ k < i := by omega
      have h2 : ¬ k = i := by omega
      simp only [sput, h1, h2, if_false, sget]
      by_cases hi : i = j
      · have h3 : ¬ j = k := by omega
        simp [hi, h3]
      · simp only [hi, if_false]
        exact ih hl

/-- Reading after a write: the written key has the value, every other key what it had. -/
theorem sget_sput (d : β) {m : List (Nat × β)} (k j : Nat) (v : β) (h : swfFrom d none m = true) :
    sget d (sput d m k v) j = if j = k then v else sget d m j := sget_sput_from d k j v h

theorem swfFrom_filter (d : β) (p : Nat × β → Bool) {m : List (Nat × β)} {lo : Option Nat} (h : swfFrom d lo m = true) :
    swfFrom d lo (m.filter p) = true := by
  induction m generalizing lo with
  | nil => exact h
  | cons x l ih =>
    obtain ⟨i, w⟩ := x
    have hl : swfFrom d (some i) l = true := by cases lo <;> simp_all [swfFrom]
    by_cases hp : p (i, w) = true
    · rw [List.filter_cons_of_pos hp]
      have := ih hl
      cases lo <;> simp_all [swfFrom]
    · rw [List.filter_cons_of_neg hp]
      have := ih hl
      cases lo with
      | none => exact swfFrom_weaken d this
      | some b => exact swfFrom_lower d (by simp_all [swfFrom]; omega) this

/-- Dropping entries keeps the canonical form. -/
theorem wf_filter (p : Host.Cell → Bool) {m : List Host.Cell} (h : Memory.wf m = true) : Memory.wf (m.filter p) = true :=
  swfFrom_filter _ p h

/-- Writing bytes keeps the canonical form. -/
theorem memPut_wf {m : List Host.Cell} (a : Nat) (bs : List Byte) (h : Memory.wf m = true) : Memory.wf (memPut m a bs) = true := by
  induction bs generalizing m a with
  | nil => exact h
  | cons b l ih => exact ih (a + 1) (sput_wf _ a b h)

/-- Reading a byte after writing bytes: inside the written range the written byte, outside it what was there. -/
theorem sget_memPut {m : List Host.Cell} (a : Nat) (bs : List Byte) (j : Nat) (h : Memory.wf m = true) :
    sget 0 (memPut m a bs) j = if a ≤ j ∧ j < a + bs.length then bs.getD (j - a) 0 else sget 0 m j := by
  induction bs generalizing m a with
  | nil =>
    have : ¬ (a ≤ j ∧ j < a + ([] : List Byte).length) := by simp
    simp only [memPut, this, if_false]
  | cons b l ih =>
    rw [memPut, ih (a + 1) (sput_wf _ a b h), sget_sput _ a j b h]
    by_cases h1 : j = a
    · subst h1
      have h2 : ¬ (j + 1 ≤ j ∧ j < j + 1 + l.length) := by omega
      have h3 : j ≤ j ∧ j < j + (b :: l).length := by simp
      simp only [h2, h3, and_self, if_true, if_false, Nat.sub_self, List.getD_cons_zero]
    · by_cases h2 : a + 1 ≤ j ∧ j < a + 1 + l.length
      · have h3 : a ≤ j ∧ j < a + (b :: l).length := by simp; omega
        have h4 : j - a = (j - (a + 1)) + 1 := by omega
        simp only [h2, h3, h4, and_self, if_true, List.getD_cons_succ]
      · have h3 : ¬ (a ≤ j ∧ j < a + (b :: l).length) := by simp; omega
        simp only [h2, h3, h1, if_false]

/-- Putting cells back keeps the canonical form. -/
theorem cellsBack_wf {m : List Host.Cell} (l : List Host.Cell) (h : Memory.wf m = true) : Memory.wf (cellsBack m l) = true := by
  induction l generalizing m with
  | nil => exact h
  | cons c l ih => exact ih (sput_wf _ c.1 c.2 h)

/-- Reading after dropping entries by their key. -/
theorem sget_filter (d : β) (p : Nat → Bool) {m : List (Nat × β)} {lo : Option Nat} (j : Nat) (h : swfFrom d lo m = true) :
    sget d (m.filter fun c => p c.1) j = if p j = true then sget d m j else d := by
  induction m generalizing lo with
  | nil => simp [sget]
  | cons x l ih =>
    obtain ⟨i, w⟩ := x
    have hl : swfFrom d (some i) l = true := by cases lo <;> simp_all [swfFrom]
    by_cases hi : i = j
    · subst hi
      by_cases hp : p i = true
      · simp [hp, sget]
      · have := sget_below d hl (Nat.le_refl i)
        simp [hp, ih hl]
    · by_cases hp : p i = true <;> simp [hp, sget, hi, ih hl]

/-- An entry's key is not listed again. -/
theorem sget_head (d : β) {i : Nat} {w : β} {l : List (Nat × β)} (h : swfFrom d none ((i, w) :: l) = true) : sget d l i = d :=
  sget_below d (by simp_all [swfFrom]) (Nat.le_refl i)

/-- Reading after putting cells back: a cell's byte where one is listed, what was there elsewhere. -/
theorem sget_cellsBack {m l : List Host.Cell} (j : Nat) (h : Memory.wf m = true) (hl : Memory.wf l = true) :
    sget 0 (cellsBack m l) j = if sget 0 l j = 0 then sget 0 m j else sget 0 l j := by
  induction l generalizing m with
  | nil => simp [cellsBack, sget]
  | cons c l ih =>
    obtain ⟨i, w⟩ := c
    have hw : ¬ w = 0 := by simp_all [Memory.wf, swfFrom]
    have h2 : Memory.wf l = true := swfFrom_weaken 0 (lo := some i) (by simp_all [Memory.wf, swfFrom])
    have h3 : cellsBack m ((i, w) :: l) = cellsBack (sput 0 m i w) l := rfl
    rw [h3, ih (sput_wf 0 i w h) h2, sget_sput 0 i j w h]
    by_cases hi : i = j
    · subst hi
      have e : sget 0 ((i, w) :: l) i = w := by simp [sget]
      rw [if_pos (sget_head 0 hl), if_pos rfl, e, if_neg hw]
    · have e : sget 0 ((i, w) :: l) j = sget 0 l j := by simp [sget, hi]
      rw [e]
      split
      · rw [if_neg fun x => hi x.symm]
      · rfl

theorem rising_tail {a : Nat} {l : List Nat} (h : rising (a :: l) = true) : rising l = true := by
  cases l with
  | nil => rfl
  | cons b l => simp_all [rising]

theorem rising_cons {a : Nat} {l : List Nat} (h : rising l = true) (hb : ∀ x ∈ l, a < x) : rising (a :: l) = true := by
  cases l with
  | nil => rfl
  | cons b l => simp_all [rising]

theorem rising_head {a : Nat} {l : List Nat} (h : rising (a :: l) = true) : ∀ x ∈ l, a < x := by
  induction l generalizing a with
  | nil => simp
  | cons b l ih =>
    intro x hx
    simp only [rising, Bool.and_eq_true, decide_eq_true_eq] at h
    rcases List.mem_cons.1 hx with rfl | hm
    · exact h.1
    · exact Nat.lt_trans h.1 (ih h.2 x hm)

theorem rising_filter (p : Nat → Bool) {l : List Nat} (h : rising l = true) : rising (l.filter p) = true := by
  induction l with
  | nil => rfl
  | cons a l ih =>
    by_cases hp : p a = true
    · rw [List.filter_cons_of_pos hp]
      exact rising_cons (ih (rising_tail h)) fun x hx => rising_head h x (List.mem_filter.1 hx).1
    · rw [List.filter_cons_of_neg hp]
      exact ih (rising_tail h)

theorem mem_poisonIns {l : List Nat} {u x : Nat} : x ∈ poisonIns l u ↔ x = u ∨ x ∈ l := by
  induction l with
  | nil => simp [poisonIns]
  | cons v l ih =>
    simp only [poisonIns]
    split
    · simp
    · split
      · subst_vars
        simp
      · simp only [List.mem_cons, ih]
        exact or_left_comm

theorem poisonIns_rising (u : Nat) {l : List Nat} (h : rising l = true) : rising (poisonIns l u) = true := by
  induction l with
  | nil => rfl
  | cons v l ih =>
    simp only [poisonIns]
    split
    · simp_all [rising]
    · split
      · exact h
      · refine rising_cons (ih (rising_tail h)) fun x hx => ?_
        rcases mem_poisonIns.1 hx with rfl | hm
        · omega
        · exact rising_head h x hm

theorem foldl_poisonIns_rising (us : List Nat) {l : List Nat} (h : rising l = true) : rising (us.foldl poisonIns l) = true := by
  induction us generalizing l with
  | nil => exact h
  | cons u us ih => exact ih (poisonIns_rising u h)

theorem mem_foldl_poisonIns {us l : List Nat} {x : Nat} : x ∈ us.foldl poisonIns l ↔ x ∈ us ∨ x ∈ l := by
  induction us generalizing l with
  | nil => simp
  | cons u us ih =>
    rw [List.foldl_cons, ih, mem_poisonIns, List.mem_cons]
    exact ⟨fun h => h.elim (fun h => .inl (.inr h)) fun h => h.elim (fun h => .inl (.inl h)) .inr,
      fun h => h.elim (fun h => h.elim (fun h => .inr (.inl h)) .inl) fun h => .inr (.inr h)⟩

/-! ### What a requester of one suite leaves (R195) -/

/-- A byte after a merge: the requester's where the suite may request its line, what was there elsewhere. -/
theorem State.merge_byte {s t : State} (k : Fin 8) (a : Nat) (hs : Memory.wf s.mem = true) (ht : Memory.wf t.mem = true) :
    (s.merge k t).byte a = if s.reachable k (a / 64) = true then t.byte a else s.byte a := by
  have e1 : t.mem.filter (s.cellIn k) = t.mem.filter fun c => (fun a => s.reachable k (a / 64)) c.1 := rfl
  have e2 : (s.mem.filter fun c => !s.cellIn k c) = s.mem.filter fun c => (fun a => !s.reachable k (a / 64)) c.1 := rfl
  unfold State.byte State.merge
  rw [sget_cellsBack a (wf_filter _ ?_) (wf_filter _ ?_), e1, e2,
    sget_filter 0 (fun a => s.reachable k (a / 64)) a ht, sget_filter 0 (fun a => !s.reachable k (a / 64)) a hs]
  · cases s.reachable k (a / 64)
    · simp only [Bool.not_false, if_true, if_neg (Bool.false_ne_true)]
      split
      · rename_i h
        exact h.symm
      · rfl
    · simp
  all_goals assumption

/-- A marker after a merge. -/
theorem State.merge_poisoned (s t : State) (k : Fin 8) (u : Nat) :
    (s.merge k t).poisoned u = if s.reachable k u = true then t.poisoned u else s.poisoned u := by
  have h : ∀ x : State, x.poisoned u = decide (u ∈ x.poison) := fun x => by simp [State.poisoned]
  rw [h, h, h]
  have h2 : (s.merge k t).poison = (s.poison.filter fun u => !s.reachable k u).foldl poisonIns (t.poison.filter (s.reachable k)) := rfl
  rw [h2]
  cases hr : s.reachable k u <;> simp [mem_foldl_poisonIns, hr]

/-- A line that a suite may not request keeps its bytes and its marker, whatever a requester of the suite does (R195). -/
theorem State.confine_foreign {s : State} (k : Fin 8) {f : State → State} {u : Nat} (hs : s.inv) (hf : (f (s.view k)).inv)
    (h : s.reachable k u = false) : (∀ a, a / 64 = u → (s.confine k f).byte a = s.byte a) ∧ (s.confine k f).poisoned u = s.poisoned u := by
  refine ⟨fun a ha => ?_, ?_⟩
  · rw [State.confine, State.merge_byte k a hs.1.1 hf.1.1, ha, h]
    simp
  · rw [State.confine, State.merge_poisoned, h]
    simp

end Sys2Proof.Machine
end

