-- ==== Sys2Proof/Laws/Keeps.lean ====
section
/-! SUPPORT. The laws of `Keeps`: it is reflexive and transitive, an update of any field but the memory, the lists and the counters keeps it,
and so do the primitive writes. -/

namespace Sys2Proof.Machine

theorem Fuses.Grown.refl (f : Fuses) : f.Grown f := ⟨rfl, fun _ => Nat.le_refl _, List.prefix_refl _⟩

theorem Fuses.Grown.trans {f g h : Fuses} (x : f.Grown g) (y : g.Grown h) : f.Grown h := by
  refine ⟨?_, fun i => Nat.le_trans (x.2.1 i) (y.2.1 i), x.2.2.trans y.2.2⟩
  have hx := x.1
  have hy := y.1
  rw [← hy] at hx
  exact hx

/-- A rollback counter that is raised, and slots that are appended, only blow fuses. -/
theorem Fuses.raise_grown {f g : Fuses} (i v : Nat) (h : f.Grown g) : f.Grown (g.raise i v) := by
  refine ⟨h.1, fun j => Nat.le_trans (h.2.1 j) ?_, h.2.2⟩
  simp only [Fuses.raise, List.getD_eq_getElem?_getD, List.getElem?_set]
  by_cases hj : i = j
  · subst hj
    by_cases hl : i < g.rollback.length
    · simp [hl]
    · simp [hl]
  · simp [hj]

theorem foldl_grown {f g : Fuses} {β : Type} {l : List β} {r : Fuses → β → Fuses} (h : f.Grown g) (hr : ∀ u x, f.Grown u → f.Grown (r u x)) :
    f.Grown (l.foldl r g) := by
  induction l generalizing g with
  | nil => exact h
  | cons x l ih => exact ih (hr g x h)

theorem Fuses.slots_grown {f g : Fuses} (l : List (List Byte)) (h : f.Grown g) : f.Grown { g with ownerSlots := g.ownerSlots ++ l } :=
  ⟨h.1, h.2.1, h.2.2.trans (List.prefix_append _ _)⟩

theorem Keeps.refl {quiet : Bool} (s : State) : Keeps quiet s s := ⟨id, rfl, Nat.le_refl _, Nat.le_refl _, Fuses.Grown.refl _, fun _ => ⟨rfl, rfl⟩⟩

theorem Keeps.trans {quiet : Bool} {a b c : State} (h : Keeps quiet a b) (k : Keeps quiet b c) : Keeps quiet a c :=
  ⟨fun x => k.inv (h.inv x), k.pending.trans h.pending, Nat.le_trans h.keyGen k.keyGen, Nat.le_trans h.free k.free,
    h.fuses.trans k.fuses, fun q => ⟨(k.still q).1.trans (h.still q).1, (k.still q).2.trans (h.still q).2⟩⟩

/-- An update of the management registers, the dies, the suites and the messages sent. -/
theorem keeps_upd {quiet : Bool} {a s : State} {f5 f8 f11 f12 f14} :
    Keeps quiet a ⟨s.fuses, s.flash, s.power, s.clk, f5, s.mbx, s.sec, f8, s.layout, s.primer, f11, f12, s.mem, s.poison, s.host, s.latch, f14,
      s.smbus, s.taps, s.doe, s.bscanLocked, s.unlocked, s.keyGen, s.free, s.pending⟩ ↔ Keeps quiet a s :=
  ⟨fun h => ⟨h.inv, h.pending, h.keyGen, h.free, h.fuses, h.still⟩, fun h => ⟨h.inv, h.pending, h.keyGen, h.free, h.fuses, h.still⟩⟩

/-- An update of the other fields that are not memory, lists or counters. -/
theorem keeps_upd_any {a s : State} {f2 f3 f4 f5 f6 f7 f8 f9 f10 f11 f12 f13 f14 f15 f16 f17 f18 f19} :
    Keeps false a ⟨s.fuses, f2, f3, f4, f5, f6, f7, f8, f9, f10, f11, f12, s.mem, s.poison, s.host, f13, f14, f15, f16, f17, f18, f19,
      s.keyGen, s.free, s.pending⟩ ↔ Keeps false a s :=
  ⟨fun h => ⟨h.inv, h.pending, h.keyGen, h.free, h.fuses, nofun⟩, fun h => ⟨h.inv, h.pending, h.keyGen, h.free, h.fuses, nofun⟩⟩

/-- Blowing fuses. -/
theorem keeps_fuses {a s : State} {g : Fuses} {fl : Flash} (h : Keeps false a s) (hg : a.fuses.Grown g) :
    Keeps false a { s with fuses := g, flash := fl } := ⟨h.inv, h.pending, h.keyGen, h.free, hg, nofun⟩

/-- The quiet form says more. -/
theorem Keeps.loud {a s : State} (h : Keeps true a s) : Keeps false a s := ⟨h.inv, h.pending, h.keyGen, h.free, h.fuses, nofun⟩

/-- The first part of a pair that a function answered. -/
theorem keeps_fst {quiet : Bool} {a s : State} {β : Type} {x : β} {p : State × β} (e : p = (s, x)) (h : Keeps quiet a p.1) : Keeps quiet a s := by
  subst e; exact h

/-- The second part of a pair that a function answered. -/
theorem keeps_snd {quiet : Bool} {a s : State} {β : Type} {x : β} {p : β × State} (e : p = (x, s)) (h : Keeps quiet a p.2) : Keeps quiet a s := by
  subst e; exact h

theorem keeps_next {quiet : Bool} {a t : State} (h : Keeps quiet a t) : KeepsOut quiet a (.next t) := by
  intro u e; cases e; exact h

theorem keeps_some {quiet : Bool} {a s : State} (h : Keeps quiet a s) : ∀ t, some s = some t → Keeps quiet a t := by
  intro t e; cases e; exact h

theorem keeps_none {quiet : Bool} {a : State} : ∀ t, (none : Option State) = some t → Keeps quiet a t := by
  intro t e; cases e

theorem ite_keeps {quiet : Bool} {a x y : State} {c : Prop} [Decidable c] (h : Keeps quiet a x) (k : Keeps quiet a y) : Keeps quiet a (if c then x else y) := by
  split
  · exact h
  · exact k

theorem planKeeps_ends {quiet : Bool} {a u : State} (h : Keeps quiet a u) : PlanKeeps quiet a (.ends u) := h

theorem planKeeps_works {quiet : Bool} {a : State} {d : Tensor} {r w : List (Nat × Nat)} {late : Option State} {run : State → State}
    (hl : ∀ u, late = some u → Keeps quiet a u) (hr : ∀ u, Keeps quiet a u → Keeps quiet a (run u)) :
    PlanKeeps quiet a (.works d r w late run) := ⟨hl, hr⟩

theorem ite_planKeeps {quiet : Bool} {a : State} {x y : RelayPlan} {c : Prop} [Decidable c] (h : PlanKeeps quiet a x) (k : PlanKeeps quiet a y) :
    PlanKeeps quiet a (if c then x else y) := by
  split
  · exact h
  · exact k

theorem ite_some_keeps {quiet : Bool} {a x : State} {c : Prop} [Decidable c] (h : Keeps quiet a x) :
    ∀ u, (if c then some x else none) = some u → Keeps quiet a u := by
  intro u e
  split at e
  · cases e
    exact h
  · cases e

theorem ite_keepsOut {quiet : Bool} {a : State} {x y : Out} {c : Prop} [Decidable c] (h : KeepsOut quiet a x) (k : KeepsOut quiet a y) : KeepsOut quiet a (if c then x else y) := by
  split
  · exact h
  · exact k

theorem foldl_keeps {quiet : Bool} {a : State} {β : Type} {f : State → β → State} {l : List β} {s : State} (h : Keeps quiet a s)
    (hf : ∀ u x, Keeps quiet a u → Keeps quiet a (f u x)) : Keeps quiet a (l.foldl f s) := by
  induction l generalizing s with
  | nil => exact h
  | cons x l ih => exact ih (hf s x h)

/-- A fold that carries a state and something more. -/
theorem foldl_keeps_fst {quiet : Bool} {a : State} {β γ : Type} {f : State × γ → β → State × γ} {l : List β} {p : State × γ} (h : Keeps quiet a p.1)
    (hf : ∀ u x, Keeps quiet a u.1 → Keeps quiet a (f u x).1) : Keeps quiet a (l.foldl f p).1 := by
  induction l generalizing p with
  | nil => exact h
  | cons x l ih => exact ih (hf p x h)

theorem foldl_keeps_snd {quiet : Bool} {a : State} {β γ : Type} {f : γ × State → β → γ × State} {l : List β} {p : γ × State} (h : Keeps quiet a p.2)
    (hf : ∀ u x, Keeps quiet a u.2 → Keeps quiet a (f u x).2) : Keeps quiet a (l.foldl f p).2 := by
  induction l generalizing p with
  | nil => exact h
  | cons x l ih => exact ih (hf p x h)

theorem option_elim_keeps {quiet : Bool} {a : State} {β : Type} {o : Option β} {d : State} {f : β → State} (hd : Keeps quiet a d) (hf : ∀ x, Keeps quiet a (f x)) :
    Keeps quiet a (o.elim d f) := by
  cases o
  · exact hd
  · exact hf _

theorem State.poisonLine_keeps {quiet : Bool} {a s : State} (u : Nat) (h : Keeps quiet a s) : Keeps quiet a (s.poisonLine u) :=
  ⟨fun x => ⟨(h.inv x).1, poisonIns_rising u (h.inv x).2⟩, h.pending, h.keyGen, h.free, h.fuses, h.still⟩

/-- Dropping markers. -/
theorem keeps_poison_filter {quiet : Bool} {a s : State} (p : Nat → Bool) (h : Keeps quiet a s) : Keeps quiet a { s with poison := s.poison.filter p } :=
  ⟨fun i => ⟨(h.inv i).1, rising_filter _ (h.inv i).2⟩, h.pending, h.keyGen, h.free, h.fuses, h.still⟩

/-- Dropping bytes and markers. -/
theorem keeps_mem_filter {quiet : Bool} {a s : State} (p : Host.Cell → Bool) (q : Nat → Bool) (h : Keeps quiet a s) :
    Keeps quiet a { s with mem := s.mem.filter p, poison := s.poison.filter q } :=
  ⟨fun i => ⟨⟨wf_filter _ (h.inv i).1.1, (h.inv i).1.2⟩, rising_filter _ (h.inv i).2⟩, h.pending, h.keyGen, h.free, h.fuses, h.still⟩

theorem State.rawWrite_keeps {quiet : Bool} {a s : State} (x : Nat) (bs : List Byte) (h : Keeps quiet a s) : Keeps quiet a (s.rawWrite x bs) :=
  ⟨fun i => ⟨⟨memPut_wf _ _ (h.inv i).1.1, (h.inv i).1.2⟩, rising_filter _ (h.inv i).2⟩, h.pending, h.keyGen, h.free, h.fuses, h.still⟩

theorem State.hostWrite_keeps {quiet : Bool} {a s : State} (x : Nat) (bs : List Byte) (h : Keeps quiet a s) : Keeps quiet a (s.hostWrite x bs) :=
  ⟨fun i => ⟨⟨(h.inv i).1.1, memPut_wf _ _ (h.inv i).1.2⟩, (h.inv i).2⟩, h.pending, h.keyGen, h.free, h.fuses, h.still⟩

theorem State.drawFree_keeps {quiet : Bool} {a s : State} (h : Keeps quiet a s) : Keeps quiet a s.drawFree.2 :=
  ⟨h.inv, h.pending, h.keyGen, Nat.le_succ_of_le h.free, h.fuses, h.still⟩

theorem State.newKey_keeps {quiet : Bool} {a s : State} (h : Keeps quiet a s) : Keeps quiet a s.newKey.2 :=
  ⟨h.inv, h.pending, Nat.le_succ_of_le h.keyGen, h.free, h.fuses, h.still⟩

theorem State.freeBytes_keeps {quiet : Bool} {a s : State} (n : Nat) (h : Keeps quiet a s) : Keeps quiet a (s.freeBytes n).2 := by
  induction n generalizing s with
  | zero => exact h
  | succ n ih => exact ih (State.drawFree_keeps h)

theorem State.view_keeps {quiet : Bool} {a s : State} (k : Fin 8) (h : Keeps quiet a s) : Keeps quiet a (s.view k) := keeps_mem_filter _ _ h

theorem State.merge_keeps {quiet : Bool} {a s t : State} (k : Fin 8) (h : Keeps quiet a t) : Keeps quiet a (s.merge k t) :=
  ⟨fun i => ⟨⟨cellsBack_wf _ (wf_filter _ (h.inv i).1.1), (h.inv i).1.2⟩, foldl_poisonIns_rising _ (rising_filter _ (h.inv i).2)⟩,
    h.pending, h.keyGen, h.free, h.fuses, h.still⟩

/-- A requester of one suite touches only lines that it may request, and what it does there keeps the forms (R195). -/
theorem State.confine_keeps {quiet : Bool} {a s : State} (k : Fin 8) {f : State → State} (h : Keeps quiet a s) (hf : ∀ u, Keeps quiet a u → Keeps quiet a (f u)) :
    Keeps quiet a (s.confine k f) := State.merge_keeps k (hf _ (State.view_keeps k h))

end Sys2Proof.Machine
end

