-- ==== Sys2Proof/Laws/KeepsOps.lean ====
section
/-! SUPPORT. What each operation keeps (`Keeps`), one lemma per operation, in the model's order: the shared operations: state updates, events, conversions, regions, the two units' products and updates. -/

namespace Sys2Proof.Machine

/-! ### Ops -/

theorem State.poisonRange_keeps {quiet : Bool} {a : State} (s : State) (a0 : ℕ) (n : ℕ) (hs : Keeps quiet a s) :
    Keeps quiet a (State.poisonRange s a0 n) := by
  unfold State.poisonRange
  try dsimp only
  repeat' first
    | with_reducible intro _ | with_reducible assumption | with_reducible apply State.poisonLine_keeps | with_reducible apply hs
    | simp only [keeps_upd] | with_reducible apply foldl_keeps | with_reducible apply ite_keeps | split
    | with_reducible refine keeps_snd (by assumption) ?_ | with_reducible refine keeps_fst (by assumption) ?_

theorem State.write_keeps {quiet : Bool} {a : State} (s : State) (a0 : ℕ) (bs : List Byte) (hs : Keeps quiet a s) :
    Keeps quiet a (State.write s a0 bs) := by
  unfold State.write
  try dsimp only
  repeat' first
    | with_reducible intro _ | with_reducible assumption | with_reducible apply State.rawWrite_keeps | with_reducible apply hs
    | simp only [keeps_upd] | with_reducible apply foldl_keeps | with_reducible apply ite_keeps | split
    | with_reducible refine keeps_snd (by assumption) ?_ | with_reducible refine keeps_fst (by assumption) ?_

theorem State.writeBit_keeps {quiet : Bool} {a : State} (s : State) (a0 : ℕ) (bit : ℕ) (v : Bool) (hs : Keeps quiet a s) :
    Keeps quiet a (State.writeBit s a0 bit v) := by
  unfold State.writeBit
  try dsimp only
  repeat' first
    | with_reducible intro _ | with_reducible assumption | with_reducible apply State.write_keeps | with_reducible apply hs
    | simp only [keeps_upd] | with_reducible apply foldl_keeps | with_reducible apply ite_keeps | split
    | with_reducible refine keeps_snd (by assumption) ?_ | with_reducible refine keeps_fst (by assumption) ?_

theorem State.modDie_keeps {quiet : Bool} {a : State} (s : State) (d : Fin 8) (f : Die → Die) (hs : Keeps quiet a s) :
    Keeps quiet a (State.modDie s d f) := by
  unfold State.modDie
  try dsimp only
  repeat' first
    | with_reducible intro _ | with_reducible assumption | with_reducible apply hs | simp only [keeps_upd]
    | with_reducible apply foldl_keeps | with_reducible apply ite_keeps | split | with_reducible refine keeps_snd (by assumption) ?_
    | with_reducible refine keeps_fst (by assumption) ?_

theorem State.modSuite_keeps {quiet : Bool} {a : State} (s : State) (k : Fin 8) (f : Suite → Suite) (hs : Keeps quiet a s) :
    Keeps quiet a (State.modSuite s k f) := by
  unfold State.modSuite
  try dsimp only
  repeat' first
    | with_reducible intro _ | with_reducible assumption | with_reducible apply hs | simp only [keeps_upd]
    | with_reducible apply foldl_keeps | with_reducible apply ite_keeps | split | with_reducible refine keeps_snd (by assumption) ?_
    | with_reducible refine keeps_fst (by assumption) ?_

theorem State.modPanel_keeps {quiet : Bool} {a : State} (s : State) (d : Fin 8) (p : Fin 104) (f : Panel → Panel) (hs : Keeps quiet a s) :
    Keeps quiet a (State.modPanel s d p f) := by
  unfold State.modPanel
  try dsimp only
  repeat' first
    | with_reducible intro _ | with_reducible assumption | with_reducible apply State.modDie_keeps | with_reducible apply hs
    | simp only [keeps_upd] | with_reducible apply foldl_keeps | with_reducible apply ite_keeps | split
    | with_reducible refine keeps_snd (by assumption) ?_ | with_reducible refine keeps_fst (by assumption) ?_

theorem State.modStack_keeps {quiet : Bool} {a : State} (s : State) (d : Fin 8) (i : Fin 12) (f : Stack → Stack) (hs : Keeps quiet a s) :
    Keeps quiet a (State.modStack s d i f) := by
  unfold State.modStack
  try dsimp only
  repeat' first
    | with_reducible intro _ | with_reducible assumption | with_reducible apply State.modDie_keeps | with_reducible apply hs
    | simp only [keeps_upd] | with_reducible apply foldl_keeps | with_reducible apply ite_keeps | split
    | with_reducible refine keeps_snd (by assumption) ?_ | with_reducible refine keeps_fst (by assumption) ?_

theorem State.modPort_keeps {quiet : Bool} {a : State} (s : State) (d : Fin 8) (q : Fin 2) (f : Port → Port) (hs : Keeps quiet a s) :
    Keeps quiet a (State.modPort s d q f) := by
  unfold State.modPort
  try dsimp only
  repeat' first
    | with_reducible intro _ | with_reducible assumption | with_reducible apply State.modDie_keeps | with_reducible apply hs
    | simp only [keeps_upd] | with_reducible apply foldl_keeps | with_reducible apply ite_keeps | split
    | with_reducible refine keeps_snd (by assumption) ?_ | with_reducible refine keeps_fst (by assumption) ?_

theorem State.modEdge_keeps {quiet : Bool} {a : State} (s : State) (d : Fin 8) (e : Fin 3) (f : Edge → Edge) (hs : Keeps quiet a s) :
    Keeps quiet a (State.modEdge s d e f) := by
  unfold State.modEdge
  try dsimp only
  repeat' first
    | with_reducible intro _ | with_reducible assumption | with_reducible apply State.modDie_keeps | with_reducible apply hs
    | simp only [keeps_upd] | with_reducible apply foldl_keeps | with_reducible apply ite_keeps | split
    | with_reducible refine keeps_snd (by assumption) ?_ | with_reducible refine keeps_fst (by assumption) ?_

theorem State.modMgt_keeps {quiet : Bool} {a : State} (s : State) (f : Mgt → Mgt) (hs : Keeps quiet a s) :
    Keeps quiet a (State.modMgt s f) := by
  unfold State.modMgt
  try dsimp only
  repeat' first
    | with_reducible intro _ | with_reducible assumption | with_reducible apply hs | simp only [keeps_upd]
    | with_reducible apply foldl_keeps | with_reducible apply ite_keeps | split | with_reducible refine keeps_snd (by assumption) ?_
    | with_reducible refine keeps_fst (by assumption) ?_

theorem State.freeRegion_keeps {quiet : Bool} {a : State} (s : State) (r : ℕ × ℕ) (hs : Keeps quiet a s) :
    Keeps quiet a (State.freeRegion s r) := by
  unfold State.freeRegion
  try dsimp only
  repeat' first
    | with_reducible intro _ | with_reducible assumption | with_reducible apply State.freeBytes_keeps
    | with_reducible apply State.poisonLine_keeps | with_reducible apply State.write_keeps | with_reducible apply hs | simp only [keeps_upd]
    | with_reducible apply foldl_keeps | with_reducible apply ite_keeps | split | with_reducible refine keeps_snd (by assumption) ?_
    | with_reducible refine keeps_fst (by assumption) ?_

theorem State.freeScaleSlot_keeps {quiet : Bool} {a : State} (s : State) (a0 : ℕ) (hs : Keeps quiet a s) :
    Keeps quiet a (State.freeScaleSlot s a0) := by
  unfold State.freeScaleSlot
  try dsimp only
  repeat' first
    | with_reducible intro _ | with_reducible assumption | with_reducible apply State.freeBytes_keeps
    | with_reducible apply State.write_keeps | with_reducible apply hs | simp only [keeps_upd] | with_reducible apply foldl_keeps
    | with_reducible apply ite_keeps | split | with_reducible refine keeps_snd (by assumption) ?_
    | with_reducible refine keeps_fst (by assumption) ?_

theorem State.freeSkimSlot_keeps {quiet : Bool} {a : State} (s : State) (a0 : ℕ) (hs : Keeps quiet a s) :
    Keeps quiet a (State.freeSkimSlot s a0) := by
  unfold State.freeSkimSlot
  try dsimp only
  repeat' first
    | with_reducible intro _ | with_reducible assumption | with_reducible apply State.freeBytes_keeps
    | with_reducible apply State.write_keeps | with_reducible apply hs | simp only [keeps_upd] | with_reducible apply foldl_keeps
    | with_reducible apply ite_keeps | split | with_reducible refine keeps_snd (by assumption) ?_
    | with_reducible refine keeps_fst (by assumption) ?_

theorem State.setEntryFlag_keeps {quiet : Bool} {a : State} (s : State) (e : ℕ) (bit : ℕ) (v : Bool) (hs : Keeps quiet a s) :
    Keeps quiet a (State.setEntryFlag s e bit v) := by
  unfold State.setEntryFlag
  try dsimp only
  repeat' first
    | with_reducible intro _ | with_reducible assumption | with_reducible apply State.rawWrite_keeps | with_reducible apply hs
    | simp only [keeps_upd] | with_reducible apply foldl_keeps | with_reducible apply ite_keeps | split
    | with_reducible refine keeps_snd (by assumption) ?_ | with_reducible refine keeps_fst (by assumption) ?_

theorem State.raise_keeps {quiet : Bool} {a : State} (s : State) (fn : ℕ) (i : ℕ) (hs : Keeps quiet a s) :
    Keeps quiet a (State.raise s fn i) := by
  unfold State.raise
  try dsimp only
  repeat' first
    | with_reducible intro _ | with_reducible assumption | with_reducible apply State.modSuite_keeps | with_reducible apply hs
    | simp only [keeps_upd] | with_reducible apply foldl_keeps | with_reducible apply ite_keeps | split
    | with_reducible refine keeps_snd (by assumption) ?_ | with_reducible refine keeps_fst (by assumption) ?_

theorem State.mgtEvent_keeps {quiet : Bool} {a : State} (s : State) (code : ℕ) (die : ℕ) (unit : ℕ) (data : List Byte) (hs : Keeps quiet a s) :
    Keeps quiet a (State.mgtEvent s code die unit data) := by
  unfold State.mgtEvent
  try dsimp only
  repeat' first
    | with_reducible intro _ | with_reducible assumption | with_reducible apply State.raise_keeps | with_reducible apply State.modMgt_keeps
    | with_reducible apply hs | simp only [keeps_upd] | with_reducible apply foldl_keeps | with_reducible apply ite_keeps | split
    | with_reducible refine keeps_snd (by assumption) ?_ | with_reducible refine keeps_fst (by assumption) ?_

theorem State.suiteEventAt_keeps {quiet : Bool} {a : State} (s : State) (k : Fin 8) (time : ℕ) (code : ℕ) (die : ℕ) (unit : ℕ) (data : List Byte) (hs : Keeps quiet a s) :
    Keeps quiet a (State.suiteEventAt s k time code die unit data) := by
  unfold State.suiteEventAt
  try dsimp only
  repeat' first
    | with_reducible intro _ | with_reducible assumption | with_reducible apply State.raise_keeps
    | with_reducible apply State.modSuite_keeps | with_reducible apply hs | simp only [keeps_upd] | with_reducible apply foldl_keeps
    | with_reducible apply ite_keeps | split | with_reducible refine keeps_snd (by assumption) ?_
    | with_reducible refine keeps_fst (by assumption) ?_

theorem State.suiteEvent_keeps {quiet : Bool} {a : State} (s : State) (k : Fin 8) (code : ℕ) (die : ℕ) (unit : ℕ) (data : List Byte) (hs : Keeps quiet a s) :
    Keeps quiet a (State.suiteEvent s k code die unit data) := by
  unfold State.suiteEvent
  try dsimp only
  repeat' first
    | with_reducible intro _ | with_reducible assumption | with_reducible apply State.suiteEventAt_keeps | with_reducible apply hs
    | simp only [keeps_upd] | with_reducible apply foldl_keeps | with_reducible apply ite_keeps | split
    | with_reducible refine keeps_snd (by assumption) ?_ | with_reducible refine keeps_fst (by assumption) ?_

theorem State.dieEvent_keeps {quiet : Bool} {a : State} (s : State) (d : Fin 8) (code : ℕ) (unit : ℕ) (data : List Byte) (hs : Keeps quiet a s) :
    Keeps quiet a (State.dieEvent s d code unit data) := by
  unfold State.dieEvent
  try dsimp only
  repeat' first
    | with_reducible intro _ | with_reducible assumption | with_reducible apply State.suiteEvent_keeps
    | with_reducible apply State.mgtEvent_keeps | with_reducible apply hs | simp only [keeps_upd] | with_reducible apply foldl_keeps
    | with_reducible apply ite_keeps | split | with_reducible refine keeps_snd (by assumption) ?_
    | with_reducible refine keeps_fst (by assumption) ?_

theorem State.oncePerStep_keeps {quiet : Bool} {a : State} (s : State) (k : Fin 8) (code : ℕ) (key : ℕ) (f : State → State) (hs : Keeps quiet a s) (hf : ∀ x0, Keeps quiet a x0 → Keeps quiet a (f x0)) :
    Keeps quiet a (State.oncePerStep s k code key f) := by
  unfold State.oncePerStep
  try dsimp only
  repeat' first
    | with_reducible intro _ | with_reducible assumption | with_reducible apply State.modSuite_keeps | with_reducible apply hs
    | with_reducible apply hf | simp only [keeps_upd] | with_reducible apply foldl_keeps | with_reducible apply ite_keeps | split
    | with_reducible refine keeps_snd (by assumption) ?_ | with_reducible refine keeps_fst (by assumption) ?_

theorem State.violation_keeps {quiet : Bool} {a : State} (s : State) (kind : ℕ) (fn : ℕ) (off : ℕ) (hs : Keeps quiet a s) :
    Keeps quiet a (State.violation s kind fn off) := by
  unfold State.violation
  try dsimp only
  repeat' first
    | with_reducible intro _ | with_reducible assumption | with_reducible apply State.raise_keeps | with_reducible apply State.modMgt_keeps
    | with_reducible apply hs | simp only [keeps_upd] | with_reducible apply foldl_keeps | with_reducible apply ite_keeps | split
    | with_reducible refine keeps_snd (by assumption) ?_ | with_reducible refine keeps_fst (by assumption) ?_

theorem State.setSuiteState_keeps {quiet : Bool} {a : State} (s : State) (k : Fin 8) (st : SuiteState) (hs : Keeps quiet a s) :
    Keeps quiet a (State.setSuiteState s k st) := by
  unfold State.setSuiteState
  try dsimp only
  repeat' first
    | with_reducible intro _ | with_reducible assumption | with_reducible apply State.raise_keeps
    | with_reducible apply State.modSuite_keeps | with_reducible apply hs | simp only [keeps_upd] | with_reducible apply foldl_keeps
    | with_reducible apply ite_keeps | split | with_reducible refine keeps_snd (by assumption) ?_
    | with_reducible refine keeps_fst (by assumption) ?_

theorem State.setStage_keeps {quiet : Bool} {a : State} (s : State) (g : Stage) (hs : Keeps quiet a s) :
    Keeps quiet a (State.setStage s g) := by
  unfold State.setStage
  try dsimp only
  repeat' first
    | with_reducible intro _ | with_reducible assumption | with_reducible apply State.raise_keeps | with_reducible apply State.modMgt_keeps
    | with_reducible apply hs | simp only [keeps_upd] | with_reducible apply foldl_keeps | with_reducible apply ite_keeps | split
    | with_reducible refine keeps_snd (by assumption) ?_ | with_reducible refine keeps_fst (by assumption) ?_

theorem State.setFwState_keeps {quiet : Bool} {a : State} (s : State) (f : FwState) (hs : Keeps quiet a s) :
    Keeps quiet a (State.setFwState s f) := by
  unfold State.setFwState
  try dsimp only
  repeat' first
    | with_reducible intro _ | with_reducible assumption | with_reducible apply State.raise_keeps | with_reducible apply State.modMgt_keeps
    | with_reducible apply hs | simp only [keeps_upd] | with_reducible apply foldl_keeps | with_reducible apply ite_keeps | split
    | with_reducible refine keeps_snd (by assumption) ?_ | with_reducible refine keeps_fst (by assumption) ?_

theorem State.modTask_keeps {quiet : Bool} {a : State} (s : State) (k : Fin 8) (h : ℕ) (f : Task → Task) (hs : Keeps quiet a s) :
    Keeps quiet a (State.modTask s k h f) := by
  unfold State.modTask
  try dsimp only
  repeat' first
    | with_reducible intro _ | with_reducible assumption | with_reducible apply State.modSuite_keeps | with_reducible apply hs
    | simp only [keeps_upd] | with_reducible apply foldl_keeps | with_reducible apply ite_keeps | split
    | with_reducible refine keeps_snd (by assumption) ?_ | with_reducible refine keeps_fst (by assumption) ?_

theorem State.finish_keeps {quiet : Bool} {a : State} (s : State) (k : Fin 8) (h : ℕ) (st : Status) (hs : Keeps quiet a s) :
    Keeps quiet a (State.finish s k h st) := by
  unfold State.finish
  try dsimp only
  repeat' first
    | with_reducible intro _ | with_reducible assumption | with_reducible apply State.modTask_keeps | with_reducible apply hs
    | simp only [keeps_upd] | with_reducible apply foldl_keeps | with_reducible apply ite_keeps | split
    | with_reducible refine keeps_snd (by assumption) ?_ | with_reducible refine keeps_fst (by assumption) ?_

theorem State.worsen_keeps {quiet : Bool} {a : State} (s : State) (k : Fin 8) (h : ℕ) (st : Status) (hs : Keeps quiet a s) :
    Keeps quiet a (State.worsen s k h st) := by
  unfold State.worsen
  try dsimp only
  repeat' first
    | with_reducible intro _ | with_reducible assumption | with_reducible apply State.modTask_keeps | with_reducible apply hs
    | simp only [keeps_upd] | with_reducible apply foldl_keeps | with_reducible apply ite_keeps | split
    | with_reducible refine keeps_snd (by assumption) ?_ | with_reducible refine keeps_fst (by assumption) ?_

theorem State.addCount_keeps {quiet : Bool} {a : State} (s : State) (k : Fin 8) (h : ℕ) (n : ℕ) (hs : Keeps quiet a s) :
    Keeps quiet a (State.addCount s k h n) := by
  unfold State.addCount
  try dsimp only
  repeat' first
    | with_reducible intro _ | with_reducible assumption | with_reducible apply State.modTask_keeps | with_reducible apply hs
    | simp only [keeps_upd] | with_reducible apply foldl_keeps | with_reducible apply ite_keeps | split
    | with_reducible refine keeps_snd (by assumption) ?_ | with_reducible refine keeps_fst (by assumption) ?_

theorem State.onRunning_keeps {quiet : Bool} {a : State} (s : State) (k : Fin 8) (h : ℕ) (f : Task → State) (hs : Keeps quiet a s) (hf : ∀ x0, Keeps quiet a (f x0)) :
    Keeps quiet a (State.onRunning s k h f) := by
  unfold State.onRunning
  try dsimp only
  repeat' first
    | with_reducible intro _ | with_reducible assumption | with_reducible apply hs | with_reducible apply hf | simp only [keeps_upd]
    | with_reducible apply foldl_keeps | with_reducible apply ite_keeps | split | with_reducible refine keeps_snd (by assumption) ?_
    | with_reducible refine keeps_fst (by assumption) ?_

theorem State.runTask_keeps {quiet : Bool} {a : State} (s : State) (k : Fin 8) (h : ℕ) (type : ℕ) (mode : ℕ) (f : State → Task → State) (hs : Keeps quiet a s) (hf : ∀ x0 x1, Keeps quiet a x0 → Keeps quiet a (f x0 x1)) :
    Keeps quiet a (State.runTask s k h type mode f) := by
  unfold State.runTask
  try dsimp only
  repeat' first
    | with_reducible intro _ | with_reducible assumption | with_reducible apply State.onRunning_keeps
    | with_reducible apply State.confine_keeps | with_reducible apply hs | with_reducible apply hf | simp only [keeps_upd]
    | with_reducible apply foldl_keeps | with_reducible apply ite_keeps | split | with_reducible refine keeps_snd (by assumption) ?_
    | with_reducible refine keeps_fst (by assumption) ?_

theorem State.formatEvent_keeps {quiet : Bool} {a : State} (s : State) (k : Fin 8) (t : Task) (tensor : ℕ) (kind : ℕ) (regions : ℕ) (count : ℕ) (soft : optParam Bool false) (hs : Keeps quiet a s) :
    Keeps quiet a (State.formatEvent s k t tensor kind regions count soft) := by
  unfold State.formatEvent
  try dsimp only
  repeat' first
    | with_reducible intro _ | with_reducible assumption | with_reducible apply State.suiteEvent_keeps
    | with_reducible apply State.addCount_keeps | with_reducible apply State.modSuite_keeps | with_reducible apply State.worsen_keeps
    | with_reducible apply hs | simp only [keeps_upd] | with_reducible apply foldl_keeps | with_reducible apply ite_keeps | split
    | with_reducible refine keeps_snd (by assumption) ?_ | with_reducible refine keeps_fst (by assumption) ?_

theorem State.invalidEvent_keeps {quiet : Bool} {a : State} (s : State) (k : Fin 8) (tensor : ℕ) (kind : ℕ) (count : ℕ) (hs : Keeps quiet a s) :
    Keeps quiet a (State.invalidEvent s k tensor kind count) := by
  unfold State.invalidEvent
  try dsimp only
  repeat' first
    | with_reducible intro _ | with_reducible assumption | with_reducible apply State.oncePerStep_keeps
    | with_reducible apply State.suiteEvent_keeps | with_reducible apply hs | simp only [keeps_upd] | with_reducible apply foldl_keeps
    | with_reducible apply ite_keeps | split | with_reducible refine keeps_snd (by assumption) ?_
    | with_reducible refine keeps_fst (by assumption) ?_

theorem State.memError_keeps {quiet : Bool} {a : State} (s : State) (k : Fin 8) (unit : ℕ) (kind : ℕ) (cls : ℕ) (taskId : ℕ) (hs : Keeps quiet a s) :
    Keeps quiet a (State.memError s k unit kind cls taskId) := by
  unfold State.memError
  try dsimp only
  repeat' first
    | with_reducible intro _ | with_reducible assumption | with_reducible apply State.suiteEvent_keeps | with_reducible apply hs
    | simp only [keeps_upd] | with_reducible apply foldl_keeps | with_reducible apply ite_keeps | split
    | with_reducible refine keeps_snd (by assumption) ?_ | with_reducible refine keeps_fst (by assumption) ?_

theorem State.onceTask_keeps {quiet : Bool} {a : State} (s : State) (k : Fin 8) (h : ℕ) (key : ℕ × ℕ) (f : State → State) (hs : Keeps quiet a s) (hf : ∀ x0, Keeps quiet a x0 → Keeps quiet a (f x0)) :
    Keeps quiet a (State.onceTask s k h key f) := by
  unfold State.onceTask
  try dsimp only
  repeat' first
    | with_reducible intro _ | with_reducible assumption | with_reducible apply State.modTask_keeps | with_reducible apply hs
    | with_reducible apply hf | simp only [keeps_upd] | with_reducible apply foldl_keeps | with_reducible apply ite_keeps | split
    | with_reducible refine keeps_snd (by assumption) ?_ | with_reducible refine keeps_fst (by assumption) ?_

theorem State.taskMemError_keeps {quiet : Bool} {a : State} (s : State) (k : Fin 8) (t : Task) (unit : ℕ) (kind : ℕ) (cls : ℕ) (hs : Keeps quiet a s) :
    Keeps quiet a (State.taskMemError s k t unit kind cls) := by
  unfold State.taskMemError
  try dsimp only
  repeat' first
    | with_reducible intro _ | with_reducible assumption | with_reducible apply State.onceTask_keeps
    | with_reducible apply State.memError_keeps | with_reducible apply hs | simp only [keeps_upd] | with_reducible apply foldl_keeps
    | with_reducible apply ite_keeps | split | with_reducible refine keeps_snd (by assumption) ?_
    | with_reducible refine keeps_fst (by assumption) ?_

theorem State.signal_keeps {quiet : Bool} {a : State} (s : State) (k : Fin 8) (d : TaskDesc) (hs : Keeps quiet a s) :
    Keeps quiet a (State.signal s k d) := by
  unfold State.signal
  try dsimp only
  repeat' first
    | with_reducible intro _ | with_reducible assumption | with_reducible apply State.modSuite_keeps | with_reducible apply hs
    | simp only [keeps_upd] | with_reducible apply foldl_keeps | with_reducible apply ite_keeps | split
    | with_reducible refine keeps_snd (by assumption) ?_ | with_reducible refine keeps_fst (by assumption) ?_

/-! ### Clocks -/

theorem State.applyK_keeps {a : State} (s : State) (counted : Bool) (hs : Keeps false a s) :
    Keeps false a (State.applyK s counted) := by
  unfold State.applyK
  try dsimp only
  repeat' first
    | with_reducible intro _ | with_reducible assumption | with_reducible apply hs | simp only [keeps_upd_any]
    | with_reducible apply foldl_keeps | with_reducible apply ite_keeps | split | with_reducible refine keeps_snd (by assumption) ?_
    | with_reducible refine keeps_fst (by assumption) ?_

/-! ### Operands -/

theorem State.bump64_keeps {quiet : Bool} {a : State} (s : State) (a0 : ℕ) (n : ℕ) (hs : Keeps quiet a s) :
    Keeps quiet a (State.bump64 s a0 n) := by
  unfold State.bump64
  try dsimp only
  repeat' first
    | with_reducible intro _ | with_reducible assumption | with_reducible apply State.write_keeps | with_reducible apply hs
    | simp only [keeps_upd] | with_reducible apply foldl_keeps | with_reducible apply ite_keeps | split
    | with_reducible refine keeps_snd (by assumption) ?_ | with_reducible refine keeps_fst (by assumption) ?_

theorem State.respoilScale_keeps {quiet : Bool} {a : State} (s : State) (k : Fin 8) (slot : ℕ) (hs : Keeps quiet a s) :
    Keeps quiet a (State.respoilScale s k slot) := by
  unfold State.respoilScale
  try dsimp only
  repeat' first
    | with_reducible intro _ | with_reducible assumption | with_reducible apply State.freeScaleSlot_keeps | with_reducible apply hs
    | simp only [keeps_upd] | with_reducible apply foldl_keeps | with_reducible apply ite_keeps | split
    | with_reducible refine keeps_snd (by assumption) ?_ | with_reducible refine keeps_fst (by assumption) ?_

theorem State.countConvAt_keeps {quiet : Bool} {a : State} (s : State) (k : Fin 8) (t : Tensor) (c : ConvCount) (hist : Option Num) (step : ℕ) (hs : Keeps quiet a s) :
    Keeps quiet a (State.countConvAt s k t c hist step) := by
  unfold State.countConvAt
  try dsimp only
  repeat' first
    | with_reducible intro _ | with_reducible assumption | with_reducible apply State.bump64_keeps
    | with_reducible apply State.modSuite_keeps | with_reducible apply State.write_keeps | with_reducible apply State.respoilScale_keeps
    | with_reducible apply hs | simp only [keeps_upd] | with_reducible apply foldl_keeps | with_reducible apply ite_keeps | split
    | with_reducible refine keeps_snd (by assumption) ?_ | with_reducible refine keeps_fst (by assumption) ?_

theorem State.countConv_keeps {quiet : Bool} {a : State} (s : State) (k : Fin 8) (t : Tensor) (c : ConvCount) (hist : Option Num) (hs : Keeps quiet a s) :
    Keeps quiet a (State.countConv s k t c hist) := by
  unfold State.countConv
  try dsimp only
  repeat' first
    | with_reducible intro _ | with_reducible assumption | with_reducible apply State.countConvAt_keeps | with_reducible apply hs
    | simp only [keeps_upd] | with_reducible apply foldl_keeps | with_reducible apply ite_keeps | split
    | with_reducible refine keeps_snd (by assumption) ?_ | with_reducible refine keeps_fst (by assumption) ?_

theorem State.countInvalid_keeps {quiet : Bool} {a : State} (s : State) (k : Fin 8) (t : Tensor) (kind : ℕ) (n : ℕ) (hs : Keeps quiet a s) :
    Keeps quiet a (State.countInvalid s k t kind n) := by
  unfold State.countInvalid
  try dsimp only
  repeat' first
    | with_reducible intro _ | with_reducible assumption | with_reducible apply State.invalidEvent_keeps
    | with_reducible apply State.countConv_keeps | with_reducible apply hs | simp only [keeps_upd] | with_reducible apply foldl_keeps
    | with_reducible apply ite_keeps | split | with_reducible refine keeps_snd (by assumption) ?_
    | with_reducible refine keeps_fst (by assumption) ?_

theorem State.putCode_keeps {quiet : Bool} {a : State} (s : State) (f : Fmt) (base : ℕ) (i : ℕ) (c : ℕ) (hs : Keeps quiet a s) :
    Keeps quiet a (State.putCode s f base i c) := by
  unfold State.putCode
  try dsimp only
  repeat' first
    | with_reducible intro _ | with_reducible assumption | with_reducible apply State.write_keeps | with_reducible apply hs
    | simp only [keeps_upd] | with_reducible apply foldl_keeps | with_reducible apply ite_keeps | split
    | with_reducible refine keeps_snd (by assumption) ?_ | with_reducible refine keeps_fst (by assumption) ?_

/-! ### Convert -/

theorem State.reportInvalid_keeps {quiet : Bool} {a : State} (s : State) (k : Fin 8) (t : Tensor) (es : List Ent) (hs : Keeps quiet a s) :
    Keeps quiet a (State.reportInvalid s k t es) := by
  unfold State.reportInvalid
  try dsimp only
  repeat' first
    | with_reducible intro _ | with_reducible assumption | with_reducible apply State.countInvalid_keeps | with_reducible apply hs
    | simp only [keeps_upd] | with_reducible apply foldl_keeps | with_reducible apply ite_keeps | split
    | with_reducible refine keeps_snd (by assumption) ?_ | with_reducible refine keeps_fst (by assumption) ?_

theorem State.putCodes_keeps {quiet : Bool} {a : State} (s : State) (f : Fmt) (l : List (ℕ × ℕ × ℕ)) (hs : Keeps quiet a s) :
    Keeps quiet a (State.putCodes s f l) := by
  unfold State.putCodes
  try dsimp only
  repeat' first
    | with_reducible intro _ | with_reducible assumption | with_reducible apply State.putCode_keeps | with_reducible apply hs
    | simp only [keeps_upd] | with_reducible apply foldl_keeps | with_reducible apply ite_keeps | split
    | with_reducible refine keeps_snd (by assumption) ?_ | with_reducible refine keeps_fst (by assumption) ?_

theorem State.putGroup_keeps {quiet : Bool} {a : State} (s : State) (k : Fin 8) (t : Tensor) (tag : ℕ) (count : Bool) (ps : List Put) (hs : Keeps quiet a s) :
    Keeps quiet a (State.putGroup s k t tag count ps) := by
  unfold State.putGroup
  try dsimp only
  repeat' first
    | with_reducible intro _ | with_reducible assumption | with_reducible apply State.write_keeps
    | with_reducible apply State.putCodes_keeps | with_reducible apply State.countConv_keeps | with_reducible apply hs
    | simp only [keeps_upd] | with_reducible apply foldl_keeps | with_reducible apply ite_keeps | split
    | with_reducible refine keeps_snd (by assumption) ?_ | with_reducible refine keeps_fst (by assumption) ?_

theorem State.putAll_keeps {quiet : Bool} {a : State} (s : State) (k : Fin 8) (t : Tensor) (tagOf : ℕ → ℕ) (count : Bool) (ps : List Put) (hs : Keeps quiet a s) :
    Keeps quiet a (State.putAll s k t tagOf count ps) := by
  unfold State.putAll
  try dsimp only
  repeat' first
    | with_reducible intro _ | with_reducible assumption | with_reducible apply State.putGroup_keeps | with_reducible apply hs
    | simp only [keeps_upd] | with_reducible apply foldl_keeps | with_reducible apply ite_keeps | split
    | with_reducible refine keeps_snd (by assumption) ?_ | with_reducible refine keeps_fst (by assumption) ?_

theorem State.unpoison_keeps {quiet : Bool} {a : State} (s : State) (a0 : ℕ) (n : ℕ) (hs : Keeps quiet a s) :
    Keeps quiet a (State.unpoison s a0 n) := by
  exact keeps_poison_filter _ hs

theorem State.settle_keeps {quiet : Bool} {a : State} (s : State) (t : Tensor) (st : Struct) (ws : List Place) (hs : Keeps quiet a s) :
    Keeps quiet a (State.settle s t st ws) := by
  unfold State.settle
  dsimp only
  split
  · exact hs
  · exact keeps_poison_filter _ hs

theorem State.reportNan_keeps {quiet : Bool} {a : State} (s : State) (k : Fin 8) (h : ℕ) (t : Tensor) (n : ℕ) (hs : Keeps quiet a s) :
    Keeps quiet a (State.reportNan s k h t n) := by
  unfold State.reportNan
  try dsimp only
  repeat' first
    | with_reducible intro _ | with_reducible assumption | with_reducible apply State.addCount_keeps
    | with_reducible apply State.invalidEvent_keeps | with_reducible apply State.worsen_keeps | with_reducible apply hs
    | simp only [keeps_upd] | with_reducible apply foldl_keeps | with_reducible apply ite_keeps | split
    | with_reducible refine keeps_snd (by assumption) ?_ | with_reducible refine keeps_fst (by assumption) ?_

theorem State.writeSkimAt_keeps {quiet : Bool} {a : State} (s : State) (k : Fin 8) (t : Tensor) (st : Struct) (on : Place → Bool) (hs : Keeps quiet a s) :
    Keeps quiet a (State.writeSkimAt s k t st on) := by
  unfold State.writeSkimAt
  try dsimp only
  repeat' first
    | with_reducible intro _ | with_reducible assumption | with_reducible apply State.putAll_keeps | with_reducible apply hs
    | simp only [keeps_upd] | with_reducible apply foldl_keeps | with_reducible apply ite_keeps | split
    | with_reducible refine keeps_snd (by assumption) ?_ | with_reducible refine keeps_fst (by assumption) ?_

theorem State.writeNorms_keeps {quiet : Bool} {a : State} (s : State) (k : Fin 8) (t : Tensor) (st : Struct) (hs : Keeps quiet a s) :
    Keeps quiet a (State.writeNorms s k t st) := by
  unfold State.writeNorms
  try dsimp only
  repeat' first
    | with_reducible intro _ | with_reducible assumption | with_reducible apply State.write_keeps | with_reducible apply hs
    | simp only [keeps_upd] | with_reducible apply foldl_keeps | with_reducible apply ite_keeps | split
    | with_reducible refine keeps_snd (by assumption) ?_ | with_reducible refine keeps_fst (by assumption) ?_

theorem State.writeSkim_keeps {quiet : Bool} {a : State} (s : State) (k : Fin 8) (t : Tensor) (st : Struct) (hs : Keeps quiet a s) :
    Keeps quiet a (State.writeSkim s k t st) := by
  unfold State.writeSkim
  try dsimp only
  repeat' first
    | with_reducible intro _ | with_reducible assumption | with_reducible apply State.writeNorms_keeps
    | with_reducible apply State.writeSkimAt_keeps | with_reducible apply State.unpoison_keeps | with_reducible apply hs
    | simp only [keeps_upd] | with_reducible apply foldl_keeps | with_reducible apply ite_keeps | split
    | with_reducible refine keeps_snd (by assumption) ?_ | with_reducible refine keeps_fst (by assumption) ?_

theorem State.poisonCols_keeps {quiet : Bool} {a : State} (s : State) (t : Tensor) (row : ℕ) (c0 : ℕ) (c1 : ℕ) (hs : Keeps quiet a s) :
    Keeps quiet a (State.poisonCols s t row c0 c1) := by
  unfold State.poisonCols
  try dsimp only
  repeat' first
    | with_reducible intro _ | with_reducible assumption | with_reducible apply State.poisonRange_keeps | with_reducible apply hs
    | simp only [keeps_upd] | with_reducible apply foldl_keeps | with_reducible apply ite_keeps | split
    | with_reducible refine keeps_snd (by assumption) ?_ | with_reducible refine keeps_fst (by assumption) ?_

theorem State.poisonPlace_keeps {quiet : Bool} {a : State} (s : State) (f : Fmt) (p : Place) (hs : Keeps quiet a s) :
    Keeps quiet a (State.poisonPlace s f p) := by
  unfold State.poisonPlace
  try dsimp only
  repeat' first
    | with_reducible intro _ | with_reducible assumption | with_reducible apply State.poisonLine_keeps | with_reducible apply hs
    | simp only [keeps_upd] | with_reducible apply foldl_keeps | with_reducible apply ite_keeps | split
    | with_reducible refine keeps_snd (by assumption) ?_ | with_reducible refine keeps_fst (by assumption) ?_

theorem State.poisonSkimOf_keeps {quiet : Bool} {a : State} (s : State) (t : Tensor) (st : Struct) (bad : Place → Bool) (hs : Keeps quiet a s) :
    Keeps quiet a (State.poisonSkimOf s t st bad) := by
  unfold State.poisonSkimOf
  try dsimp only
  repeat' first
    | with_reducible intro _ | with_reducible assumption | with_reducible apply State.poisonPlace_keeps
    | with_reducible apply State.poisonLine_keeps | with_reducible apply hs | simp only [keeps_upd] | with_reducible apply foldl_keeps
    | with_reducible apply ite_keeps | split | with_reducible refine keeps_snd (by assumption) ?_
    | with_reducible refine keeps_fst (by assumption) ?_

/-! ### Regions -/

theorem State.refuse_keeps {quiet : Bool} {a : State} (s : State) (k : Fin 8) (t : Task) (twin : Bool) (ids : List ℕ) (st : Status) (hs : Keeps quiet a s) :
    Keeps quiet a (State.refuse s k t twin ids st) := by
  unfold State.refuse
  try dsimp only
  repeat' first
    | with_reducible intro _ | with_reducible assumption | with_reducible apply State.formatEvent_keeps
    | with_reducible apply State.taskMemError_keeps | with_reducible apply State.modTask_keeps | with_reducible apply State.finish_keeps
    | with_reducible apply hs | simp only [keeps_upd] | with_reducible apply foldl_keeps | with_reducible apply ite_keeps | split
    | with_reducible refine keeps_snd (by assumption) ?_ | with_reducible refine keeps_fst (by assumption) ?_

theorem State.reportAccess_keeps {quiet : Bool} {a : State} (s : State) (k : Fin 8) (t : Task) (pois : Option ℕ) (denied : Option ℕ) (hs : Keeps quiet a s) :
    Keeps quiet a (State.reportAccess s k t pois denied) := by
  unfold State.reportAccess
  try dsimp only
  repeat' first
    | with_reducible intro _ | with_reducible assumption | with_reducible apply State.worsen_keeps
    | with_reducible apply State.taskMemError_keeps | with_reducible apply hs | simp only [keeps_upd] | with_reducible apply foldl_keeps
    | with_reducible apply ite_keeps | split | with_reducible refine keeps_snd (by assumption) ?_
    | with_reducible refine keeps_fst (by assumption) ?_

theorem State.withRecord_keeps {quiet : Bool} {a : State} (s : State) (k : Fin 8) (t : Task) (n : ℕ) (f : State → State) (hs : Keeps quiet a s) (hf : ∀ x0, Keeps quiet a x0 → Keeps quiet a (f x0)) :
    Keeps quiet a (State.withRecord s k t n f) := by
  unfold State.withRecord
  try dsimp only
  repeat' first
    | with_reducible intro _ | with_reducible assumption | with_reducible apply State.finish_keeps
    | with_reducible apply State.taskMemError_keeps | with_reducible apply hs | with_reducible apply hf | simp only [keeps_upd]
    | with_reducible apply foldl_keeps | with_reducible apply ite_keeps | split | with_reducible refine keeps_snd (by assumption) ?_
    | with_reducible refine keeps_fst (by assumption) ?_

theorem State.boundRefused_keeps {quiet : Bool} {a : State} (s : State) (k : Fin 8) (t : Task) (tensor : ℕ) (path : ℕ) (hs : Keeps quiet a s) :
    Keeps quiet a (State.boundRefused s k t tensor path) := by
  unfold State.boundRefused
  try dsimp only
  repeat' first
    | with_reducible intro _ | with_reducible assumption | with_reducible apply State.suiteEvent_keeps | with_reducible apply hs
    | simp only [keeps_upd] | with_reducible apply foldl_keeps | with_reducible apply ite_keeps | split
    | with_reducible refine keeps_snd (by assumption) ?_ | with_reducible refine keeps_fst (by assumption) ?_

theorem State.bindTo_keeps {quiet : Bool} {a : State} (s : State) (k : Fin 8) (reads : List (ℕ × ℕ)) (writes : List (ℕ × ℕ)) (dsts : List Tensor) (hs : Keeps quiet a s) :
    ∀ t, (State.bindTo s k reads writes dsts) = some t → Keeps quiet a t := by
  unfold State.bindTo
  intro t e
  split at e
  · cases e
    exact hs
  · dsimp only at e
    split at e
    · cases e
    · cases e
      exact State.modSuite_keeps _ _ _ (foldl_keeps hs fun u x h => State.setEntryFlag_keeps _ _ _ _ h)

/-! ### Update -/

theorem State.addScratch_keeps {quiet : Bool} {a : State} (s : State) (a0 : ℕ) (sq : ℕ) (hs : Keeps quiet a s) :
    Keeps quiet a (State.addScratch s a0 sq).1 := by
  unfold State.addScratch
  try dsimp only
  repeat' first
    | with_reducible intro _ | with_reducible assumption | with_reducible apply State.write_keeps | with_reducible apply hs
    | simp only [keeps_upd] | with_reducible apply foldl_keeps | with_reducible apply ite_keeps | split
    | with_reducible refine keeps_snd (by assumption) ?_ | with_reducible refine keeps_fst (by assumption) ?_

theorem State.updRefuse_keeps {quiet : Bool} {a : State} (s : State) (k : Fin 8) (t : Task) (e : Status) (hs : Keeps quiet a s) :
    Keeps quiet a (State.updRefuse s k t e) := by
  unfold State.updRefuse
  try dsimp only
  repeat' first
    | with_reducible intro _ | with_reducible assumption | with_reducible apply State.finish_keeps
    | with_reducible apply State.taskMemError_keeps | with_reducible apply State.refuse_keeps | with_reducible apply State.formatEvent_keeps
    | with_reducible apply hs | simp only [keeps_upd] | with_reducible apply foldl_keeps | with_reducible apply ite_keeps | split
    | with_reducible refine keeps_snd (by assumption) ?_ | with_reducible refine keeps_fst (by assumption) ?_

theorem State.putMom_keeps {quiet : Bool} {a : State} (s : State) (t : Tensor) (step : ℕ) (seed : Vector Word 4) (xs : List (Place × Num)) (hs : Keeps quiet a s) :
    Keeps quiet a (State.putMom s t step seed xs) := by
  unfold State.putMom
  try dsimp only
  repeat' first
    | with_reducible intro _ | with_reducible assumption | with_reducible apply State.putCodes_keeps
    | with_reducible apply State.write_keeps | with_reducible apply hs | simp only [keeps_upd] | with_reducible apply foldl_keeps
    | with_reducible apply ite_keeps | split | with_reducible refine keeps_snd (by assumption) ?_
    | with_reducible refine keeps_fst (by assumption) ?_

theorem State.putMaster_keeps {quiet : Bool} {a : State} (s : State) (t : Tensor) (g : ℕ) (tag : ℕ) (step : ℕ) (sr : Bool) (seed : Vector Word 4) (xs : List (Place × Num)) (hs : Keeps quiet a s) :
    Keeps quiet a (State.putMaster s t g tag step sr seed xs) := by
  unfold State.putMaster
  try dsimp only
  repeat' first
    | with_reducible intro _ | with_reducible assumption | with_reducible apply State.write_keeps
    | with_reducible apply State.putCodes_keeps | with_reducible apply hs | simp only [keeps_upd] | with_reducible apply foldl_keeps
    | with_reducible apply ite_keeps | split | with_reducible refine keeps_snd (by assumption) ?_
    | with_reducible refine keeps_fst (by assumption) ?_

theorem State.renderBlock_keeps {quiet : Bool} {a : State} (s : State) (k : Fin 8) (c : UpdCtx) (g : ℕ) (step : ℕ) (count : Bool) (hs : Keeps quiet a s) :
    Keeps quiet a (State.renderBlock s k c g step count) := by
  unfold State.renderBlock
  try dsimp only
  repeat' first
    | with_reducible intro _ | with_reducible assumption | with_reducible apply State.putGroup_keeps
    | with_reducible apply State.writeSkimAt_keeps | with_reducible apply hs | simp only [keeps_upd] | with_reducible apply foldl_keeps
    | with_reducible apply ite_keeps | split | with_reducible refine keeps_snd (by assumption) ?_
    | with_reducible refine keeps_fst (by assumption) ?_

theorem State.poisonBlock_keeps {quiet : Bool} {a : State} (s : State) (t : Tensor) (st : Struct) (g : ℕ) (hs : Keeps quiet a s) :
    Keeps quiet a (State.poisonBlock s t st g) := by
  unfold State.poisonBlock
  try dsimp only
  repeat' first
    | with_reducible intro _ | with_reducible assumption | with_reducible apply State.poisonSkimOf_keeps
    | with_reducible apply State.poisonPlace_keeps | with_reducible apply hs | simp only [keeps_upd] | with_reducible apply foldl_keeps
    | with_reducible apply ite_keeps | split | with_reducible refine keeps_snd (by assumption) ?_
    | with_reducible refine keeps_fst (by assumption) ?_

theorem State.modUpd_keeps {quiet : Bool} {a : State} (s : State) (d : Fin 8) (i : Fin 12) (f : UpdUnit → UpdUnit) (hs : Keeps quiet a s) :
    Keeps quiet a (State.modUpd s d i f) := by
  unfold State.modUpd
  try dsimp only
  repeat' first
    | with_reducible intro _ | with_reducible assumption | with_reducible apply State.modStack_keeps | with_reducible apply hs
    | simp only [keeps_upd] | with_reducible apply foldl_keeps | with_reducible apply ite_keeps | split
    | with_reducible refine keeps_snd (by assumption) ?_ | with_reducible refine keeps_fst (by assumption) ?_

theorem State.modApply_keeps {quiet : Bool} {a : State} (s : State) (d : Fin 8) (i : Fin 12) (k : Fin 8) (h : ℕ) (f : OpenApply → OpenApply) (hs : Keeps quiet a s) :
    Keeps quiet a (State.modApply s d i k h f) := by
  unfold State.modApply
  try dsimp only
  repeat' first
    | with_reducible intro _ | with_reducible assumption | with_reducible apply State.modUpd_keeps | with_reducible apply hs
    | simp only [keeps_upd] | with_reducible apply foldl_keeps | with_reducible apply ite_keeps | split
    | with_reducible refine keeps_snd (by assumption) ?_ | with_reducible refine keeps_fst (by assumption) ?_

theorem State.finishCopy_keeps {quiet : Bool} {a : State} (s : State) (k : Fin 8) (c : UpdCtx) (hs : Keeps quiet a s) :
    Keeps quiet a (State.finishCopy s k c) := by
  unfold State.finishCopy
  try dsimp only
  repeat' first
    | with_reducible intro _ | with_reducible assumption | with_reducible apply State.writeNorms_keeps | with_reducible apply hs
    | simp only [keeps_upd] | with_reducible apply foldl_keeps | with_reducible apply ite_keeps | split
    | with_reducible refine keeps_snd (by assumption) ?_ | with_reducible refine keeps_fst (by assumption) ?_

theorem State.closeApply_keeps {quiet : Bool} {a : State} (s : State) (d : Fin 8) (i : Fin 12) (k : Fin 8) (t : Task) (c : UpdCtx) (o : OpenApply) (st : Status) (hs : Keeps quiet a s) :
    Keeps quiet a (State.closeApply s d i k t c o st) := by
  unfold State.closeApply
  try dsimp only
  repeat' first
    | with_reducible intro _ | with_reducible assumption | with_reducible apply State.modUpd_keeps
    | with_reducible apply State.oncePerStep_keeps | with_reducible apply State.suiteEvent_keeps | with_reducible apply State.modSuite_keeps
    | with_reducible apply State.finish_keeps | with_reducible apply hs | simp only [keeps_upd] | with_reducible apply foldl_keeps
    | with_reducible apply ite_keeps | split | with_reducible refine keeps_snd (by assumption) ?_
    | with_reducible refine keeps_fst (by assumption) ?_

theorem State.tryComplete_keeps {quiet : Bool} {a : State} (s : State) (d : Fin 8) (i : Fin 12) (k : Fin 8) (h : ℕ) (hs : Keeps quiet a s) :
    Keeps quiet a (State.tryComplete s d i k h) := by
  unfold State.tryComplete
  try dsimp only
  repeat' first
    | with_reducible intro _ | with_reducible assumption | with_reducible apply State.closeApply_keeps
    | with_reducible apply State.finishCopy_keeps | with_reducible apply hs | simp only [keeps_upd] | with_reducible apply foldl_keeps
    | with_reducible apply ite_keeps | split | with_reducible refine keeps_snd (by assumption) ?_
    | with_reducible refine keeps_fst (by assumption) ?_

theorem State.applyBlock_keeps {quiet : Bool} {a : State} (s : State) (k : Fin 8) (c : UpdCtx) (r : UpdRec) (kc : UpdConst) (step : Nat) (count sums : Bool)
    (g : Nat) (grs : List (Nat × Option Word)) (hs : Keeps quiet a s) : Keeps quiet a (s.applyBlock k c r kc step count sums g grs).s := by
  unfold State.applyBlock
  dsimp only
  repeat' first
    | with_reducible intro _ | with_reducible assumption | with_reducible apply State.poisonBlock_keeps
    | with_reducible apply State.addScratch_keeps | with_reducible apply foldl_keeps_fst | with_reducible apply State.renderBlock_keeps
    | with_reducible apply State.putMaster_keeps | with_reducible apply State.putMom_keeps | split

theorem State.applyReady_keeps {quiet : Bool} {a : State} (s : State) (d : Fin 8) (i : Fin 12) (k : Fin 8) (h : ℕ) (g : ℕ) (hs : Keeps quiet a s) :
    Keeps quiet a (State.applyReady s d i k h g) := by
  unfold State.applyReady
  dsimp only
  repeat' first
    | with_reducible intro _ | with_reducible assumption | with_reducible apply State.applyBlock_keeps
    | with_reducible apply State.modApply_keeps | with_reducible apply State.modUpd_keeps | with_reducible apply State.modSuite_keeps
    | with_reducible apply State.worsen_keeps | with_reducible apply State.taskMemError_keeps | with_reducible apply State.write_keeps
    | with_reducible apply foldl_keeps | with_reducible apply ite_keeps | split

theorem State.arrive_keeps {quiet : Bool} {a : State} (s : State) (d : Fin 8) (i : Fin 12) (k : Fin 8) (h : ℕ) (a0 : Arrived) (hs : Keeps quiet a s) :
    Keeps quiet a (State.arrive s d i k h a0) := by
  unfold State.arrive
  try dsimp only
  repeat' first
    | with_reducible intro _ | with_reducible assumption | with_reducible apply State.modApply_keeps
    | with_reducible apply State.modUpd_keeps | with_reducible apply State.write_keeps | with_reducible apply State.applyReady_keeps
    | with_reducible apply hs | simp only [keeps_upd] | with_reducible apply foldl_keeps | with_reducible apply ite_keeps | split
    | with_reducible refine keeps_snd (by assumption) ?_ | with_reducible refine keeps_fst (by assumption) ?_

theorem State.arriveAll_keeps {quiet : Bool} {a : State} (s : State) (d : Fin 8) (i : Fin 12) (k : Fin 8) (h : ℕ) (l : List Arrived) (hs : Keeps quiet a s) :
    Keeps quiet a (State.arriveAll s d i k h l) := by
  unfold State.arriveAll
  try dsimp only
  repeat' first
    | with_reducible intro _ | with_reducible assumption | with_reducible apply State.tryComplete_keeps
    | with_reducible apply State.arrive_keeps | with_reducible apply hs | simp only [keeps_upd] | with_reducible apply foldl_keeps
    | with_reducible apply ite_keeps | split | with_reducible refine keeps_snd (by assumption) ?_
    | with_reducible refine keeps_fst (by assumption) ?_

theorem State.openApply_keeps {quiet : Bool} {a : State} (s : State) (k : Fin 8) (t : Task) (c : UpdCtx) (r : UpdRec) (lr : Word) (hs : Keeps quiet a s) :
    Keeps quiet a (State.openApply s k t c r lr) := by
  unfold State.openApply
  try dsimp only
  repeat' first
    | with_reducible intro _ | with_reducible assumption | with_reducible apply State.oncePerStep_keeps
    | with_reducible apply State.suiteEvent_keeps | with_reducible apply State.modUpd_keeps | with_reducible apply State.write_keeps
    | with_reducible apply State.modSuite_keeps | with_reducible apply State.applyReady_keeps | with_reducible apply State.modApply_keeps
    | with_reducible apply State.worsen_keeps | with_reducible apply State.taskMemError_keeps | with_reducible apply State.arriveAll_keeps
    | with_reducible apply hs | simp only [keeps_upd] | with_reducible apply foldl_keeps | with_reducible apply ite_keeps | split
    | with_reducible refine keeps_snd (by assumption) ?_ | with_reducible refine keeps_fst (by assumption) ?_

theorem State.deliver_keeps {quiet : Bool} {a : State} (s : State) (d : Fin 8) (i : Fin 12) (k : Fin 8) (master : ℕ) (a0 : List Arrived) (hs : Keeps quiet a s) :
    Keeps quiet a (State.deliver s d i k master a0) := by
  unfold State.deliver
  try dsimp only
  repeat' first
    | with_reducible intro _ | with_reducible assumption | with_reducible apply State.arriveAll_keeps | with_reducible apply hs
    | simp only [keeps_upd] | with_reducible apply foldl_keeps | with_reducible apply ite_keeps | split
    | with_reducible refine keeps_snd (by assumption) ?_ | with_reducible refine keeps_fst (by assumption) ?_

theorem State.endApply_keeps {quiet : Bool} {a : State} (s : State) (k : Fin 8) (h : ℕ) (reason : ℕ) (st : Status) (hs : Keeps quiet a s) :
    Keeps quiet a (State.endApply s k h reason st) := by
  unfold State.endApply
  try dsimp only
  repeat' first
    | with_reducible intro _ | with_reducible assumption | with_reducible apply State.finish_keeps
    | with_reducible apply State.suiteEvent_keeps | with_reducible apply State.closeApply_keeps | with_reducible apply State.modUpd_keeps
    | with_reducible apply hs | simp only [keeps_upd] | with_reducible apply foldl_keeps | with_reducible apply ite_keeps | split
    | with_reducible refine keeps_snd (by assumption) ?_ | with_reducible refine keeps_fst (by assumption) ?_

theorem State.foldTensor_keeps {quiet : Bool} {a : State} (s : State) (r : UpdRec) (nr : ℕ) (nc : ℕ) (step : ℕ) (sat : Bool) (hs : Keeps quiet a s) :
    Keeps quiet a (State.foldTensor s r nr nc step sat) := by
  unfold State.foldTensor
  try dsimp only
  repeat' first
    | with_reducible intro _ | with_reducible assumption | with_reducible apply State.write_keeps | with_reducible apply hs
    | simp only [keeps_upd] | with_reducible apply foldl_keeps | with_reducible apply ite_keeps | split
    | with_reducible refine keeps_snd (by assumption) ?_ | with_reducible refine keeps_fst (by assumption) ?_

theorem State.clearScratch_keeps {quiet : Bool} {a : State} (s : State) (r : UpdRec) (nr : ℕ) (nc : ℕ) (hs : Keeps quiet a s) :
    Keeps quiet a (State.clearScratch s r nr nc) := by
  unfold State.clearScratch
  try dsimp only
  repeat' first
    | with_reducible intro _ | with_reducible assumption | with_reducible apply State.write_keeps | with_reducible apply hs
    | simp only [keeps_upd] | with_reducible apply foldl_keeps | with_reducible apply ite_keeps | split
    | with_reducible refine keeps_snd (by assumption) ?_ | with_reducible refine keeps_fst (by assumption) ?_

theorem State.bindUpdate_keeps {quiet : Bool} {a : State} (s : State) (k : Fin 8) (c : UpdCtx) (areas : List (ℕ × ℕ)) (hs : Keeps quiet a s) :
    ∀ t, (State.bindUpdate s k c areas) = some t → Keeps quiet a t := by
  unfold State.bindUpdate
  try dsimp only
  repeat' first
    | with_reducible intro _ | with_reducible assumption | with_reducible refine State.bindTo_keeps _ _ _ _ _ ?_ _ (by assumption)
    | with_reducible apply hs | simp only [keeps_upd] | with_reducible apply foldl_keeps | with_reducible apply ite_keeps | split
    | exact keeps_none | apply keeps_some | with_reducible refine keeps_snd (by assumption) ?_
    | with_reducible refine keeps_fst (by assumption) ?_

theorem State.withBinding_keeps {quiet : Bool} {a : State} (s : State) (k : Fin 8) (t : Task) (c : UpdCtx) (areas : List (ℕ × ℕ)) (f : State → State) (hs : Keeps quiet a s) (hf : ∀ x0, Keeps quiet a x0 → Keeps quiet a (f x0)) :
    Keeps quiet a (State.withBinding s k t c areas f) := by
  unfold State.withBinding
  split
  · exact State.finish_keeps _ _ _ _ (State.boundRefused_keeps _ _ _ _ _ hs)
  · exact hf _ (State.bindUpdate_keeps _ _ _ _ hs _ (by assumption))

theorem State.startUpdate_keeps {quiet : Bool} {a : State} (s : State) (k : Fin 8) (t : Task) (c : UpdCtx) (next : Bool) (f : State → State) (hs : Keeps quiet a s) (hf : ∀ x0, Keeps quiet a x0 → Keeps quiet a (f x0)) :
    Keeps quiet a (State.startUpdate s k t c next f) := by
  unfold State.startUpdate
  try dsimp only
  repeat' first
    | with_reducible intro _ | with_reducible assumption | with_reducible apply State.finish_keeps | with_reducible apply State.modUpd_keeps
    | with_reducible apply hs | with_reducible apply hf | simp only [keeps_upd] | with_reducible apply foldl_keeps
    | with_reducible apply ite_keeps | split | with_reducible refine keeps_snd (by assumption) ?_
    | with_reducible refine keeps_fst (by assumption) ?_

theorem State.runApply_keeps {quiet : Bool} {a : State} (s : State) (k : Fin 8) (t : Task) (next : optParam Bool false) (hs : Keeps quiet a s) :
    Keeps quiet a (State.runApply s k t next) := by
  unfold State.runApply
  try dsimp only
  repeat' first
    | with_reducible intro _ | with_reducible assumption | with_reducible apply State.updRefuse_keeps
    | with_reducible apply State.finish_keeps | with_reducible apply State.withBinding_keeps | with_reducible apply State.startUpdate_keeps
    | with_reducible apply State.openApply_keeps | with_reducible apply hs | simp only [keeps_upd] | with_reducible apply foldl_keeps
    | with_reducible apply ite_keeps | split | with_reducible refine keeps_snd (by assumption) ?_
    | with_reducible refine keeps_fst (by assumption) ?_

theorem State.verifyEvent_keeps {quiet : Bool} {a : State} (s : State) (k : Fin 8) (t : Task) (c : UpdCtx) (a0 : ℕ) (b : ℕ) (hs : Keeps quiet a s) :
    Keeps quiet a (State.verifyEvent s k t c a0 b) := by
  unfold State.verifyEvent
  try dsimp only
  repeat' first
    | with_reducible intro _ | with_reducible assumption | with_reducible apply State.suiteEvent_keeps | with_reducible apply hs
    | simp only [keeps_upd] | with_reducible apply foldl_keeps | with_reducible apply ite_keeps | split
    | with_reducible refine keeps_snd (by assumption) ?_ | with_reducible refine keeps_fst (by assumption) ?_

theorem State.replayRun_keeps {quiet : Bool} {a : State} (s : State) (k : Fin 8) (t : Task) (c : UpdCtx) (r : UpdRec) (hs : Keeps quiet a s) :
    Keeps quiet a (State.replayRun s k t c r) := by
  unfold State.replayRun
  dsimp only
  repeat' first
    | with_reducible intro _ | with_reducible assumption | with_reducible apply State.applyBlock_keeps
    | with_reducible apply State.updRefuse_keeps | with_reducible apply State.finish_keeps | with_reducible apply State.withBinding_keeps
    | with_reducible apply State.startUpdate_keeps | with_reducible apply State.verifyEvent_keeps | with_reducible apply State.modUpd_keeps
    | with_reducible apply State.modSuite_keeps | with_reducible apply State.worsen_keeps | with_reducible apply State.taskMemError_keeps
    | with_reducible apply State.clearScratch_keeps | with_reducible apply State.finishCopy_keeps
    | with_reducible apply State.foldTensor_keeps | with_reducible apply State.addScratch_keeps | with_reducible apply foldl_keeps_fst
    | with_reducible apply ite_keeps | split | exact State.addScratch_keeps _ _ _ (State.addScratch_keeps _ _ _ (by assumption))

theorem State.runReplay_keeps {quiet : Bool} {a : State} (s : State) (k : Fin 8) (t : Task) (next : optParam Bool false) (hs : Keeps quiet a s) :
    Keeps quiet a (State.runReplay s k t next) := by
  unfold State.runReplay
  dsimp only
  repeat' first
    | with_reducible intro _ | with_reducible assumption | with_reducible apply State.applyBlock_keeps
    | with_reducible apply State.updRefuse_keeps | with_reducible apply State.finish_keeps | with_reducible apply State.withBinding_keeps
    | with_reducible apply State.startUpdate_keeps | with_reducible apply State.verifyEvent_keeps | with_reducible apply State.modUpd_keeps
    | with_reducible apply State.modSuite_keeps | with_reducible apply State.worsen_keeps | with_reducible apply State.taskMemError_keeps
    | with_reducible apply State.clearScratch_keeps | with_reducible apply State.finishCopy_keeps
    | with_reducible apply State.foldTensor_keeps | with_reducible apply State.addScratch_keeps | with_reducible apply State.replayRun_keeps
    | with_reducible apply foldl_keeps_fst | with_reducible apply ite_keeps | split

theorem execUpdateApply_keeps {quiet : Bool} {a : State} (k : Fin 8) (h : ℕ) (s : State) (hs : Keeps quiet a s) :
    KeepsOut quiet a (execUpdateApply k h s) := by
  unfold execUpdateApply
  try dsimp only
  repeat' first
    | with_reducible intro _ | with_reducible assumption | with_reducible apply keeps_next | with_reducible apply State.runTask_keeps
    | with_reducible apply State.withRecord_keeps | with_reducible apply State.runApply_keeps | with_reducible apply hs
    | simp only [keeps_upd] | with_reducible apply foldl_keeps | with_reducible apply ite_keepsOut | with_reducible apply ite_keeps | split
    | with_reducible refine keeps_snd (by assumption) ?_ | with_reducible refine keeps_fst (by assumption) ?_

theorem execUpdateReplay_keeps {quiet : Bool} {a : State} (k : Fin 8) (h : ℕ) (s : State) (hs : Keeps quiet a s) :
    KeepsOut quiet a (execUpdateReplay k h s) := by
  unfold execUpdateReplay
  try dsimp only
  repeat' first
    | with_reducible intro _ | with_reducible assumption | with_reducible apply keeps_next | with_reducible apply State.runTask_keeps
    | with_reducible apply State.withRecord_keeps | with_reducible apply State.runReplay_keeps | with_reducible apply hs
    | simp only [keeps_upd] | with_reducible apply foldl_keeps | with_reducible apply ite_keepsOut | with_reducible apply ite_keeps | split
    | with_reducible refine keeps_snd (by assumption) ?_ | with_reducible refine keeps_fst (by assumption) ?_

theorem execApplyOpen_keeps {quiet : Bool} {a : State} (d : Fin 8) (i : Fin 12) (s : State) (hs : Keeps quiet a s) :
    KeepsOut quiet a (execApplyOpen d i s) := by
  unfold execApplyOpen
  try dsimp only
  repeat' first
    | with_reducible intro _ | with_reducible assumption | with_reducible apply keeps_next | with_reducible apply State.modUpd_keeps
    | with_reducible apply State.onRunning_keeps | with_reducible apply State.confine_keeps | with_reducible apply State.runReplay_keeps
    | with_reducible apply State.runApply_keeps | with_reducible apply hs | simp only [keeps_upd] | with_reducible apply foldl_keeps
    | with_reducible apply ite_keepsOut | with_reducible apply ite_keeps | split | with_reducible refine keeps_snd (by assumption) ?_
    | with_reducible refine keeps_fst (by assumption) ?_

theorem execGradientArrival_keeps {quiet : Bool} {a : State} (d : Fin 8) (i : Fin 12) (h : ℕ) (elem : ℕ) (total : ℤ) (grid : ℤ) (marked : Bool) (s : State) (hs : Keeps quiet a s) :
    KeepsOut quiet a (execGradientArrival d i h elem total grid marked s) := by
  unfold execGradientArrival
  try dsimp only
  repeat' first
    | with_reducible intro _ | with_reducible assumption | with_reducible apply keeps_next | with_reducible apply State.confine_keeps
    | with_reducible apply State.deliver_keeps | with_reducible apply hs | simp only [keeps_upd] | with_reducible apply foldl_keeps
    | with_reducible apply ite_keepsOut | with_reducible apply ite_keeps | split | with_reducible refine keeps_snd (by assumption) ?_
    | with_reducible refine keeps_fst (by assumption) ?_

theorem State.setFrozen_keeps {quiet : Bool} {a : State} (s : State) (at_ : List ℕ) (v : Bool) (hs : Keeps quiet a s) :
    Keeps quiet a (State.setFrozen s at_ v) := by
  unfold State.setFrozen
  try dsimp only
  repeat' first
    | with_reducible intro _ | with_reducible assumption | with_reducible apply State.setEntryFlag_keeps | with_reducible apply hs
    | simp only [keeps_upd] | with_reducible apply foldl_keeps | with_reducible apply ite_keeps | split
    | with_reducible refine keeps_snd (by assumption) ?_ | with_reducible refine keeps_fst (by assumption) ?_

theorem State.runFreeze_keeps {quiet : Bool} {a : State} (s : State) (k : Fin 8) (t : Task) (v : Bool) (hs : Keeps quiet a s) :
    Keeps quiet a (State.runFreeze s k t v) := by
  unfold State.runFreeze
  try dsimp only
  repeat' first
    | with_reducible intro _ | with_reducible assumption | with_reducible apply State.finish_keeps
    | with_reducible apply State.modSuite_keeps | with_reducible apply State.setFrozen_keeps | with_reducible apply hs
    | simp only [keeps_upd] | with_reducible apply foldl_keeps | with_reducible apply ite_keeps | split
    | with_reducible refine keeps_snd (by assumption) ?_ | with_reducible refine keeps_fst (by assumption) ?_

theorem execUpdateFreeze_keeps {quiet : Bool} {a : State} (k : Fin 8) (h : ℕ) (s : State) (hs : Keeps quiet a s) :
    KeepsOut quiet a (execUpdateFreeze k h s) := by
  unfold execUpdateFreeze
  try dsimp only
  repeat' first
    | with_reducible intro _ | with_reducible assumption | with_reducible apply keeps_next | with_reducible apply State.runTask_keeps
    | with_reducible apply State.runFreeze_keeps | with_reducible apply hs | simp only [keeps_upd] | with_reducible apply foldl_keeps
    | with_reducible apply ite_keepsOut | with_reducible apply ite_keeps | split | with_reducible refine keeps_snd (by assumption) ?_
    | with_reducible refine keeps_fst (by assumption) ?_

theorem execUpdateThaw_keeps {quiet : Bool} {a : State} (k : Fin 8) (h : ℕ) (s : State) (hs : Keeps quiet a s) :
    KeepsOut quiet a (execUpdateThaw k h s) := by
  unfold execUpdateThaw
  try dsimp only
  repeat' first
    | with_reducible intro _ | with_reducible assumption | with_reducible apply keeps_next | with_reducible apply State.runTask_keeps
    | with_reducible apply State.runFreeze_keeps | with_reducible apply hs | simp only [keeps_upd] | with_reducible apply foldl_keeps
    | with_reducible apply ite_keepsOut | with_reducible apply ite_keeps | split | with_reducible refine keeps_snd (by assumption) ?_
    | with_reducible refine keeps_fst (by assumption) ?_

theorem State.updateVerify_keeps {quiet : Bool} {a : State} (s : State) (k : Fin 8) (t : Task) (hs : Keeps quiet a s) :
    Keeps quiet a (State.updateVerify s k t) := by
  unfold State.updateVerify
  try dsimp only
  repeat' first
    | with_reducible intro _ | with_reducible assumption | with_reducible apply State.withRecord_keeps
    | with_reducible apply State.updRefuse_keeps | with_reducible apply State.finish_keeps | with_reducible apply State.modTask_keeps
    | with_reducible apply State.verifyEvent_keeps | with_reducible apply hs | simp only [keeps_upd] | with_reducible apply foldl_keeps
    | with_reducible apply ite_keeps | split | with_reducible refine keeps_snd (by assumption) ?_
    | with_reducible refine keeps_fst (by assumption) ?_

theorem execUpdateVerify_keeps {quiet : Bool} {a : State} (k : Fin 8) (h : ℕ) (s : State) (hs : Keeps quiet a s) :
    KeepsOut quiet a (execUpdateVerify k h s) := by
  unfold execUpdateVerify
  try dsimp only
  repeat' first
    | with_reducible intro _ | with_reducible assumption | with_reducible apply keeps_next | with_reducible apply State.runTask_keeps
    | with_reducible apply State.updateVerify_keeps | with_reducible apply hs | simp only [keeps_upd] | with_reducible apply foldl_keeps
    | with_reducible apply ite_keepsOut | with_reducible apply ite_keeps | split | with_reducible refine keeps_snd (by assumption) ?_
    | with_reducible refine keeps_fst (by assumption) ?_

theorem State.renderAll_keeps {quiet : Bool} {a : State} (s : State) (k : Fin 8) (c : UpdCtx) (step : ℕ) (count : Bool) (hs : Keeps quiet a s) :
    Keeps quiet a (State.renderAll s k c step count) := by
  unfold State.renderAll
  try dsimp only
  repeat' first
    | with_reducible intro _ | with_reducible assumption | with_reducible apply State.renderBlock_keeps
    | with_reducible apply State.poisonBlock_keeps | with_reducible apply State.settle_keeps | with_reducible apply State.finishCopy_keeps
    | with_reducible apply hs | simp only [keeps_upd] | with_reducible apply foldl_keeps | with_reducible apply ite_keeps | split
    | with_reducible refine keeps_snd (by assumption) ?_ | with_reducible refine keeps_fst (by assumption) ?_

theorem State.updateRender_keeps {quiet : Bool} {a : State} (s : State) (k : Fin 8) (t : Task) (hs : Keeps quiet a s) :
    Keeps quiet a (State.updateRender s k t) := by
  unfold State.updateRender
  try dsimp only
  repeat' first
    | with_reducible intro _ | with_reducible assumption | with_reducible apply State.withRecord_keeps
    | with_reducible apply State.updRefuse_keeps | with_reducible apply State.finish_keeps | with_reducible apply State.withBinding_keeps
    | with_reducible apply State.renderAll_keeps | with_reducible apply State.worsen_keeps | with_reducible apply State.taskMemError_keeps
    | with_reducible apply hs | simp only [keeps_upd] | with_reducible apply foldl_keeps | with_reducible apply ite_keeps | split
    | with_reducible refine keeps_snd (by assumption) ?_ | with_reducible refine keeps_fst (by assumption) ?_

theorem execUpdateRender_keeps {quiet : Bool} {a : State} (k : Fin 8) (h : ℕ) (s : State) (hs : Keeps quiet a s) :
    KeepsOut quiet a (execUpdateRender k h s) := by
  unfold execUpdateRender
  try dsimp only
  repeat' first
    | with_reducible intro _ | with_reducible assumption | with_reducible apply keeps_next | with_reducible apply State.runTask_keeps
    | with_reducible apply State.updateRender_keeps | with_reducible apply hs | simp only [keeps_upd] | with_reducible apply foldl_keeps
    | with_reducible apply ite_keepsOut | with_reducible apply ite_keeps | split | with_reducible refine keeps_snd (by assumption) ?_
    | with_reducible refine keeps_fst (by assumption) ?_

/-! ### Retire -/

theorem State.logRetired_keeps {quiet : Bool} {a : State} (s : State) (e : RetEntry) (flags : ℕ) (left : ℕ) (hs : Keeps quiet a s) :
    Keeps quiet a (State.logRetired s e flags left) := by
  unfold State.logRetired
  try dsimp only
  repeat' first
    | with_reducible intro _ | with_reducible assumption | with_reducible apply State.suiteEvent_keeps
    | with_reducible apply State.mgtEvent_keeps | with_reducible apply hs | simp only [keeps_upd] | with_reducible apply foldl_keeps
    | with_reducible apply ite_keeps | split | with_reducible refine keeps_snd (by assumption) ?_
    | with_reducible refine keeps_fst (by assumption) ?_

theorem State.withholdRet_keeps {quiet : Bool} {a : State} (s : State) (e : RetEntry) (left : ℕ) (hs : Keeps quiet a s) :
    Keeps quiet a (State.withholdRet s e left) := by
  unfold State.withholdRet
  try dsimp only
  repeat' first
    | with_reducible intro _ | with_reducible assumption | with_reducible apply State.logRetired_keeps | with_reducible apply hs
    | simp only [keeps_upd] | with_reducible apply foldl_keeps | with_reducible apply ite_keeps | split
    | with_reducible refine keeps_snd (by assumption) ?_ | with_reducible refine keeps_fst (by assumption) ?_

theorem State.recordRet_keeps {quiet : Bool} {a : State} (s : State) (e : RetEntry) (hs : Keeps quiet a s) :
    Keeps quiet a (State.recordRet s e) := by
  unfold State.recordRet
  try dsimp only
  repeat' first
    | with_reducible intro _ | with_reducible assumption | with_reducible apply hs | simp only [keeps_upd]
    | with_reducible apply foldl_keeps | with_reducible apply ite_keeps | split | with_reducible refine keeps_snd (by assumption) ?_
    | with_reducible refine keeps_fst (by assumption) ?_

theorem State.unlatch_keeps {a : State} (s : State) (fn : ℕ) (lo : ℕ) (n : ℕ) (hs : Keeps false a s) :
    Keeps false a (State.unlatch s fn lo n) := by
  unfold State.unlatch
  try dsimp only
  repeat' first
    | with_reducible intro _ | with_reducible assumption | with_reducible apply hs | simp only [keeps_upd_any]
    | with_reducible apply foldl_keeps | with_reducible apply ite_keeps | split | with_reducible refine keeps_snd (by assumption) ?_
    | with_reducible refine keeps_fst (by assumption) ?_

theorem State.resetPanel_keeps {a : State} (s : State) (d : Fin 8) (p : Fin 104) (f : Panel → Panel) (hs : Keeps false a s) :
    Keeps false a (State.resetPanel s d p f) := by
  unfold State.resetPanel
  try dsimp only
  repeat' first
    | with_reducible intro _ | with_reducible assumption | with_reducible apply State.modPanel_keeps
    | with_reducible apply State.unlatch_keeps | with_reducible apply hs | simp only [keeps_upd_any] | with_reducible apply foldl_keeps
    | with_reducible apply ite_keeps | split | with_reducible refine keeps_snd (by assumption) ?_
    | with_reducible refine keeps_fst (by assumption) ?_

theorem State.countAhead_keeps {quiet : Bool} {a : State} (s : State) (d : Fin 8) (issued : ℕ) (used : ℕ) (cancelled : ℕ) (hs : Keeps quiet a s) :
    Keeps quiet a (State.countAhead s d issued used cancelled) := by
  unfold State.countAhead
  try dsimp only
  repeat' first
    | with_reducible intro _ | with_reducible assumption | with_reducible apply State.modDie_keeps | with_reducible apply hs
    | simp only [keeps_upd] | with_reducible apply foldl_keeps | with_reducible apply ite_keeps | split
    | with_reducible refine keeps_snd (by assumption) ?_ | with_reducible refine keeps_fst (by assumption) ?_

theorem State.cancelSpec_keeps {quiet : Bool} {a : State} (s : State) (d : Fin 8) (p : Fin 104) (on : SpecRead → Bool) (hs : Keeps quiet a s) :
    Keeps quiet a (State.cancelSpec s d p on) := by
  unfold State.cancelSpec
  try dsimp only
  repeat' first
    | with_reducible intro _ | with_reducible assumption | with_reducible apply State.modPanel_keeps
    | with_reducible apply State.countAhead_keeps | with_reducible apply hs | simp only [keeps_upd] | with_reducible apply foldl_keeps
    | with_reducible apply ite_keeps | split | with_reducible refine keeps_snd (by assumption) ?_
    | with_reducible refine keeps_fst (by assumption) ?_

theorem State.tilesGone_keeps {quiet : Bool} {a : State} (s : State) (ths : List Thread) (st : Status) (hs : Keeps quiet a s) :
    Keeps quiet a (State.tilesGone s ths st) := by
  unfold State.tilesGone
  try dsimp only
  repeat' first
    | with_reducible intro _ | with_reducible assumption | with_reducible apply State.modTask_keeps | with_reducible apply hs
    | simp only [keeps_upd] | with_reducible apply foldl_keeps | with_reducible apply ite_keeps | split
    | with_reducible refine keeps_snd (by assumption) ?_ | with_reducible refine keeps_fst (by assumption) ?_

theorem State.moveTiles_keeps {quiet : Bool} {a : State} (s : State) (d : Fin 8) (p : Fin 104) (hs : Keeps quiet a s) :
    Keeps quiet a (State.moveTiles s d p) := by
  unfold State.moveTiles
  try dsimp only
  repeat' first
    | with_reducible intro _ | with_reducible assumption | with_reducible apply State.modPanel_keeps
    | with_reducible apply State.cancelSpec_keeps | with_reducible apply State.tilesGone_keeps | with_reducible apply hs
    | simp only [keeps_upd] | with_reducible apply foldl_keeps | with_reducible apply ite_keeps | split
    | with_reducible refine keeps_snd (by assumption) ?_ | with_reducible refine keeps_fst (by assumption) ?_

theorem State.startSpare_keeps {quiet : Bool} {a : State} (s : State) (d : Fin 8) (hs : Keeps quiet a s) :
    Keeps quiet a (State.startSpare s d) := by
  unfold State.startSpare
  try dsimp only
  repeat' first
    | with_reducible intro _ | with_reducible assumption | with_reducible apply State.modPanel_keeps | with_reducible apply hs
    | simp only [keeps_upd] | with_reducible apply foldl_keeps | with_reducible apply ite_keeps | split
    | with_reducible refine keeps_snd (by assumption) ?_ | with_reducible refine keeps_fst (by assumption) ?_

theorem State.retirePanel_keeps {quiet : Bool} {a : State} (s : State) (d : Fin 8) (p : Fin 104) (reason : ℕ) (hs : Keeps quiet a s) :
    Keeps quiet a (State.retirePanel s d p reason) := by
  unfold State.retirePanel
  try dsimp only
  repeat' first
    | with_reducible intro _ | with_reducible assumption | with_reducible apply State.withholdRet_keeps
    | with_reducible apply State.logRetired_keeps | with_reducible apply State.moveTiles_keeps | with_reducible apply State.modPanel_keeps
    | with_reducible apply State.recordRet_keeps | with_reducible apply State.startSpare_keeps | with_reducible apply hs
    | simp only [keeps_upd] | with_reducible apply foldl_keeps | with_reducible apply ite_keeps | split
    | with_reducible refine keeps_snd (by assumption) ?_ | with_reducible refine keeps_fst (by assumption) ?_

theorem State.failPc_keeps {quiet : Bool} {a : State} (s : State) (d : Fin 8) (i : Fin 12) (pc : ℕ) (reason : ℕ) (hs : Keeps quiet a s) :
    Keeps quiet a (State.failPc s d i pc reason) := by
  unfold State.failPc
  try dsimp only
  repeat' first
    | with_reducible intro _ | with_reducible assumption | with_reducible apply State.withholdRet_keeps
    | with_reducible apply State.modStack_keeps | with_reducible apply hs | simp only [keeps_upd] | with_reducible apply foldl_keeps
    | with_reducible apply ite_keeps | split | with_reducible refine keeps_snd (by assumption) ?_
    | with_reducible refine keeps_fst (by assumption) ?_

theorem State.retireGroup_keeps {quiet : Bool} {a : State} (s : State) (d : Fin 8) (e : Fin 3) (g : ℕ) (reason : ℕ) (hs : Keeps quiet a s) :
    Keeps quiet a (State.retireGroup s d e g reason) := by
  unfold State.retireGroup
  try dsimp only
  repeat' first
    | with_reducible intro _ | with_reducible assumption | with_reducible apply State.withholdRet_keeps
    | with_reducible apply State.logRetired_keeps | with_reducible apply State.recordRet_keeps | with_reducible apply State.modEdge_keeps
    | with_reducible apply hs | simp only [keeps_upd] | with_reducible apply foldl_keeps | with_reducible apply ite_keeps | split
    | with_reducible refine keeps_snd (by assumption) ?_ | with_reducible refine keeps_fst (by assumption) ?_

theorem State.commitPc_keeps {quiet : Bool} {a : State} (s : State) (d : Fin 8) (i : Fin 12) (pc : ℕ) (reason : ℕ) (hs : Keeps quiet a s) :
    Keeps quiet a (State.commitPc s d i pc reason) := by
  unfold State.commitPc
  dsimp only
  exact State.recordRet_keeps _ _ (keeps_mem_filter _ _ (State.modStack_keeps _ _ _ _ (State.logRetired_keeps _ _ _ _ hs)))

theorem State.commitStack_keeps {quiet : Bool} {a : State} (s : State) (d : Fin 8) (i : Fin 12) (step : ℕ) (hs : Keeps quiet a s) :
    Keeps quiet a (State.commitStack s d i step) := by
  unfold State.commitStack
  try dsimp only
  repeat' first
    | with_reducible intro _ | with_reducible assumption | with_reducible apply State.commitPc_keeps
    | with_reducible apply State.modStack_keeps | with_reducible apply State.dieEvent_keeps | with_reducible apply hs
    | simp only [keeps_upd] | with_reducible apply foldl_keeps | with_reducible apply ite_keeps | split
    | with_reducible refine keeps_snd (by assumption) ?_ | with_reducible refine keeps_fst (by assumption) ?_

/-! ### Product -/

theorem State.putRaw_keeps {quiet : Bool} {a : State} (s : State) (t : Tensor) (ps : List (Place × ℕ)) (hs : Keeps quiet a s) :
    Keeps quiet a (State.putRaw s t ps) := by
  unfold State.putRaw
  try dsimp only
  repeat' first
    | with_reducible intro _ | with_reducible assumption | with_reducible apply State.putCode_keeps
    | with_reducible apply State.putCodes_keeps | with_reducible apply hs | simp only [keeps_upd] | with_reducible apply foldl_keeps
    | with_reducible apply ite_keeps | split | with_reducible refine keeps_snd (by assumption) ?_
    | with_reducible refine keeps_fst (by assumption) ?_

theorem State.drainC_keeps {quiet : Bool} {a : State} (s0 : State) (s : State) (k : Fin 8) (t : Task) (p : Prod) (ts : List OutTile) (hs0 : Keeps quiet a s0) (hs : Keeps quiet a s) :
    Keeps quiet a (State.drainC s0 s k t p ts) := by
  unfold State.drainC
  try dsimp only
  repeat' first
    | with_reducible intro _ | with_reducible assumption | with_reducible apply State.deliver_keeps
    | with_reducible apply State.settle_keeps | with_reducible apply State.putRaw_keeps | with_reducible apply State.write_keeps
    | with_reducible apply State.putAll_keeps | with_reducible apply State.reportNan_keeps | with_reducible apply hs0
    | with_reducible apply hs | simp only [keeps_upd] | with_reducible apply foldl_keeps | with_reducible apply ite_keeps | split
    | with_reducible refine keeps_snd (by assumption) ?_ | with_reducible refine keeps_fst (by assumption) ?_

theorem State.drainD_keeps {quiet : Bool} {a : State} (s0 : State) (s : State) (k : Fin 8) (t : Task) (p : Prod) (ts : List OutTile) (hs0 : Keeps quiet a s0) (hs : Keeps quiet a s) :
    Keeps quiet a (State.drainD s0 s k t p ts) := by
  unfold State.drainD
  try dsimp only
  repeat' first
    | with_reducible intro _ | with_reducible assumption | with_reducible apply State.write_keeps | with_reducible apply State.settle_keeps
    | with_reducible apply State.reportNan_keeps | with_reducible apply State.putAll_keeps | with_reducible apply hs0
    | with_reducible apply hs | simp only [keeps_upd] | with_reducible apply foldl_keeps | with_reducible apply ite_keeps | split
    | with_reducible refine keeps_snd (by assumption) ?_ | with_reducible refine keeps_fst (by assumption) ?_

theorem State.keepStats_keeps {quiet : Bool} {a : State} (s0 : State) (s : State) (k : Fin 8) (t : Task) (p : Prod) (ts : List OutTile) (hs0 : Keeps quiet a s0) (hs : Keeps quiet a s) :
    Keeps quiet a (State.keepStats s0 s k t p ts) := by
  unfold State.keepStats
  try dsimp only
  repeat' first
    | with_reducible intro _ | with_reducible assumption | with_reducible apply State.modTask_keeps | with_reducible apply hs0
    | with_reducible apply hs | simp only [keeps_upd] | with_reducible apply foldl_keeps | with_reducible apply ite_keeps | split
    | with_reducible refine keeps_snd (by assumption) ?_ | with_reducible refine keeps_fst (by assumption) ?_

theorem State.drainRows_keeps {quiet : Bool} {a : State} (s : State) (k : Fin 8) (h : ℕ) (p : Prod) (hs : Keeps quiet a s) :
    Keeps quiet a (State.drainRows s k h p) := by
  unfold State.drainRows
  try dsimp only
  repeat' first
    | with_reducible intro _ | with_reducible assumption | with_reducible apply State.putCode_keeps
    | with_reducible apply State.poisonCols_keeps | with_reducible apply State.settle_keeps | with_reducible apply hs
    | simp only [keeps_upd] | with_reducible apply foldl_keeps | with_reducible apply ite_keeps | split
    | with_reducible refine keeps_snd (by assumption) ?_ | with_reducible refine keeps_fst (by assumption) ?_

theorem State.drainSat_keeps {quiet : Bool} {a : State} (s : State) (p : Prod) (ts : List OutTile) (hs : Keeps quiet a s) :
    Keeps quiet a (State.drainSat s p ts) := by
  unfold State.drainSat
  try dsimp only
  repeat' first
    | with_reducible intro _ | with_reducible assumption | with_reducible apply State.writeBit_keeps | with_reducible apply hs
    | simp only [keeps_upd] | with_reducible apply foldl_keeps | with_reducible apply ite_keeps | split
    | with_reducible refine keeps_snd (by assumption) ?_ | with_reducible refine keeps_fst (by assumption) ?_

theorem State.drainPoison_keeps {quiet : Bool} {a : State} (s : State) (k : Fin 8) (p : Prod) (ts : List OutTile) (hs : Keeps quiet a s) :
    Keeps quiet a (State.drainPoison s k p ts) := by
  unfold State.drainPoison
  try dsimp only
  repeat' first
    | with_reducible intro _ | with_reducible assumption | with_reducible apply State.poisonPlace_keeps
    | with_reducible apply State.poisonCols_keeps | with_reducible apply State.poisonRange_keeps
    | with_reducible apply State.poisonLine_keeps | with_reducible apply hs | simp only [keeps_upd] | with_reducible apply foldl_keeps
    | with_reducible apply ite_keeps | split | with_reducible refine keeps_snd (by assumption) ?_
    | with_reducible refine keeps_fst (by assumption) ?_

theorem State.drainSkim_keeps {quiet : Bool} {a : State} (s : State) (k : Fin 8) (p : Prod) (hs : Keeps quiet a s) :
    Keeps quiet a (State.drainSkim s k p) := by
  unfold State.drainSkim
  try dsimp only
  repeat' first
    | with_reducible intro _ | with_reducible assumption | with_reducible apply State.poisonSkimOf_keeps
    | with_reducible apply State.writeSkim_keeps | with_reducible apply hs | simp only [keeps_upd] | with_reducible apply foldl_keeps
    | with_reducible apply ite_keeps | split | with_reducible refine keeps_snd (by assumption) ?_
    | with_reducible refine keeps_fst (by assumption) ?_

theorem State.chargeSat_keeps {quiet : Bool} {a : State} (s : State) (k : Fin 8) (h : ℕ) (die : ℕ) (panel : ℕ) (n : ℕ) (hs : Keeps quiet a s) :
    Keeps quiet a (State.chargeSat s k h die panel n) := by
  unfold State.chargeSat
  try dsimp only
  repeat' first
    | with_reducible intro _ | with_reducible assumption | with_reducible apply State.modPanel_keeps
    | with_reducible apply State.modSuite_keeps | with_reducible apply State.modTask_keeps | with_reducible apply State.worsen_keeps
    | with_reducible apply State.addCount_keeps | with_reducible apply hs | simp only [keeps_upd] | with_reducible apply foldl_keeps
    | with_reducible apply ite_keeps | split | with_reducible refine keeps_snd (by assumption) ?_
    | with_reducible refine keeps_fst (by assumption) ?_

theorem State.addPart_keeps {quiet : Bool} {a : State} (s : State) (k : Fin 8) (h : ℕ) (merge : ℕ) (x : RawPart) (hs : Keeps quiet a s) :
    Keeps quiet a (State.addPart s k h merge x) := by
  unfold State.addPart
  try dsimp only
  repeat' first
    | with_reducible intro _ | with_reducible assumption | with_reducible apply State.poisonLine_keeps
    | with_reducible apply State.write_keeps | with_reducible apply State.chargeSat_keeps | with_reducible apply State.modTask_keeps
    | with_reducible apply hs | simp only [keeps_upd] | with_reducible apply foldl_keeps | with_reducible apply ite_keeps | split
    | with_reducible refine keeps_snd (by assumption) ?_ | with_reducible refine keeps_fst (by assumption) ?_

theorem State.chargeUnits_keeps {quiet : Bool} {a : State} (s : State) (k : Fin 8) (t : Task) (dp : Option (Fin 8 × Fin 104)) (us : List UnitRun) (hs : Keeps quiet a s) :
    Keeps quiet a (State.chargeUnits s k t dp us) := by
  unfold State.chargeUnits
  try dsimp only
  repeat' first
    | with_reducible intro _ | with_reducible assumption | with_reducible apply State.modPanel_keeps
    | with_reducible apply State.chargeSat_keeps | with_reducible apply State.onceTask_keeps | with_reducible apply State.suiteEvent_keeps
    | with_reducible apply hs | simp only [keeps_upd] | with_reducible apply foldl_keeps | with_reducible apply ite_keeps | split
    | with_reducible refine keeps_snd (by assumption) ?_ | with_reducible refine keeps_fst (by assumption) ?_

theorem State.closeSat_keeps {quiet : Bool} {a : State} (s : State) (k : Fin 8) (h : ℕ) (hs : Keeps quiet a s) :
    Keeps quiet a (State.closeSat s k h) := by
  unfold State.closeSat
  try dsimp only
  repeat' first
    | with_reducible intro _ | with_reducible assumption | with_reducible apply State.modTask_keeps
    | with_reducible apply State.suiteEvent_keeps | with_reducible apply hs | simp only [keeps_upd] | with_reducible apply foldl_keeps
    | with_reducible apply ite_keeps | split | with_reducible refine keeps_snd (by assumption) ?_
    | with_reducible refine keeps_fst (by assumption) ?_

theorem State.respoilSkim_keeps {quiet : Bool} {a : State} (s : State) (k : Fin 8) (slot : ℕ) (hs : Keeps quiet a s) :
    Keeps quiet a (State.respoilSkim s k slot) := by
  unfold State.respoilSkim
  try dsimp only
  repeat' first
    | with_reducible intro _ | with_reducible assumption | with_reducible apply State.freeSkimSlot_keeps | with_reducible apply hs
    | simp only [keeps_upd] | with_reducible apply foldl_keeps | with_reducible apply ite_keeps | split
    | with_reducible refine keeps_snd (by assumption) ?_ | with_reducible refine keeps_fst (by assumption) ?_

theorem State.audit_keeps {quiet : Bool} {a : State} (s0 : State) (s : State) (k : Fin 8) (t : Task) (p : Prod) (ts : List OutTile) (hs0 : Keeps quiet a s0) (hs : Keeps quiet a s) :
    Keeps quiet a (State.audit s0 s k t p ts) := by
  unfold State.audit
  try dsimp only
  repeat' first
    | with_reducible intro _ | with_reducible assumption | with_reducible apply State.respoilSkim_keeps
    | with_reducible apply State.bump64_keeps | with_reducible apply State.addCount_keeps | with_reducible apply hs0
    | with_reducible apply hs | simp only [keeps_upd] | with_reducible apply foldl_keeps | with_reducible apply ite_keeps | split
    | with_reducible refine keeps_snd (by assumption) ?_ | with_reducible refine keeps_fst (by assumption) ?_

theorem State.reportEnts_keeps {quiet : Bool} {a : State} (s : State) (k : Fin 8) (h : ℕ) (t : Tensor) (es : List Ent) (hs : Keeps quiet a s) :
    Keeps quiet a (State.reportEnts s k h t es) := by
  unfold State.reportEnts
  try dsimp only
  repeat' first
    | with_reducible intro _ | with_reducible assumption | with_reducible apply State.worsen_keeps
    | with_reducible apply State.addCount_keeps | with_reducible apply State.reportInvalid_keeps | with_reducible apply hs
    | simp only [keeps_upd] | with_reducible apply foldl_keeps | with_reducible apply ite_keeps | split
    | with_reducible refine keeps_snd (by assumption) ?_ | with_reducible refine keeps_fst (by assumption) ?_

theorem State.reportOperands_keeps {quiet : Bool} {a : State} (s : State) (k : Fin 8) (t : Task) (p : Prod) (hs : Keeps quiet a s) :
    Keeps quiet a (State.reportOperands s k t p) := by
  unfold State.reportOperands
  try dsimp only
  repeat' first
    | with_reducible intro _ | with_reducible assumption | with_reducible apply State.reportEnts_keeps
    | with_reducible apply State.formatEvent_keeps | with_reducible apply hs | simp only [keeps_upd] | with_reducible apply foldl_keeps
    | with_reducible apply ite_keeps | split | with_reducible refine keeps_snd (by assumption) ?_
    | with_reducible refine keeps_fst (by assumption) ?_

theorem State.tilesDrain_keeps {quiet : Bool} {a : State} (s0 : State) (s : State) (k : Fin 8) (t : Task) (p : Prod) (ts : List OutTile) (cts : List OutTile) (hs0 : Keeps quiet a s0) (hs : Keeps quiet a s) :
    Keeps quiet a (State.tilesDrain s0 s k t p ts cts) := by
  unfold State.tilesDrain
  try dsimp only
  repeat' first
    | with_reducible intro _ | with_reducible assumption | with_reducible apply State.drainD_keeps | with_reducible apply State.drainC_keeps
    | with_reducible apply State.drainPoison_keeps | with_reducible apply State.drainSat_keeps | with_reducible apply State.audit_keeps
    | with_reducible apply State.keepStats_keeps | with_reducible apply State.worsen_keeps | with_reducible apply hs0
    | with_reducible apply hs | simp only [keeps_upd] | with_reducible apply foldl_keeps | with_reducible apply ite_keeps | split
    | with_reducible refine keeps_snd (by assumption) ?_ | with_reducible refine keeps_fst (by assumption) ?_

theorem State.runUnits_keeps {quiet : Bool} {a : State} (s : State) (k : Fin 8) (t : Task) (p : Prod) (hs : Keeps quiet a s) :
    Keeps quiet a (State.runUnits s k t p).2 := by
  unfold State.runUnits
  try dsimp only
  repeat' first
    | with_reducible intro _ | with_reducible assumption | with_reducible apply State.addPart_keeps
    | with_reducible apply State.modTask_keeps | with_reducible apply State.chargeUnits_keeps | with_reducible apply State.tilesDrain_keeps
    | with_reducible apply hs | simp only [keeps_upd] | with_reducible apply foldl_keeps | with_reducible apply ite_keeps | split
    | with_reducible refine keeps_snd (by assumption) ?_ | with_reducible refine keeps_fst (by assumption) ?_

theorem State.prodDrain_keeps {quiet : Bool} {a : State} (s : State) (k : Fin 8) (t : Task) (p : Prod) (hs : Keeps quiet a s) :
    Keeps quiet a (State.prodDrain s k t p) := by
  unfold State.prodDrain
  try dsimp only
  repeat' first
    | with_reducible intro _ | with_reducible assumption | with_reducible apply State.runUnits_keeps
    | with_reducible apply State.reportOperands_keeps | with_reducible apply State.closeSat_keeps
    | with_reducible apply State.drainSkim_keeps | with_reducible apply State.drainRows_keeps
    | with_reducible apply State.reportAccess_keeps | with_reducible apply hs | simp only [keeps_upd] | with_reducible apply foldl_keeps
    | with_reducible apply ite_keeps | split | with_reducible refine keeps_snd (by assumption) ?_
    | with_reducible refine keeps_fst (by assumption) ?_

theorem State.astStart_keeps {quiet : Bool} {a : State} (s : State) (k : Fin 8) (t : Task) (p : Prod) (hs : Keeps quiet a s) :
    Keeps quiet a (State.astStart s k t p).1 := by
  unfold State.astStart
  try dsimp only
  repeat' first
    | with_reducible intro _ | with_reducible assumption | with_reducible apply State.modSuite_keeps
    | with_reducible apply State.suiteEvent_keeps | with_reducible apply State.worsen_keeps | with_reducible apply State.oncePerStep_keeps
    | with_reducible apply State.write_keeps | with_reducible apply hs | simp only [keeps_upd] | with_reducible apply foldl_keeps
    | with_reducible apply ite_keeps | split | with_reducible refine keeps_snd (by assumption) ?_
    | with_reducible refine keeps_fst (by assumption) ?_

theorem State.beginProd_keeps {quiet : Bool} {a : State} (s : State) (k : Fin 8) (t : Task) (p : Prod) (hs : Keeps quiet a s) :
    Keeps quiet a (State.beginProd s k t p).1 := by
  unfold State.beginProd
  try dsimp only
  repeat' first
    | with_reducible intro _ | with_reducible assumption | with_reducible apply State.astStart_keeps
    | with_reducible apply State.modTask_keeps | with_reducible apply hs | simp only [keeps_upd] | with_reducible apply foldl_keeps
    | with_reducible apply ite_keeps | split | with_reducible refine keeps_snd (by assumption) ?_
    | with_reducible refine keeps_fst (by assumption) ?_

theorem State.reportExtremes_keeps {quiet : Bool} {a : State} (s : State) (k : Fin 8) (h : ℕ) (p : Prod) (ts : List (ℕ × ℕ × ℕ)) (hs : Keeps quiet a s) :
    Keeps quiet a (State.reportExtremes s k h p ts) := by
  unfold State.reportExtremes
  try dsimp only
  repeat' first
    | with_reducible intro _ | with_reducible assumption | with_reducible apply State.modSuite_keeps | with_reducible apply hs
    | simp only [keeps_upd] | with_reducible apply foldl_keeps | with_reducible apply ite_keeps | split
    | with_reducible refine keeps_snd (by assumption) ?_ | with_reducible refine keeps_fst (by assumption) ?_

theorem State.prodStart_keeps {quiet : Bool} {a : State} (s : State) (k : Fin 8) (t : Task) (p : Prod) (hs : Keeps quiet a s) :
    Keeps quiet a (State.prodStart s k t p) := by
  unfold State.prodStart
  try dsimp only
  repeat' first
    | with_reducible intro _ | with_reducible assumption | with_reducible apply State.reportExtremes_keeps
    | with_reducible apply State.beginProd_keeps | with_reducible apply hs | simp only [keeps_upd] | with_reducible apply foldl_keeps
    | with_reducible apply ite_keeps | split | with_reducible refine keeps_snd (by assumption) ?_
    | with_reducible refine keeps_fst (by assumption) ?_

theorem State.withProd_keeps {quiet : Bool} {a : State} (s : State) (k : Fin 8) (t : Task) (f : State → Prod → State) (hs : Keeps quiet a s) (hf : ∀ x0 x1, Keeps quiet a x0 → Keeps quiet a (f x0 x1)) :
    Keeps quiet a (State.withProd s k t f) := by
  unfold State.withProd
  try dsimp only
  repeat' first
    | with_reducible intro _ | with_reducible assumption | with_reducible apply State.finish_keeps
    | with_reducible apply State.suiteEvent_keeps | with_reducible apply State.refuse_keeps | with_reducible apply State.beginProd_keeps
    | with_reducible apply State.prodStart_keeps | with_reducible apply hs | with_reducible apply hf | simp only [keeps_upd]
    | with_reducible apply foldl_keeps | with_reducible apply ite_keeps | split | with_reducible refine keeps_snd (by assumption) ?_
    | with_reducible refine keeps_fst (by assumption) ?_

theorem State.runProduct_keeps {quiet : Bool} {a : State} (s : State) (k : Fin 8) (t : Task) (hs : Keeps quiet a s) :
    Keeps quiet a (State.runProduct s k t) := by
  unfold State.runProduct
  try dsimp only
  repeat' first
    | with_reducible intro _ | with_reducible assumption | with_reducible apply State.withProd_keeps
    | with_reducible apply State.finish_keeps | with_reducible apply State.prodDrain_keeps | with_reducible apply hs | simp only [keeps_upd]
    | with_reducible apply foldl_keeps | with_reducible apply ite_keeps | split | with_reducible refine keeps_snd (by assumption) ?_
    | with_reducible refine keeps_fst (by assumption) ?_

theorem execProductPlain_keeps {quiet : Bool} {a : State} (k : Fin 8) (h : ℕ) (s : State) (hs : Keeps quiet a s) :
    KeepsOut quiet a (execProductPlain k h s) := by
  unfold execProductPlain
  try dsimp only
  repeat' first
    | with_reducible intro _ | with_reducible assumption | with_reducible apply keeps_next | with_reducible apply State.runTask_keeps
    | with_reducible apply State.runProduct_keeps | with_reducible apply hs | simp only [keeps_upd] | with_reducible apply foldl_keeps
    | with_reducible apply ite_keepsOut | with_reducible apply ite_keeps | split | with_reducible refine keeps_snd (by assumption) ?_
    | with_reducible refine keeps_fst (by assumption) ?_

theorem execProductTurned_keeps {quiet : Bool} {a : State} (k : Fin 8) (h : ℕ) (s : State) (hs : Keeps quiet a s) :
    KeepsOut quiet a (execProductTurned k h s) := by
  unfold execProductTurned
  try dsimp only
  repeat' first
    | with_reducible intro _ | with_reducible assumption | with_reducible apply keeps_next | with_reducible apply State.runTask_keeps
    | with_reducible apply State.runProduct_keeps | with_reducible apply hs | simp only [keeps_upd] | with_reducible apply foldl_keeps
    | with_reducible apply ite_keepsOut | with_reducible apply ite_keeps | split | with_reducible refine keeps_snd (by assumption) ?_
    | with_reducible refine keeps_fst (by assumption) ?_

theorem execProductSampled_keeps {quiet : Bool} {a : State} (k : Fin 8) (h : ℕ) (s : State) (hs : Keeps quiet a s) :
    KeepsOut quiet a (execProductSampled k h s) := by
  unfold execProductSampled
  try dsimp only
  repeat' first
    | with_reducible intro _ | with_reducible assumption | with_reducible apply keeps_next | with_reducible apply State.runTask_keeps
    | with_reducible apply State.runProduct_keeps | with_reducible apply hs | simp only [keeps_upd] | with_reducible apply foldl_keeps
    | with_reducible apply ite_keepsOut | with_reducible apply ite_keeps | split | with_reducible refine keeps_snd (by assumption) ?_
    | with_reducible refine keeps_fst (by assumption) ?_

end Sys2Proof.Machine
end

