-- ==== Sys2Proof/Laws/KeepsTasks.lean ====
section
/-! SUPPORT. What each operation keeps (`Keeps`), one lemma per operation, in the model's order: the task commands, the panels, the memory commands and the step boundary. -/

namespace Sys2Proof.Machine

/-! ### Slots -/

theorem State.slotAccess_keeps {quiet : Bool} {a : State} (s : State) (k : Fin 8) (t : Task) (table : ℕ) (area : Option ℕ) (count : ℕ) (hs : Keeps quiet a s) :
    Keeps quiet a (State.slotAccess s k t table area count) := by
  unfold State.slotAccess
  try dsimp only
  repeat' first
    | with_reducible intro _ | with_reducible assumption | with_reducible apply State.reportAccess_keeps | with_reducible apply hs
    | simp only [keeps_upd] | with_reducible apply foldl_keeps | with_reducible apply ite_keeps | split
    | with_reducible refine keeps_snd (by assumption) ?_ | with_reducible refine keeps_fst (by assumption) ?_

theorem State.slotsRun_keeps {quiet : Bool} {a : State} (s : State) (k : Fin 8) (t : Task) (at_ : ℕ → ℕ) (area : Option ℕ) (f : State → ℕ → ℕ → State) (hs : Keeps quiet a s) (hf : ∀ x0 x1 x2, Keeps quiet a x0 → Keeps quiet a (f x0 x1 x2)) :
    Keeps quiet a (State.slotsRun s k t at_ area f) := by
  unfold State.slotsRun
  try dsimp only
  repeat' first
    | with_reducible intro _ | with_reducible assumption | with_reducible apply State.finish_keeps
    | with_reducible apply State.slotAccess_keeps | with_reducible apply hs | with_reducible apply hf | simp only [keeps_upd]
    | with_reducible apply foldl_keeps | with_reducible apply ite_keeps | split | with_reducible refine keeps_snd (by assumption) ?_
    | with_reducible refine keeps_fst (by assumption) ?_

theorem State.slotTask_keeps {quiet : Bool} {a : State} (s : State) (k : Fin 8) (t : Task) (limit : ℕ) (at_ : ℕ → ℕ) (ok : Bool) (area : Option ℕ) (f : State → ℕ → ℕ → State) (hs : Keeps quiet a s) (hf : ∀ x0 x1 x2, Keeps quiet a x0 → Keeps quiet a (f x0 x1 x2)) :
    Keeps quiet a (State.slotTask s k t limit at_ ok area f) := by
  unfold State.slotTask
  try dsimp only
  repeat' first
    | with_reducible intro _ | with_reducible assumption | with_reducible apply State.finish_keeps
    | with_reducible apply State.slotsRun_keeps | with_reducible apply hs | with_reducible apply hf | simp only [keeps_upd]
    | with_reducible apply foldl_keeps | with_reducible apply ite_keeps | split | with_reducible refine keeps_snd (by assumption) ?_
    | with_reducible refine keeps_fst (by assumption) ?_

theorem State.knownScale_keeps {quiet : Bool} {a : State} (s : State) (k : Fin 8) (slot : ℕ) (hs : Keeps quiet a s) :
    Keeps quiet a (State.knownScale s k slot) := by
  unfold State.knownScale
  try dsimp only
  repeat' first
    | with_reducible intro _ | with_reducible assumption | with_reducible apply State.modSuite_keeps | with_reducible apply hs
    | simp only [keeps_upd] | with_reducible apply foldl_keeps | with_reducible apply ite_keeps | split
    | with_reducible refine keeps_snd (by assumption) ?_ | with_reducible refine keeps_fst (by assumption) ?_

theorem State.knownSkim_keeps {quiet : Bool} {a : State} (s : State) (k : Fin 8) (slot : ℕ) (hs : Keeps quiet a s) :
    Keeps quiet a (State.knownSkim s k slot) := by
  unfold State.knownSkim
  try dsimp only
  repeat' first
    | with_reducible intro _ | with_reducible assumption | with_reducible apply State.modSuite_keeps | with_reducible apply hs
    | simp only [keeps_upd] | with_reducible apply foldl_keeps | with_reducible apply ite_keeps | split
    | with_reducible refine keeps_snd (by assumption) ?_ | with_reducible refine keeps_fst (by assumption) ?_

theorem State.restoreSlot_keeps {quiet : Bool} {a : State} (src : State) (area : ℕ) (u : State) (a0 : ℕ) (i : ℕ) (hsrc : Keeps quiet a src) (hu : Keeps quiet a u) :
    Keeps quiet a (State.restoreSlot src area u a0 i) := by
  unfold State.restoreSlot
  try dsimp only
  repeat' first
    | with_reducible intro _ | with_reducible assumption | with_reducible apply State.write_keeps | with_reducible apply hsrc
    | with_reducible apply hu | simp only [keeps_upd] | with_reducible apply foldl_keeps | with_reducible apply ite_keeps | split
    | with_reducible refine keeps_snd (by assumption) ?_ | with_reducible refine keeps_fst (by assumption) ?_

theorem State.scaleInit_keeps {quiet : Bool} {a : State} (s : State) (k : Fin 8) (t : Task) (hs : Keeps quiet a s) :
    Keeps quiet a (State.scaleInit s k t) := by
  unfold State.scaleInit
  try dsimp only
  repeat' first
    | with_reducible intro _ | with_reducible assumption | with_reducible apply State.slotTask_keeps
    | with_reducible apply State.knownScale_keeps | with_reducible apply State.write_keeps | with_reducible apply hs | simp only [keeps_upd]
    | with_reducible apply foldl_keeps | with_reducible apply ite_keeps | split | with_reducible refine keeps_snd (by assumption) ?_
    | with_reducible refine keeps_fst (by assumption) ?_

theorem execScaleInit_keeps {quiet : Bool} {a : State} (k : Fin 8) (h : ℕ) (s : State) (hs : Keeps quiet a s) :
    KeepsOut quiet a (execScaleInit k h s) := by
  unfold execScaleInit
  try dsimp only
  repeat' first
    | with_reducible intro _ | with_reducible assumption | with_reducible apply keeps_next | with_reducible apply State.runTask_keeps
    | with_reducible apply State.scaleInit_keeps | with_reducible apply hs | simp only [keeps_upd] | with_reducible apply foldl_keeps
    | with_reducible apply ite_keepsOut | with_reducible apply ite_keeps | split | with_reducible refine keeps_snd (by assumption) ?_
    | with_reducible refine keeps_fst (by assumption) ?_

theorem State.scaleSet_keeps {quiet : Bool} {a : State} (s : State) (k : Fin 8) (t : Task) (hs : Keeps quiet a s) :
    Keeps quiet a (State.scaleSet s k t) := by
  unfold State.scaleSet
  try dsimp only
  repeat' first
    | with_reducible intro _ | with_reducible assumption | with_reducible apply State.slotTask_keeps
    | with_reducible apply State.respoilScale_keeps | with_reducible apply State.write_keeps | with_reducible apply hs
    | simp only [keeps_upd] | with_reducible apply foldl_keeps | with_reducible apply ite_keeps | split
    | with_reducible refine keeps_snd (by assumption) ?_ | with_reducible refine keeps_fst (by assumption) ?_

theorem execScaleSet_keeps {quiet : Bool} {a : State} (k : Fin 8) (h : ℕ) (s : State) (hs : Keeps quiet a s) :
    KeepsOut quiet a (execScaleSet k h s) := by
  unfold execScaleSet
  try dsimp only
  repeat' first
    | with_reducible intro _ | with_reducible assumption | with_reducible apply keeps_next | with_reducible apply State.runTask_keeps
    | with_reducible apply State.scaleSet_keeps | with_reducible apply hs | simp only [keeps_upd] | with_reducible apply foldl_keeps
    | with_reducible apply ite_keepsOut | with_reducible apply ite_keeps | split | with_reducible refine keeps_snd (by assumption) ?_
    | with_reducible refine keeps_fst (by assumption) ?_

theorem State.scaleSave_keeps {quiet : Bool} {a : State} (s : State) (k : Fin 8) (t : Task) (hs : Keeps quiet a s) :
    Keeps quiet a (State.scaleSave s k t) := by
  unfold State.scaleSave
  try dsimp only
  repeat' first
    | with_reducible intro _ | with_reducible assumption | with_reducible apply State.slotTask_keeps
    | with_reducible apply State.write_keeps | with_reducible apply hs | simp only [keeps_upd] | with_reducible apply foldl_keeps
    | with_reducible apply ite_keeps | split | with_reducible refine keeps_snd (by assumption) ?_
    | with_reducible refine keeps_fst (by assumption) ?_

theorem execScaleSave_keeps {quiet : Bool} {a : State} (k : Fin 8) (h : ℕ) (s : State) (hs : Keeps quiet a s) :
    KeepsOut quiet a (execScaleSave k h s) := by
  unfold execScaleSave
  try dsimp only
  repeat' first
    | with_reducible intro _ | with_reducible assumption | with_reducible apply keeps_next | with_reducible apply State.runTask_keeps
    | with_reducible apply State.scaleSave_keeps | with_reducible apply hs | simp only [keeps_upd] | with_reducible apply foldl_keeps
    | with_reducible apply ite_keepsOut | with_reducible apply ite_keeps | split | with_reducible refine keeps_snd (by assumption) ?_
    | with_reducible refine keeps_fst (by assumption) ?_

theorem State.scaleRestore_keeps {quiet : Bool} {a : State} (s : State) (k : Fin 8) (t : Task) (hs : Keeps quiet a s) :
    Keeps quiet a (State.scaleRestore s k t) := by
  unfold State.scaleRestore
  try dsimp only
  repeat' first
    | with_reducible intro _ | with_reducible assumption | with_reducible apply State.slotTask_keeps
    | with_reducible apply State.knownScale_keeps | with_reducible apply State.restoreSlot_keeps | with_reducible apply hs
    | simp only [keeps_upd] | with_reducible apply foldl_keeps | with_reducible apply ite_keeps | split
    | with_reducible refine keeps_snd (by assumption) ?_ | with_reducible refine keeps_fst (by assumption) ?_

theorem execScaleRestore_keeps {quiet : Bool} {a : State} (k : Fin 8) (h : ℕ) (s : State) (hs : Keeps quiet a s) :
    KeepsOut quiet a (execScaleRestore k h s) := by
  unfold execScaleRestore
  try dsimp only
  repeat' first
    | with_reducible intro _ | with_reducible assumption | with_reducible apply keeps_next | with_reducible apply State.runTask_keeps
    | with_reducible apply State.scaleRestore_keeps | with_reducible apply hs | simp only [keeps_upd] | with_reducible apply foldl_keeps
    | with_reducible apply ite_keepsOut | with_reducible apply ite_keeps | split | with_reducible refine keeps_snd (by assumption) ?_
    | with_reducible refine keeps_fst (by assumption) ?_

theorem State.skimInit_keeps {quiet : Bool} {a : State} (s : State) (k : Fin 8) (t : Task) (hs : Keeps quiet a s) :
    Keeps quiet a (State.skimInit s k t) := by
  unfold State.skimInit
  try dsimp only
  repeat' first
    | with_reducible intro _ | with_reducible assumption | with_reducible apply State.slotTask_keeps
    | with_reducible apply State.knownSkim_keeps | with_reducible apply State.write_keeps | with_reducible apply hs | simp only [keeps_upd]
    | with_reducible apply foldl_keeps | with_reducible apply ite_keeps | split | with_reducible refine keeps_snd (by assumption) ?_
    | with_reducible refine keeps_fst (by assumption) ?_

theorem execSkimInit_keeps {quiet : Bool} {a : State} (k : Fin 8) (h : ℕ) (s : State) (hs : Keeps quiet a s) :
    KeepsOut quiet a (execSkimInit k h s) := by
  unfold execSkimInit
  try dsimp only
  repeat' first
    | with_reducible intro _ | with_reducible assumption | with_reducible apply keeps_next | with_reducible apply State.runTask_keeps
    | with_reducible apply State.skimInit_keeps | with_reducible apply hs | simp only [keeps_upd] | with_reducible apply foldl_keeps
    | with_reducible apply ite_keepsOut | with_reducible apply ite_keeps | split | with_reducible refine keeps_snd (by assumption) ?_
    | with_reducible refine keeps_fst (by assumption) ?_

theorem State.skimSet_keeps {quiet : Bool} {a : State} (s : State) (k : Fin 8) (t : Task) (hs : Keeps quiet a s) :
    Keeps quiet a (State.skimSet s k t) := by
  unfold State.skimSet
  try dsimp only
  repeat' first
    | with_reducible intro _ | with_reducible assumption | with_reducible apply State.slotTask_keeps
    | with_reducible apply State.respoilSkim_keeps | with_reducible apply State.write_keeps | with_reducible apply hs
    | simp only [keeps_upd] | with_reducible apply foldl_keeps | with_reducible apply ite_keeps | split
    | with_reducible refine keeps_snd (by assumption) ?_ | with_reducible refine keeps_fst (by assumption) ?_

theorem execSkimSet_keeps {quiet : Bool} {a : State} (k : Fin 8) (h : ℕ) (s : State) (hs : Keeps quiet a s) :
    KeepsOut quiet a (execSkimSet k h s) := by
  unfold execSkimSet
  try dsimp only
  repeat' first
    | with_reducible intro _ | with_reducible assumption | with_reducible apply keeps_next | with_reducible apply State.runTask_keeps
    | with_reducible apply State.skimSet_keeps | with_reducible apply hs | simp only [keeps_upd] | with_reducible apply foldl_keeps
    | with_reducible apply ite_keepsOut | with_reducible apply ite_keeps | split | with_reducible refine keeps_snd (by assumption) ?_
    | with_reducible refine keeps_fst (by assumption) ?_

theorem State.skimSave_keeps {quiet : Bool} {a : State} (s : State) (k : Fin 8) (t : Task) (hs : Keeps quiet a s) :
    Keeps quiet a (State.skimSave s k t) := by
  unfold State.skimSave
  try dsimp only
  repeat' first
    | with_reducible intro _ | with_reducible assumption | with_reducible apply State.slotTask_keeps
    | with_reducible apply State.write_keeps | with_reducible apply hs | simp only [keeps_upd] | with_reducible apply foldl_keeps
    | with_reducible apply ite_keeps | split | with_reducible refine keeps_snd (by assumption) ?_
    | with_reducible refine keeps_fst (by assumption) ?_

theorem execSkimSave_keeps {quiet : Bool} {a : State} (k : Fin 8) (h : ℕ) (s : State) (hs : Keeps quiet a s) :
    KeepsOut quiet a (execSkimSave k h s) := by
  unfold execSkimSave
  try dsimp only
  repeat' first
    | with_reducible intro _ | with_reducible assumption | with_reducible apply keeps_next | with_reducible apply State.runTask_keeps
    | with_reducible apply State.skimSave_keeps | with_reducible apply hs | simp only [keeps_upd] | with_reducible apply foldl_keeps
    | with_reducible apply ite_keepsOut | with_reducible apply ite_keeps | split | with_reducible refine keeps_snd (by assumption) ?_
    | with_reducible refine keeps_fst (by assumption) ?_

theorem State.skimRestore_keeps {quiet : Bool} {a : State} (s : State) (k : Fin 8) (t : Task) (hs : Keeps quiet a s) :
    Keeps quiet a (State.skimRestore s k t) := by
  unfold State.skimRestore
  try dsimp only
  repeat' first
    | with_reducible intro _ | with_reducible assumption | with_reducible apply State.slotTask_keeps
    | with_reducible apply State.knownSkim_keeps | with_reducible apply State.restoreSlot_keeps | with_reducible apply hs
    | simp only [keeps_upd] | with_reducible apply foldl_keeps | with_reducible apply ite_keeps | split
    | with_reducible refine keeps_snd (by assumption) ?_ | with_reducible refine keeps_fst (by assumption) ?_

theorem execSkimRestore_keeps {quiet : Bool} {a : State} (k : Fin 8) (h : ℕ) (s : State) (hs : Keeps quiet a s) :
    KeepsOut quiet a (execSkimRestore k h s) := by
  unfold execSkimRestore
  try dsimp only
  repeat' first
    | with_reducible intro _ | with_reducible assumption | with_reducible apply keeps_next | with_reducible apply State.runTask_keeps
    | with_reducible apply State.skimRestore_keeps | with_reducible apply hs | simp only [keeps_upd] | with_reducible apply foldl_keeps
    | with_reducible apply ite_keepsOut | with_reducible apply ite_keeps | split | with_reducible refine keeps_snd (by assumption) ?_
    | with_reducible refine keeps_fst (by assumption) ?_

theorem State.scaleSlotWrite_keeps {quiet : Bool} {a : State} (s : State) (k : Fin 8) (a0 : ℕ) (n : ℕ) (hs : Keeps quiet a s) :
    Keeps quiet a (State.scaleSlotWrite s k a0 n) := by
  unfold State.scaleSlotWrite
  try dsimp only
  repeat' first
    | with_reducible intro _ | with_reducible assumption | with_reducible apply State.modSuite_keeps
    | with_reducible apply State.confine_keeps | with_reducible apply State.freeScaleSlot_keeps | with_reducible apply hs
    | simp only [keeps_upd] | with_reducible apply foldl_keeps | with_reducible apply ite_keeps | split
    | with_reducible refine keeps_snd (by assumption) ?_ | with_reducible refine keeps_fst (by assumption) ?_

theorem State.skimSlotWrite_keeps {quiet : Bool} {a : State} (s : State) (k : Fin 8) (a0 : ℕ) (n : ℕ) (hs : Keeps quiet a s) :
    Keeps quiet a (State.skimSlotWrite s k a0 n) := by
  unfold State.skimSlotWrite
  try dsimp only
  repeat' first
    | with_reducible intro _ | with_reducible assumption | with_reducible apply State.modSuite_keeps
    | with_reducible apply State.confine_keeps | with_reducible apply State.freeSkimSlot_keeps | with_reducible apply hs
    | simp only [keeps_upd] | with_reducible apply foldl_keeps | with_reducible apply ite_keeps | split
    | with_reducible refine keeps_snd (by assumption) ?_ | with_reducible refine keeps_fst (by assumption) ?_

theorem State.slotWrite_keeps {quiet : Bool} {a : State} (s : State) (k : Fin 8) (a0 : ℕ) (n : ℕ) (hs : Keeps quiet a s) :
    Keeps quiet a (State.slotWrite s k a0 n) := by
  unfold State.slotWrite
  try dsimp only
  repeat' first
    | with_reducible intro _ | with_reducible assumption | with_reducible apply State.skimSlotWrite_keeps
    | with_reducible apply State.scaleSlotWrite_keeps | with_reducible apply hs | simp only [keeps_upd] | with_reducible apply foldl_keeps
    | with_reducible apply ite_keeps | split | with_reducible refine keeps_snd (by assumption) ?_
    | with_reducible refine keeps_fst (by assumption) ?_

/-! ### Skim -/

theorem State.writeMap_keeps {quiet : Bool} {a : State} (s : State) (t : Tensor) (o : OutTile) (rows : List (ℕ × List ℕ)) (hs : Keeps quiet a s) :
    Keeps quiet a (State.writeMap s t o rows) := by
  unfold State.writeMap
  try dsimp only
  repeat' first
    | with_reducible intro _ | with_reducible assumption | with_reducible apply State.putCode_keeps | with_reducible apply State.write_keeps
    | with_reducible apply hs | simp only [keeps_upd] | with_reducible apply foldl_keeps | with_reducible apply ite_keeps | split
    | with_reducible refine keeps_snd (by assumption) ?_ | with_reducible refine keeps_fst (by assumption) ?_

theorem State.skimDrain_keeps {quiet : Bool} {a : State} (s : State) (k : Fin 8) (t : Task) (p : Prod) (xs : List SkimTile) (hs : Keeps quiet a s) :
    Keeps quiet a (State.skimDrain s k t p xs) := by
  unfold State.skimDrain
  try dsimp only
  repeat' first
    | with_reducible intro _ | with_reducible assumption | with_reducible apply State.settle_keeps
    | with_reducible apply State.writeMap_keeps | with_reducible apply State.poisonCols_keeps | with_reducible apply State.respoilSkim_keeps
    | with_reducible apply State.bump64_keeps | with_reducible apply hs | simp only [keeps_upd] | with_reducible apply foldl_keeps
    | with_reducible apply ite_keeps | split | with_reducible refine keeps_snd (by assumption) ?_
    | with_reducible refine keeps_fst (by assumption) ?_

theorem State.aheadDone_keeps {quiet : Bool} {a : State} (s : State) (t : Task) (p : Prod) (d : Fin 8) (x : Tile) (hs : Keeps quiet a s) :
    Keeps quiet a (State.aheadDone s t p d x) := by
  unfold State.aheadDone
  try dsimp only
  repeat' first
    | with_reducible intro _ | with_reducible assumption | with_reducible apply State.countAhead_keeps | with_reducible apply hs
    | simp only [keeps_upd] | with_reducible apply foldl_keeps | with_reducible apply ite_keeps | split
    | with_reducible refine keeps_snd (by assumption) ?_ | with_reducible refine keeps_fst (by assumption) ?_

theorem State.skimPass_keeps {quiet : Bool} {a : State} (s : State) (k : Fin 8) (t : Task) (p : Prod) (hs : Keeps quiet a s) :
    Keeps quiet a (State.skimPass s k t p) := by
  unfold State.skimPass
  try dsimp only
  repeat' first
    | with_reducible intro _ | with_reducible assumption | with_reducible apply State.chargeUnits_keeps
    | with_reducible apply State.skimDrain_keeps | with_reducible apply State.aheadDone_keeps | with_reducible apply State.reportEnts_keeps
    | with_reducible apply State.formatEvent_keeps | with_reducible apply State.reportAccess_keeps
    | with_reducible apply State.modTask_keeps | with_reducible apply hs | simp only [keeps_upd] | with_reducible apply foldl_keeps
    | with_reducible apply ite_keeps | split | with_reducible refine keeps_snd (by assumption) ?_
    | with_reducible refine keeps_fst (by assumption) ?_

theorem State.runSkim_keeps {quiet : Bool} {a : State} (s : State) (k : Fin 8) (t : Task) (hs : Keeps quiet a s) :
    Keeps quiet a (State.runSkim s k t) := by
  unfold State.runSkim
  try dsimp only
  repeat' first
    | with_reducible intro _ | with_reducible assumption | with_reducible apply State.finish_keeps
    | with_reducible apply State.withProd_keeps | with_reducible apply State.skimPass_keeps | with_reducible apply State.modSuite_keeps
    | with_reducible apply State.worsen_keeps | with_reducible apply State.closeSat_keeps | with_reducible apply State.prodDrain_keeps
    | with_reducible apply hs | simp only [keeps_upd] | with_reducible apply foldl_keeps | with_reducible apply ite_keeps | split
    | with_reducible refine keeps_snd (by assumption) ?_ | with_reducible refine keeps_fst (by assumption) ?_

theorem execSkimPredict_keeps {quiet : Bool} {a : State} (k : Fin 8) (h : ℕ) (s : State) (hs : Keeps quiet a s) :
    KeepsOut quiet a (execSkimPredict k h s) := by
  unfold execSkimPredict
  try dsimp only
  repeat' first
    | with_reducible intro _ | with_reducible assumption | with_reducible apply keeps_next | with_reducible apply State.runTask_keeps
    | with_reducible apply State.runSkim_keeps | with_reducible apply hs | simp only [keeps_upd] | with_reducible apply foldl_keeps
    | with_reducible apply ite_keepsOut | with_reducible apply ite_keeps | split | with_reducible refine keeps_snd (by assumption) ?_
    | with_reducible refine keeps_fst (by assumption) ?_

theorem execSkimFused_keeps {quiet : Bool} {a : State} (k : Fin 8) (h : ℕ) (s : State) (hs : Keeps quiet a s) :
    KeepsOut quiet a (execSkimFused k h s) := by
  unfold execSkimFused
  try dsimp only
  repeat' first
    | with_reducible intro _ | with_reducible assumption | with_reducible apply keeps_next | with_reducible apply State.runTask_keeps
    | with_reducible apply State.runSkim_keeps | with_reducible apply hs | simp only [keeps_upd] | with_reducible apply foldl_keeps
    | with_reducible apply ite_keepsOut | with_reducible apply ite_keeps | split | with_reducible refine keeps_snd (by assumption) ?_
    | with_reducible refine keeps_fst (by assumption) ?_

theorem State.putElem_keeps {quiet : Bool} {a : State} (s : State) (t : Tensor) (i : ℕ) (c : ℕ) (hs : Keeps quiet a s) :
    Keeps quiet a (State.putElem s t i c) := by
  unfold State.putElem
  try dsimp only
  repeat' first
    | with_reducible intro _ | with_reducible assumption | with_reducible apply State.putCode_keeps | with_reducible apply hs
    | simp only [keeps_upd] | with_reducible apply foldl_keeps | with_reducible apply ite_keeps | split
    | with_reducible refine keeps_snd (by assumption) ?_ | with_reducible refine keeps_fst (by assumption) ?_

theorem State.topWrite_keeps {quiet : Bool} {a : State} (s : State) (v : Tensor) (p : Tensor) (k : ℕ) (segs : List (List TopEnt × Bool)) (hs : Keeps quiet a s) :
    Keeps quiet a (State.topWrite s v p k segs) := by
  unfold State.topWrite
  try dsimp only
  repeat' first
    | with_reducible intro _ | with_reducible assumption | with_reducible apply State.settle_keeps
    | with_reducible apply State.putElem_keeps | with_reducible apply State.poisonPlace_keeps | with_reducible apply hs
    | simp only [keeps_upd] | with_reducible apply foldl_keeps | with_reducible apply ite_keeps | split
    | with_reducible refine keeps_snd (by assumption) ?_ | with_reducible refine keeps_fst (by assumption) ?_

theorem State.scanRun_keeps {quiet : Bool} {a : State} (s : State) (k : Fin 8) (t : Task) (src : Tensor) (v : Tensor) (p : Tensor) (st : Struct) (hs : Keeps quiet a s) :
    Keeps quiet a (State.scanRun s k t src v p st) := by
  unfold State.scanRun
  try dsimp only
  repeat' first
    | with_reducible intro _ | with_reducible assumption | with_reducible apply State.topWrite_keeps
    | with_reducible apply State.addCount_keeps | with_reducible apply State.reportInvalid_keeps | with_reducible apply State.worsen_keeps
    | with_reducible apply State.formatEvent_keeps | with_reducible apply State.finish_keeps | with_reducible apply State.reportAccess_keeps
    | with_reducible apply hs | simp only [keeps_upd] | with_reducible apply foldl_keeps | with_reducible apply ite_keeps | split
    | with_reducible refine keeps_snd (by assumption) ?_ | with_reducible refine keeps_fst (by assumption) ?_

theorem State.topkScan_keeps {quiet : Bool} {a : State} (s : State) (k : Fin 8) (t : Task) (hs : Keeps quiet a s) :
    Keeps quiet a (State.topkScan s k t) := by
  unfold State.topkScan
  try dsimp only
  repeat' first
    | with_reducible intro _ | with_reducible assumption | with_reducible apply State.refuse_keeps | with_reducible apply State.finish_keeps
    | with_reducible apply State.scanRun_keeps | with_reducible apply hs | simp only [keeps_upd] | with_reducible apply foldl_keeps
    | with_reducible apply ite_keeps | split | with_reducible refine keeps_snd (by assumption) ?_
    | with_reducible refine keeps_fst (by assumption) ?_

theorem execTopkScan_keeps {quiet : Bool} {a : State} (k : Fin 8) (h : ℕ) (s : State) (hs : Keeps quiet a s) :
    KeepsOut quiet a (execTopkScan k h s) := by
  unfold execTopkScan
  try dsimp only
  repeat' first
    | with_reducible intro _ | with_reducible assumption | with_reducible apply keeps_next | with_reducible apply State.runTask_keeps
    | with_reducible apply State.topkScan_keeps | with_reducible apply hs | simp only [keeps_upd] | with_reducible apply foldl_keeps
    | with_reducible apply ite_keepsOut | with_reducible apply ite_keeps | split | with_reducible refine keeps_snd (by assumption) ?_
    | with_reducible refine keeps_fst (by assumption) ?_

theorem State.productTop_keeps {quiet : Bool} {a : State} (u : State) (k : Fin 8) (t : Task) (q : Prod) (v : Tensor) (p : Tensor) (hu : Keeps quiet a u) :
    Keeps quiet a (State.productTop u k t q v p) := by
  unfold State.productTop
  try dsimp only
  repeat' first
    | with_reducible intro _ | with_reducible assumption | with_reducible apply State.runUnits_keeps
    | with_reducible apply State.reportOperands_keeps | with_reducible apply State.closeSat_keeps
    | with_reducible apply State.topWrite_keeps | with_reducible apply State.finish_keeps | with_reducible apply State.reportAccess_keeps
    | with_reducible apply hu | simp only [keeps_upd] | with_reducible apply foldl_keeps | with_reducible apply ite_keeps | split
    | with_reducible refine keeps_snd (by assumption) ?_ | with_reducible refine keeps_fst (by assumption) ?_

theorem State.topkProductScan_keeps {quiet : Bool} {a : State} (s : State) (k : Fin 8) (t : Task) (hs : Keeps quiet a s) :
    Keeps quiet a (State.topkProductScan s k t) := by
  unfold State.topkProductScan
  try dsimp only
  repeat' first
    | with_reducible intro _ | with_reducible assumption | with_reducible apply State.withProd_keeps
    | with_reducible apply State.productTop_keeps | with_reducible apply hs | simp only [keeps_upd] | with_reducible apply foldl_keeps
    | with_reducible apply ite_keeps | split | with_reducible refine keeps_snd (by assumption) ?_
    | with_reducible refine keeps_fst (by assumption) ?_

theorem execTopkProductScan_keeps {quiet : Bool} {a : State} (k : Fin 8) (h : ℕ) (s : State) (hs : Keeps quiet a s) :
    KeepsOut quiet a (execTopkProductScan k h s) := by
  unfold execTopkProductScan
  try dsimp only
  repeat' first
    | with_reducible intro _ | with_reducible assumption | with_reducible apply keeps_next | with_reducible apply State.runTask_keeps
    | with_reducible apply State.topkProductScan_keeps | with_reducible apply hs | simp only [keeps_upd] | with_reducible apply foldl_keeps
    | with_reducible apply ite_keepsOut | with_reducible apply ite_keeps | split | with_reducible refine keeps_snd (by assumption) ?_
    | with_reducible refine keeps_fst (by assumption) ?_

/-! ### Panel -/

theorem State.settleOwner_keeps {quiet : Bool} {a : State} (s : State) (d : Fin 8) (p : Fin 104) (hs : Keeps quiet a s) :
    Keeps quiet a (State.settleOwner s d p) := by
  unfold State.settleOwner
  try dsimp only
  repeat' first
    | with_reducible intro _ | with_reducible assumption | with_reducible apply State.modPanel_keeps | with_reducible apply hs
    | simp only [keeps_upd] | with_reducible apply foldl_keeps | with_reducible apply ite_keeps | split
    | with_reducible refine keeps_snd (by assumption) ?_ | with_reducible refine keeps_fst (by assumption) ?_

theorem State.openTask_keeps {quiet : Bool} {a : State} (s : State) (x : Tile) (c : UnitCtx) (hs : Keeps quiet a s) :
    Keeps quiet a (State.openTask s x c).1 := by
  unfold State.openTask
  try dsimp only
  repeat' first
    | with_reducible intro _ | with_reducible assumption | with_reducible apply State.beginProd_keeps
    | with_reducible apply State.view_keeps | with_reducible apply State.merge_keeps | with_reducible apply State.finish_keeps
    | with_reducible apply State.modSuite_keeps | with_reducible apply hs | simp only [keeps_upd] | with_reducible apply foldl_keeps
    | with_reducible apply ite_keeps | split | with_reducible refine keeps_snd (by assumption) ?_
    | with_reducible refine keeps_fst (by assumption) ?_

theorem State.fetchAhead_keeps {quiet : Bool} {a : State} (s : State) (d : Fin 8) (p : Fin 104) (x : Tile) (c : UnitCtx) (hs : Keeps quiet a s) :
    Keeps quiet a (State.fetchAhead s d p x c) := by
  unfold State.fetchAhead
  try dsimp only
  repeat' first
    | with_reducible intro _ | with_reducible assumption | with_reducible apply State.view_keeps | with_reducible apply State.modPanel_keeps
    | with_reducible apply State.countAhead_keeps | with_reducible apply State.modDie_keeps | with_reducible apply hs
    | simp only [keeps_upd] | with_reducible apply foldl_keeps | with_reducible apply ite_keeps | split
    | with_reducible refine keeps_snd (by assumption) ?_ | with_reducible refine keeps_fst (by assumption) ?_

theorem State.takeArray_keeps {quiet : Bool} {a : State} (s : State) (d : Fin 8) (p : Fin 104) (th : Thread) (hs : Keeps quiet a s) :
    Keeps quiet a (State.takeArray s d p th).1 := by
  unfold State.takeArray
  try dsimp only
  repeat' first
    | with_reducible intro _ | with_reducible assumption | with_reducible apply State.modPanel_keeps
    | with_reducible apply State.openTask_keeps | with_reducible apply State.merge_keeps | with_reducible apply State.reportExtremes_keeps
    | with_reducible apply State.view_keeps | with_reducible apply State.fetchAhead_keeps | with_reducible apply hs | simp only [keeps_upd]
    | with_reducible apply foldl_keeps | with_reducible apply ite_keeps | split | with_reducible refine keeps_snd (by assumption) ?_
    | with_reducible refine keeps_fst (by assumption) ?_

theorem execTileStart_keeps {quiet : Bool} {a : State} (d : Fin 8) (p : Fin 104) (t : Fin 64) (s : State) (hs : Keeps quiet a s) :
    KeepsOut quiet a (execTileStart d p t s) := by
  unfold execTileStart
  try dsimp only
  repeat' first
    | with_reducible intro _ | with_reducible assumption | with_reducible apply keeps_next | with_reducible apply State.takeArray_keeps
    | with_reducible apply State.settleOwner_keeps | with_reducible apply State.modPanel_keeps | with_reducible apply hs
    | simp only [keeps_upd] | with_reducible apply foldl_keeps | with_reducible apply ite_keepsOut | with_reducible apply ite_keeps | split
    | with_reducible refine keeps_snd (by assumption) ?_ | with_reducible refine keeps_fst (by assumption) ?_

theorem execThreadAgePromotion_keeps {quiet : Bool} {a : State} (d : Fin 8) (p : Fin 104) (t : Fin 64) (s : State) (hs : Keeps quiet a s) :
    KeepsOut quiet a (execThreadAgePromotion d p t s) := by
  unfold execThreadAgePromotion
  try dsimp only
  repeat' first
    | with_reducible intro _ | with_reducible assumption | with_reducible apply keeps_next | with_reducible apply State.modPanel_keeps
    | with_reducible apply hs | simp only [keeps_upd] | with_reducible apply foldl_keeps | with_reducible apply ite_keepsOut
    | with_reducible apply ite_keeps | split | with_reducible refine keeps_snd (by assumption) ?_
    | with_reducible refine keeps_fst (by assumption) ?_

theorem execThreadPreempt_keeps {quiet : Bool} {a : State} (d : Fin 8) (p : Fin 104) (t : Fin 64) (s : State) (hs : Keeps quiet a s) :
    KeepsOut quiet a (execThreadPreempt d p t s) := by
  unfold execThreadPreempt
  try dsimp only
  repeat' first
    | with_reducible intro _ | with_reducible assumption | with_reducible apply keeps_next | with_reducible apply State.settleOwner_keeps
    | with_reducible apply State.modPanel_keeps | with_reducible apply State.cancelSpec_keeps | with_reducible apply State.takeArray_keeps
    | with_reducible apply hs | simp only [keeps_upd] | with_reducible apply foldl_keeps | with_reducible apply ite_keepsOut
    | with_reducible apply ite_keeps | split | with_reducible refine keeps_snd (by assumption) ?_
    | with_reducible refine keeps_fst (by assumption) ?_

theorem State.unitDone_keeps {quiet : Bool} {a : State} (s : State) (d : Fin 8) (p : Fin 104) (tl : Tile) (c : UnitCtx) (cells : List (List Cell)) (fed : Bool) (hs : Keeps quiet a s) :
    Keeps quiet a (State.unitDone s d p tl c cells fed) := by
  unfold State.unitDone
  try dsimp only
  repeat' first
    | with_reducible intro _ | with_reducible assumption | with_reducible apply State.view_keeps | with_reducible apply State.confine_keeps
    | with_reducible apply State.skimDrain_keeps | with_reducible apply State.tilesDrain_keeps | with_reducible apply State.modTask_keeps
    | with_reducible apply State.chargeUnits_keeps | with_reducible apply State.modPanel_keeps | with_reducible apply State.countAhead_keeps
    | with_reducible apply State.reportAccess_keeps | with_reducible apply State.worsen_keeps | with_reducible apply hs
    | simp only [keeps_upd] | with_reducible apply foldl_keeps | with_reducible apply ite_keeps | split
    | with_reducible refine keeps_snd (by assumption) ?_ | with_reducible refine keeps_fst (by assumption) ?_

theorem State.mismatch_keeps {quiet : Bool} {a : State} (s : State) (d : Fin 8) (p : Fin 104) (tl : Tile) (c : UnitCtx) (row : ℕ) (rep : Bool) (ret : Bool) (hs : Keeps quiet a s) :
    Keeps quiet a (State.mismatch s d p tl c row rep ret) := by
  unfold State.mismatch
  try dsimp only
  repeat' first
    | with_reducible intro _ | with_reducible assumption | with_reducible apply State.modPanel_keeps
    | with_reducible apply State.suiteEvent_keeps | with_reducible apply hs | simp only [keeps_upd] | with_reducible apply foldl_keeps
    | with_reducible apply ite_keeps | split | with_reducible refine keeps_snd (by assumption) ?_
    | with_reducible refine keeps_fst (by assumption) ?_

theorem State.failUnit_keeps {quiet : Bool} {a : State} (s : State) (d : Fin 8) (p : Fin 104) (tl : Tile) (c : UnitCtx) (row : ℕ) (again : Bool) (hs : Keeps quiet a s) :
    Keeps quiet a (State.failUnit s d p tl c row again) := by
  unfold State.failUnit
  try dsimp only
  repeat' first
    | with_reducible intro _ | with_reducible assumption | with_reducible apply State.mismatch_keeps
    | with_reducible apply State.modPanel_keeps | with_reducible apply State.retirePanel_keeps | with_reducible apply hs
    | simp only [keeps_upd] | with_reducible apply foldl_keeps | with_reducible apply ite_keeps | split
    | with_reducible refine keeps_snd (by assumption) ?_ | with_reducible refine keeps_fst (by assumption) ?_

theorem execTileDrain_keeps {quiet : Bool} {a : State} (d : Fin 8) (p : Fin 104) (upsets : Upsets) (s : State) (hs : Keeps quiet a s) :
    KeepsOut quiet a (execTileDrain d p upsets s) := by
  unfold execTileDrain
  try dsimp only
  repeat' first
    | with_reducible intro _ | with_reducible assumption | with_reducible apply keeps_next | with_reducible apply State.modPanel_keeps
    | with_reducible apply State.view_keeps | with_reducible apply State.unitDone_keeps | with_reducible apply State.failUnit_keeps
    | with_reducible apply State.modTask_keeps | with_reducible apply hs | simp only [keeps_upd] | with_reducible apply foldl_keeps
    | with_reducible apply ite_keepsOut | with_reducible apply ite_keeps | split | with_reducible refine keeps_snd (by assumption) ?_
    | with_reducible refine keeps_fst (by assumption) ?_

theorem execTileRecompute_keeps {quiet : Bool} {a : State} (d : Fin 8) (p : Fin 104) (own : Upsets) (other : Upsets) (s : State) (hs : Keeps quiet a s) :
    KeepsOut quiet a (execTileRecompute d p own other s) := by
  unfold execTileRecompute
  try dsimp only
  repeat' first
    | with_reducible intro _ | with_reducible assumption | with_reducible apply keeps_next | with_reducible apply State.modPanel_keeps
    | with_reducible apply State.view_keeps | with_reducible apply State.modTask_keeps | with_reducible apply State.unitDone_keeps
    | with_reducible apply State.failUnit_keeps | with_reducible apply hs | simp only [keeps_upd] | with_reducible apply foldl_keeps
    | with_reducible apply ite_keepsOut | with_reducible apply ite_keeps | split | with_reducible refine keeps_snd (by assumption) ?_
    | with_reducible refine keeps_fst (by assumption) ?_

theorem execSpareSelfTestDone_keeps {a : State} (d : Fin 8) (p : Fin 104) (pass : Bool) (s : State) (hs : Keeps false a s) :
    KeepsOut false a (execSpareSelfTestDone d p pass s) := by
  unfold execSpareSelfTestDone
  try dsimp only
  repeat' first
    | with_reducible intro _ | with_reducible assumption | with_reducible apply keeps_next | with_reducible apply State.resetPanel_keeps
    | with_reducible apply State.modPanel_keeps | with_reducible apply State.startSpare_keeps | with_reducible apply State.retirePanel_keeps
    | with_reducible apply hs | simp only [keeps_upd_any] | with_reducible apply foldl_keeps | with_reducible apply ite_keepsOut
    | with_reducible apply ite_keeps | split | with_reducible refine keeps_snd (by assumption) ?_
    | with_reducible refine keeps_fst (by assumption) ?_

theorem execPanelStoreError_keeps {quiet : Bool} {a : State} (d : Fin 8) (p : Fin 104) (t : Fin 64) (double : Bool) (inContext : Bool) (s : State) (hs : Keeps quiet a s) :
    KeepsOut quiet a (execPanelStoreError d p t double inContext s) := by
  unfold execPanelStoreError
  try dsimp only
  repeat' first
    | with_reducible intro _ | with_reducible assumption | with_reducible apply keeps_next | with_reducible apply State.modPanel_keeps
    | with_reducible apply State.modTask_keeps | with_reducible apply State.retirePanel_keeps | with_reducible apply hs
    | simp only [keeps_upd] | with_reducible apply foldl_keeps | with_reducible apply ite_keepsOut | with_reducible apply ite_keeps | split
    | with_reducible refine keeps_snd (by assumption) ?_ | with_reducible refine keeps_fst (by assumption) ?_

theorem execSliceSteal_keeps {quiet : Bool} {a : State} (d : Fin 8) (thief : Fin 104) (s : State) (hs : Keeps quiet a s) :
    KeepsOut quiet a (execSliceSteal d thief s) := by
  unfold execSliceSteal
  try dsimp only
  repeat' first
    | with_reducible intro _ | with_reducible assumption | with_reducible apply keeps_next | with_reducible apply State.modPanel_keeps
    | with_reducible apply State.modTask_keeps | with_reducible apply hs | simp only [keeps_upd] | with_reducible apply foldl_keeps
    | with_reducible apply ite_keepsOut | with_reducible apply ite_keeps | split | with_reducible refine keeps_snd (by assumption) ?_
    | with_reducible refine keeps_fst (by assumption) ?_

/-! ### Mem -/

theorem State.crossEdges_keeps {quiet : Bool} {a : State} (s : State) (p : List (ℕ × ℕ)) (rerouted : Bool) (c0 : Bool) (hs : Keeps quiet a s) :
    Keeps quiet a (State.crossEdges s p rerouted c0) := by
  unfold State.crossEdges
  try dsimp only
  repeat' first
    | with_reducible intro _ | with_reducible assumption | with_reducible apply State.modEdge_keeps | with_reducible apply hs
    | simp only [keeps_upd] | with_reducible apply foldl_keeps | with_reducible apply ite_keeps | split
    | with_reducible refine keeps_snd (by assumption) ?_ | with_reducible refine keeps_fst (by assumption) ?_

theorem State.countPoison_keeps {quiet : Bool} {a : State} (s : State) (d : Fin 8) (i : Fin 12) (u : ℕ) (hs : Keeps quiet a s) :
    Keeps quiet a (State.countPoison s d i u) := by
  unfold State.countPoison
  try dsimp only
  repeat' first
    | with_reducible intro _ | with_reducible assumption | with_reducible apply State.modStack_keeps
    | with_reducible apply State.failPc_keeps | with_reducible apply hs | simp only [keeps_upd] | with_reducible apply foldl_keeps
    | with_reducible apply ite_keeps | split | with_reducible refine keeps_snd (by assumption) ?_
    | with_reducible refine keeps_fst (by assumption) ?_

theorem State.demandPoisoned_keeps {quiet : Bool} {a : State} (s : State) (k : Fin 8) (h : Option ℕ) (u : ℕ) (cls : ℕ) (hs : Keeps quiet a s) :
    Keeps quiet a (State.demandPoisoned s k h u cls) := by
  unfold State.demandPoisoned
  try dsimp only
  repeat' first
    | with_reducible intro _ | with_reducible assumption | with_reducible apply State.worsen_keeps
    | with_reducible apply State.taskMemError_keeps | with_reducible apply hs | simp only [keeps_upd] | with_reducible apply foldl_keeps
    | with_reducible apply ite_keeps | split | with_reducible refine keeps_snd (by assumption) ?_
    | with_reducible refine keeps_fst (by assumption) ?_

theorem State.demandDenied_keeps {quiet : Bool} {a : State} (s : State) (k : Fin 8) (h : Option ℕ) (u : ℕ) (cls : ℕ) (hs : Keeps quiet a s) :
    Keeps quiet a (State.demandDenied s k h u cls) := by
  unfold State.demandDenied
  try dsimp only
  repeat' first
    | with_reducible intro _ | with_reducible assumption | with_reducible apply State.worsen_keeps
    | with_reducible apply State.taskMemError_keeps | with_reducible apply State.memError_keeps | with_reducible apply hs
    | simp only [keeps_upd] | with_reducible apply foldl_keeps | with_reducible apply ite_keeps | split
    | with_reducible refine keeps_snd (by assumption) ?_ | with_reducible refine keeps_fst (by assumption) ?_

theorem State.failLine_keeps {quiet : Bool} {a : State} (s : State) (d : Fin 8) (i : Fin 12) (h : Option ℕ) (u : ℕ) (cls : ℕ) (hs : Keeps quiet a s) :
    Keeps quiet a (State.failLine s d i h u cls) := by
  unfold State.failLine
  try dsimp only
  repeat' first
    | with_reducible intro _ | with_reducible assumption | with_reducible apply State.modStack_keeps
    | with_reducible apply State.poisonLine_keeps | with_reducible apply State.countPoison_keeps | with_reducible apply State.dieEvent_keeps
    | with_reducible apply hs | simp only [keeps_upd] | with_reducible apply foldl_keeps | with_reducible apply ite_keeps | split
    | with_reducible refine keeps_snd (by assumption) ?_ | with_reducible refine keeps_fst (by assumption) ?_

theorem State.readLine_keeps {quiet : Bool} {a : State} (s : State) (k : Fin 8) (h : Option ℕ) (u : ℕ) (n : ℕ) (cls : ℕ) (hs : Keeps quiet a s) :
    Keeps quiet a (State.readLine s k h u n cls) := by
  unfold State.readLine
  try dsimp only
  repeat' first
    | with_reducible intro _ | with_reducible assumption | with_reducible apply State.demandPoisoned_keeps
    | with_reducible apply State.failLine_keeps | with_reducible apply State.modStack_keeps | with_reducible apply hs
    | simp only [keeps_upd] | with_reducible apply foldl_keeps | with_reducible apply ite_keeps | split
    | with_reducible refine keeps_snd (by assumption) ?_ | with_reducible refine keeps_fst (by assumption) ?_

theorem State.rmwRead_keeps {quiet : Bool} {a : State} (s : State) (h : Option ℕ) (u : ℕ) (n : ℕ) (cls : ℕ) (hs : Keeps quiet a s) :
    Keeps quiet a (State.rmwRead s h u n cls) := by
  unfold State.rmwRead
  try dsimp only
  repeat' first
    | with_reducible intro _ | with_reducible assumption | with_reducible apply State.failLine_keeps
    | with_reducible apply State.modStack_keeps | with_reducible apply hs | simp only [keeps_upd] | with_reducible apply foldl_keeps
    | with_reducible apply ite_keeps | split | with_reducible refine keeps_snd (by assumption) ?_
    | with_reducible refine keeps_fst (by assumption) ?_

theorem State.countRead_keeps {quiet : Bool} {a : State} (s : State) (k : Fin 8) (d : Fin 8) (h : Option ℕ) (u : ℕ) (lines : ℕ) (hs : Keeps quiet a s) :
    Keeps quiet a (State.countRead s k d h u lines) := by
  unfold State.countRead
  try dsimp only
  repeat' first
    | with_reducible intro _ | with_reducible assumption | with_reducible apply State.modSuite_keeps | with_reducible apply hs
    | simp only [keeps_upd] | with_reducible apply foldl_keeps | with_reducible apply ite_keeps | split
    | with_reducible refine keeps_snd (by assumption) ?_ | with_reducible refine keeps_fst (by assumption) ?_

theorem State.useEntry_keeps {quiet : Bool} {a : State} (s : State) (d : Fin 8) (hs : Keeps quiet a s) :
    Keeps quiet a (State.useEntry s d) := by
  unfold State.useEntry
  try dsimp only
  repeat' first
    | with_reducible intro _ | with_reducible assumption | with_reducible apply State.modDie_keeps | with_reducible apply hs
    | simp only [keeps_upd] | with_reducible apply foldl_keeps | with_reducible apply ite_keeps | split
    | with_reducible refine keeps_snd (by assumption) ?_ | with_reducible refine keeps_fst (by assumption) ?_

theorem State.takeEntry_keeps {quiet : Bool} {a : State} (s : State) (d : Fin 8) (who : Option (Fin 104)) (full : Bool) (hs : Keeps quiet a s) :
    Keeps quiet a (State.takeEntry s d who full).1 := by
  unfold State.takeEntry
  try dsimp only
  repeat' first
    | with_reducible intro _ | with_reducible assumption | with_reducible apply State.modPanel_keeps
    | with_reducible apply State.countAhead_keeps | with_reducible apply hs | simp only [keeps_upd] | with_reducible apply foldl_keeps
    | with_reducible apply ite_keeps | split | with_reducible refine keeps_snd (by assumption) ?_
    | with_reducible refine keeps_fst (by assumption) ?_

theorem State.travel_keeps {quiet : Bool} {a : State} (s : State) (k : Fin 8) (d : Fin 8) (h : Option ℕ) (unit : ℕ) (home : Fin 8) (i : Fin 12) (c0 : Bool) (hs : Keeps quiet a s) :
    Keeps quiet a (State.travel s k d h unit home i c0).1 := by
  unfold State.travel
  try dsimp only
  repeat' first
    | with_reducible intro _ | with_reducible assumption | with_reducible apply State.worsen_keeps
    | with_reducible apply State.crossEdges_keeps | with_reducible apply State.useEntry_keeps | with_reducible apply State.modStack_keeps
    | with_reducible apply hs | simp only [keeps_upd] | with_reducible apply foldl_keeps | with_reducible apply ite_keeps | split
    | with_reducible refine keeps_snd (by assumption) ?_ | with_reducible refine keeps_fst (by assumption) ?_

theorem State.specIssue_keeps {quiet : Bool} {a : State} (s : State) (k : Fin 8) (d : Fin 8) (who : Option (Fin 104)) (h : Option ℕ) (unit : ℕ) (lines : ℕ) (hs : Keeps quiet a s) :
    Keeps quiet a (State.specIssue s k d who h unit lines) := by
  unfold State.specIssue
  try dsimp only
  repeat' first
    | with_reducible intro _ | with_reducible assumption | with_reducible apply State.modPanel_keeps
    | with_reducible apply State.countAhead_keeps | with_reducible apply State.modDie_keeps | with_reducible apply hs
    | simp only [keeps_upd] | with_reducible apply foldl_keeps | with_reducible apply ite_keeps | split
    | with_reducible refine keeps_snd (by assumption) ?_ | with_reducible refine keeps_fst (by assumption) ?_

theorem execMemoryRead_keeps {quiet : Bool} {a : State} (k : Fin 8) (d : Fin 8) (who : Option (Fin 104)) (h : Option ℕ) (unit : ℕ) (lines : ℕ) (fails : List (ℕ × ℕ)) (ecc : ℕ) (cls : Fin 4) (speculative : Bool) (late : Bool) (full : Bool) (s : State) (hs : Keeps quiet a s) :
    KeepsOut quiet a (execMemoryRead k d who h unit lines fails ecc cls speculative late full s) := by
  unfold execMemoryRead
  try dsimp only
  repeat' first
    | with_reducible intro _ | with_reducible assumption | with_reducible apply keeps_next | with_reducible apply State.specIssue_keeps
    | with_reducible apply State.demandDenied_keeps | with_reducible apply State.takeEntry_keeps | with_reducible apply State.travel_keeps
    | with_reducible apply State.modStack_keeps | with_reducible apply State.modDie_keeps | with_reducible apply State.countRead_keeps
    | with_reducible apply State.readLine_keeps | with_reducible apply hs | simp only [keeps_upd] | with_reducible apply foldl_keeps
    | with_reducible apply ite_keepsOut | with_reducible apply ite_keeps | split | with_reducible refine keeps_snd (by assumption) ?_
    | with_reducible refine keeps_fst (by assumption) ?_

theorem execMemoryWrite_keeps {quiet : Bool} {a : State} (k : Fin 8) (d : Fin 8) (who : Option (Fin 104)) (h : Option ℕ) (unit : ℕ) (off : ℕ) (bytes : List Byte) (cls : Fin 4) (fails : List (ℕ × ℕ)) (ecc : ℕ) (full : Bool) (s : State) (hs : Keeps quiet a s) :
    KeepsOut quiet a (execMemoryWrite k d who h unit off bytes cls fails ecc full s) := by
  unfold execMemoryWrite
  try dsimp only
  repeat' first
    | with_reducible intro _ | with_reducible assumption | with_reducible apply keeps_next | with_reducible apply State.demandDenied_keeps
    | with_reducible apply State.takeEntry_keeps | with_reducible apply State.travel_keeps | with_reducible apply State.modStack_keeps
    | with_reducible apply State.rmwRead_keeps | with_reducible apply State.write_keeps | with_reducible apply State.slotWrite_keeps
    | with_reducible apply hs | simp only [keeps_upd] | with_reducible apply foldl_keeps | with_reducible apply ite_keepsOut
    | with_reducible apply ite_keeps | split | with_reducible refine keeps_snd (by assumption) ?_
    | with_reducible refine keeps_fst (by assumption) ?_

theorem execPcRetirementMove_keeps {quiet : Bool} {a : State} (d : Fin 8) (i : Fin 12) (pc : Fin 64) (unreadable : List ℕ) (s : State) (hs : Keeps quiet a s) :
    KeepsOut quiet a (execPcRetirementMove d i pc unreadable s) := by
  unfold execPcRetirementMove
  try dsimp only
  repeat' first
    | with_reducible intro _ | with_reducible assumption | with_reducible apply keeps_next | with_reducible apply State.poisonLine_keeps
    | with_reducible apply State.modStack_keeps | with_reducible apply State.commitStack_keeps | with_reducible apply hs
    | simp only [keeps_upd] | with_reducible apply foldl_keeps | with_reducible apply ite_keepsOut | with_reducible apply ite_keeps | split
    | with_reducible refine keeps_snd (by assumption) ?_ | with_reducible refine keeps_fst (by assumption) ?_

theorem execD2dFlitReplay_keeps {quiet : Bool} {a : State} (d : Fin 8) (e : Fin 3) (g : Fin 16) (replays : ℕ) (s : State) (hs : Keeps quiet a s) :
    KeepsOut quiet a (execD2dFlitReplay d e g replays s) := by
  unfold execD2dFlitReplay
  try dsimp only
  repeat' first
    | with_reducible intro _ | with_reducible assumption | with_reducible apply keeps_next | with_reducible apply State.retireGroup_keeps
    | with_reducible apply hs | simp only [keeps_upd] | with_reducible apply foldl_keeps | with_reducible apply ite_keepsOut
    | with_reducible apply ite_keeps | split | with_reducible refine keeps_snd (by assumption) ?_
    | with_reducible refine keeps_fst (by assumption) ?_

theorem State.rotateSuite_keeps {quiet : Bool} {a : State} (s : State) (k : Fin 8) (hs : Keeps quiet a s) :
    Keeps quiet a (State.rotateSuite s k) := by
  unfold State.rotateSuite
  try dsimp only
  repeat' first
    | with_reducible intro _ | with_reducible assumption | with_reducible apply State.modDie_keeps | with_reducible apply hs
    | simp only [keeps_upd] | with_reducible apply foldl_keeps | with_reducible apply ite_keeps | split
    | with_reducible refine keeps_snd (by assumption) ?_ | with_reducible refine keeps_fst (by assumption) ?_

theorem execMemKeyRotationStart_keeps {quiet : Bool} {a : State} (k : Fin 8) (s : State) (hs : Keeps quiet a s) :
    KeepsOut quiet a (execMemKeyRotationStart k s) := by
  unfold execMemKeyRotationStart
  try dsimp only
  repeat' first
    | with_reducible intro _ | with_reducible assumption | with_reducible apply keeps_next | with_reducible apply State.rotateSuite_keeps
    | with_reducible apply hs | simp only [keeps_upd] | with_reducible apply foldl_keeps | with_reducible apply ite_keepsOut
    | with_reducible apply ite_keeps | split | with_reducible refine keeps_snd (by assumption) ?_
    | with_reducible refine keeps_fst (by assumption) ?_

theorem execReencryptionDone_keeps {quiet : Bool} {a : State} (d : Fin 8) (i : Fin 12) (s : State) (hs : Keeps quiet a s) :
    KeepsOut quiet a (execReencryptionDone d i s) := by
  unfold execReencryptionDone
  try dsimp only
  repeat' first
    | with_reducible intro _ | with_reducible assumption | with_reducible apply keeps_next | with_reducible apply State.modStack_keeps
    | with_reducible apply State.dieEvent_keeps | with_reducible apply hs | simp only [keeps_upd] | with_reducible apply foldl_keeps
    | with_reducible apply ite_keepsOut | with_reducible apply ite_keeps | split | with_reducible refine keeps_snd (by assumption) ?_
    | with_reducible refine keeps_fst (by assumption) ?_

/-! ### Merge -/

theorem execMergeAdd_keeps {quiet : Bool} {a : State} (k : Fin 8) (h : ℕ) (row : ℕ) (fails : List (Fin 4 × ℕ)) (s : State) (hs : Keeps quiet a s) :
    KeepsOut quiet a (execMergeAdd k h row fails s) := by
  unfold execMergeAdd
  try dsimp only
  repeat' first
    | with_reducible intro _ | with_reducible assumption | with_reducible apply keeps_next | with_reducible apply State.onRunning_keeps
    | with_reducible apply State.confine_keeps | with_reducible apply State.rmwRead_keeps | with_reducible apply State.modTask_keeps
    | with_reducible apply State.addPart_keeps | with_reducible apply hs | simp only [keeps_upd] | with_reducible apply foldl_keeps
    | with_reducible apply ite_keepsOut | with_reducible apply ite_keeps | split | with_reducible refine keeps_snd (by assumption) ?_
    | with_reducible refine keeps_fst (by assumption) ?_

theorem execMergedRowDrain_keeps {quiet : Bool} {a : State} (k : Fin 8) (h : ℕ) (row : ℕ) (s : State) (hs : Keeps quiet a s) :
    KeepsOut quiet a (execMergedRowDrain k h row s) := by
  unfold execMergedRowDrain
  try dsimp only
  repeat' first
    | with_reducible intro _ | with_reducible assumption | with_reducible apply keeps_next | with_reducible apply State.onRunning_keeps
    | with_reducible apply State.confine_keeps | with_reducible apply State.modTask_keeps | with_reducible apply State.tilesDrain_keeps
    | with_reducible apply State.reportAccess_keeps | with_reducible apply hs | simp only [keeps_upd] | with_reducible apply foldl_keeps
    | with_reducible apply ite_keepsOut | with_reducible apply ite_keeps | split | with_reducible refine keeps_snd (by assumption) ?_
    | with_reducible refine keeps_fst (by assumption) ?_

/-! ### Tick -/

theorem State.tick_keeps {a : State} (s : State) (hs : Keeps false a s) :
    Keeps false a (State.tick s) := by
  unfold State.tick
  try dsimp only
  repeat' first
    | with_reducible intro _ | with_reducible assumption | with_reducible apply hs | simp only [keeps_upd_any]
    | with_reducible apply foldl_keeps | with_reducible apply ite_keeps | split | with_reducible refine keeps_snd (by assumption) ?_
    | with_reducible refine keeps_fst (by assumption) ?_

/-! ### Relay -/

theorem State.writeRegion_keeps {quiet : Bool} {a : State} (s : State) (built : State) (r : Region) (hs : Keeps quiet a s) (hbuilt : Keeps quiet a built) :
    Keeps quiet a (State.writeRegion s built r) := by
  unfold State.writeRegion
  try dsimp only
  repeat' first
    | with_reducible intro _ | with_reducible assumption | with_reducible apply State.write_keeps | with_reducible apply hs
    | with_reducible apply hbuilt | simp only [keeps_upd] | with_reducible apply foldl_keeps | with_reducible apply ite_keeps | split
    | with_reducible refine keeps_snd (by assumption) ?_ | with_reducible refine keeps_fst (by assumption) ?_

theorem State.poisonRegion_keeps {quiet : Bool} {a : State} (s : State) (r : Region) (hs : Keeps quiet a s) :
    Keeps quiet a (State.poisonRegion s r) := by
  unfold State.poisonRegion
  try dsimp only
  repeat' first
    | with_reducible intro _ | with_reducible assumption | with_reducible apply State.poisonRange_keeps | with_reducible apply hs
    | simp only [keeps_upd] | with_reducible apply foldl_keeps | with_reducible apply ite_keeps | split
    | with_reducible refine keeps_snd (by assumption) ?_ | with_reducible refine keeps_fst (by assumption) ?_

theorem State.zeroPieces_keeps {quiet : Bool} {a : State} (s : State) (rs : List Region) (hs : Keeps quiet a s) :
    Keeps quiet a (State.zeroPieces s rs) := by
  unfold State.zeroPieces
  try dsimp only
  repeat' first
    | with_reducible intro _ | with_reducible assumption | with_reducible apply State.rawWrite_keeps | with_reducible apply hs
    | simp only [keeps_upd] | with_reducible apply foldl_keeps | with_reducible apply ite_keeps | split
    | with_reducible refine keeps_snd (by assumption) ?_ | with_reducible refine keeps_fst (by assumption) ?_

theorem State.countPuts_keeps {quiet : Bool} {a : State} (s : State) (k : Fin 8) (t : Tensor) (step : ℕ) (ps : List Put) (hs : Keeps quiet a s) :
    Keeps quiet a (State.countPuts s k t step ps) := by
  unfold State.countPuts
  try dsimp only
  repeat' first
    | with_reducible intro _ | with_reducible assumption | with_reducible apply State.countConvAt_keeps | with_reducible apply hs
    | simp only [keeps_upd] | with_reducible apply foldl_keeps | with_reducible apply ite_keeps | split
    | with_reducible refine keeps_snd (by assumption) ?_ | with_reducible refine keeps_fst (by assumption) ?_

theorem State.emptyTags_keeps {quiet : Bool} {a : State} (s : State) (t : Tensor) (tag : ℕ) (hs : Keeps quiet a s) :
    Keeps quiet a (State.emptyTags s t tag) := by
  unfold State.emptyTags
  try dsimp only
  repeat' first
    | with_reducible intro _ | with_reducible assumption | with_reducible apply State.rawWrite_keeps | with_reducible apply hs
    | simp only [keeps_upd] | with_reducible apply foldl_keeps | with_reducible apply ite_keeps | split
    | with_reducible refine keeps_snd (by assumption) ?_ | with_reducible refine keeps_fst (by assumption) ?_

theorem State.poisonGroups_keeps {quiet : Bool} {a : State} (s : State) (t : Tensor) (st : Struct) (bad : Place → Bool) (hs : Keeps quiet a s) :
    Keeps quiet a (State.poisonGroups s t st bad) := by
  unfold State.poisonGroups
  try dsimp only
  repeat' first
    | with_reducible intro _ | with_reducible assumption | with_reducible apply State.poisonSkimOf_keeps
    | with_reducible apply State.poisonPlace_keeps | with_reducible apply hs | simp only [keeps_upd] | with_reducible apply foldl_keeps
    | with_reducible apply ite_keeps | split | with_reducible refine keeps_snd (by assumption) ?_
    | with_reducible refine keeps_fst (by assumption) ?_

theorem State.relayDone_keeps {quiet : Bool} {a : State} (s : State) (k : Fin 8) (t : Task) (st : Status) (hs : Keeps quiet a s) :
    Keeps quiet a (State.relayDone s k t st) := by
  unfold State.relayDone
  try dsimp only
  repeat' first
    | with_reducible intro _ | with_reducible assumption | with_reducible apply State.finish_keeps | with_reducible apply State.modDie_keeps
    | with_reducible apply hs | simp only [keeps_upd] | with_reducible apply foldl_keeps | with_reducible apply ite_keeps | split
    | with_reducible refine keeps_snd (by assumption) ?_ | with_reducible refine keeps_fst (by assumption) ?_

theorem State.stopTask_keeps {quiet : Bool} {a : State} (s : State) (k : Fin 8) (t : Task) (st : Status) (hs : Keeps quiet a s) :
    Keeps quiet a (State.stopTask s k t st) := by
  unfold State.stopTask
  try dsimp only
  repeat' first
    | with_reducible intro _ | with_reducible assumption | with_reducible apply State.relayDone_keeps
    | with_reducible apply State.finish_keeps | with_reducible apply hs | simp only [keeps_upd] | with_reducible apply foldl_keeps
    | with_reducible apply ite_keeps | split | with_reducible refine keeps_snd (by assumption) ?_
    | with_reducible refine keeps_fst (by assumption) ?_

theorem State.relayCount_keeps {quiet : Bool} {a : State} (s : State) (t : Task) (f : Relay → Relay) (hs : Keeps quiet a s) :
    Keeps quiet a (State.relayCount s t f) := by
  unfold State.relayCount
  try dsimp only
  repeat' first
    | with_reducible intro _ | with_reducible assumption | with_reducible apply State.modDie_keeps | with_reducible apply hs
    | simp only [keeps_upd] | with_reducible apply foldl_keeps | with_reducible apply ite_keeps | split
    | with_reducible refine keeps_snd (by assumption) ?_ | with_reducible refine keeps_fst (by assumption) ?_

theorem State.relayRefuse_keeps {quiet : Bool} {a : State} (s : State) (k : Fin 8) (t : Task) (twin : Bool) (ids : List ℕ) (st : Status) (hs : Keeps quiet a s) :
    Keeps quiet a (State.relayRefuse s k t twin ids st) := by
  unfold State.relayRefuse
  try dsimp only
  repeat' first
    | with_reducible intro _ | with_reducible assumption | with_reducible apply State.relayDone_keeps
    | with_reducible apply State.refuse_keeps | with_reducible apply hs | simp only [keeps_upd] | with_reducible apply foldl_keeps
    | with_reducible apply ite_keeps | split | with_reducible refine keeps_snd (by assumption) ?_
    | with_reducible refine keeps_fst (by assumption) ?_

theorem State.afterBuild_keeps {quiet : Bool} {a : State} (s : State) (u : State) (k : Fin 8) (t : Task) (writes : List (ℕ × ℕ)) (hs : Keeps quiet a s) (hu : Keeps quiet a u) :
    Keeps quiet a (State.afterBuild s u k t writes) := by
  unfold State.afterBuild
  try dsimp only
  repeat' first
    | with_reducible intro _ | with_reducible assumption | with_reducible apply State.modTask_keeps
    | with_reducible apply State.freeRegion_keeps | with_reducible apply hs | with_reducible apply hu | simp only [keeps_upd]
    | with_reducible apply foldl_keeps | with_reducible apply ite_keeps | split | with_reducible refine keeps_snd (by assumption) ?_
    | with_reducible refine keeps_fst (by assumption) ?_

theorem State.relayGuard_keeps {quiet : Bool} {a : State} (s : State) (k : Fin 8) (t : Task) (dst : Tensor) (reads : List (ℕ × ℕ)) (writes : List (ℕ × ℕ)) (f : State → State) (hs : Keeps quiet a s) (hf : ∀ x0, Keeps quiet a x0 → Keeps quiet a (f x0)) :
    Keeps quiet a (State.relayGuard s k t dst reads writes f) := by
  unfold State.relayGuard
  split
  · exact State.relayDone_keeps _ _ _ _ (State.taskMemError_keeps _ _ _ _ _ _ hs)
  · split
    · exact State.relayDone_keeps _ _ _ _ hs
    · split
      · exact State.relayDone_keeps _ _ _ _ (State.boundRefused_keeps _ _ _ _ _ hs)
      · exact State.afterBuild_keeps _ _ _ _ _ hs (hf _ (State.bindTo_keeps _ _ _ _ _ hs _ (by assumption)))

theorem State.runPlan_keeps {quiet : Bool} {a : State} (s : State) (k : Fin 8) (t : Task) (p : RelayPlan) (hs : Keeps quiet a s) (hp : PlanKeeps quiet a p) : Keeps quiet a (s.runPlan k t p) := by
  cases p with
  | ends u => exact hp
  | works d r w l f =>
    refine State.relayGuard_keeps _ _ _ _ _ _ _ hs fun u hu => ?_
    cases l with
    | none => exact hp.2 u hu
    | some x => exact hp.1 x rfl

theorem State.commitBuild_keeps {quiet : Bool} {a : State} (s : State) (built : State) (k : Fin 8) (t : Task) (dst : Tensor) (rs : List Region) (hs : Keeps quiet a s) (hbuilt : Keeps quiet a built) :
    Keeps quiet a (State.commitBuild s built k t dst rs) := by
  unfold State.commitBuild
  try dsimp only
  repeat' first
    | with_reducible intro _ | with_reducible assumption | with_reducible apply State.writeRegion_keeps
    | with_reducible apply State.write_keeps | with_reducible apply State.poisonRegion_keeps | with_reducible apply State.formatEvent_keeps
    | with_reducible apply State.relayCount_keeps | with_reducible apply hs | with_reducible apply hbuilt | simp only [keeps_upd]
    | with_reducible apply foldl_keeps | with_reducible apply ite_keeps | split | with_reducible refine keeps_snd (by assumption) ?_
    | with_reducible refine keeps_fst (by assumption) ?_

theorem State.buildOut_keeps {quiet : Bool} {a : State} (s : State) (k : Fin 8) (t : Task) (raw : Bool) (dst : Tensor) (st : Struct) (puts : List Put) (pois : List Place) (whole : Bool) (index : Option (List Byte)) (twin : Option (List Byte)) (vcap : ℕ) (icap : ℕ) (tcap : ℕ) (skim : Bool) (hs : Keeps quiet a s) :
    Keeps quiet a (State.buildOut s k t raw dst st puts pois whole index twin vcap icap tcap skim) := by
  unfold State.buildOut
  try dsimp only
  repeat' first
    | with_reducible intro _ | with_reducible assumption | with_reducible apply State.emptyTags_keeps
    | with_reducible apply State.zeroPieces_keeps | with_reducible apply State.putAll_keeps | with_reducible apply State.writeSkim_keeps
    | with_reducible apply State.rawWrite_keeps | with_reducible apply State.commitBuild_keeps | with_reducible apply State.reportNan_keeps
    | with_reducible apply State.countPuts_keeps | with_reducible apply State.poisonRegion_keeps
    | with_reducible apply State.poisonGroups_keeps | with_reducible apply hs | simp only [keeps_upd] | with_reducible apply foldl_keeps
    | with_reducible apply ite_keeps | split | with_reducible refine keeps_snd (by assumption) ?_
    | with_reducible refine keeps_fst (by assumption) ?_

theorem State.relayReports_keeps {quiet : Bool} {a : State} (s : State) (k : Fin 8) (t : Task) (src : Tensor) (st : Struct) (es : List Ent) (pois : Option ℕ) (hs : Keeps quiet a s) :
    Keeps quiet a (State.relayReports s k t src st es pois) := by
  unfold State.relayReports
  try dsimp only
  repeat' first
    | with_reducible intro _ | with_reducible assumption | with_reducible apply State.addCount_keeps
    | with_reducible apply State.reportInvalid_keeps | with_reducible apply State.worsen_keeps
    | with_reducible apply State.formatEvent_keeps | with_reducible apply State.reportAccess_keeps | with_reducible apply hs
    | simp only [keeps_upd] | with_reducible apply foldl_keeps | with_reducible apply ite_keeps | split
    | with_reducible refine keeps_snd (by assumption) ?_ | with_reducible refine keeps_fst (by assumption) ?_

theorem State.storePlan_keeps {quiet : Bool} {a : State} (s : State) (k : Fin 8) (t : Task) (hs : Keeps quiet a s) : PlanKeeps quiet a (s.storePlan k t) := by
  unfold State.storePlan
  dsimp only
  repeat' first
    | with_reducible exact keeps_none | with_reducible apply ite_some_keeps | with_reducible intro _ | with_reducible assumption
    | with_reducible apply planKeeps_ends | with_reducible apply planKeeps_works | with_reducible apply ite_planKeeps
    | with_reducible apply State.rawWrite_keeps | with_reducible apply State.relayRefuse_keeps | with_reducible apply State.relayDone_keeps
    | with_reducible apply State.formatEvent_keeps | with_reducible apply State.relayReports_keeps
    | with_reducible apply State.relayCount_keeps | with_reducible apply State.buildOut_keeps | with_reducible apply State.copyRows_keeps
    | with_reducible apply State.write_keeps | with_reducible apply State.poisonRange_keeps | with_reducible apply State.writeSkim_keeps
    | with_reducible apply State.poisonGroups_keeps | with_reducible apply State.reportAccess_keeps
    | with_reducible apply State.boundRefused_keeps | with_reducible apply State.hostWrite_keeps
    | with_reducible apply State.commitBuild_keeps | with_reducible apply State.poisonRegion_keeps | with_reducible apply foldl_keeps
    | with_reducible apply ite_keeps | split

theorem State.relayStore_keeps {quiet : Bool} {a : State} (s : State) (k : Fin 8) (t : Task) (hs : Keeps quiet a s) :
    Keeps quiet a (State.relayStore s k t) := by
  exact State.runPlan_keeps _ _ _ _ hs (State.storePlan_keeps _ _ _ hs)

theorem execRelayStore_keeps {quiet : Bool} {a : State} (k : Fin 8) (h : ℕ) (s : State) (hs : Keeps quiet a s) :
    KeepsOut quiet a (execRelayStore k h s) := by
  unfold execRelayStore
  try dsimp only
  repeat' first
    | with_reducible intro _ | with_reducible assumption | with_reducible apply keeps_next | with_reducible apply State.runTask_keeps
    | with_reducible apply State.relayStore_keeps | with_reducible apply hs | simp only [keeps_upd] | with_reducible apply foldl_keeps
    | with_reducible apply ite_keepsOut | with_reducible apply ite_keeps | split | with_reducible refine keeps_snd (by assumption) ?_
    | with_reducible refine keeps_fst (by assumption) ?_

theorem State.valuesPlan_keeps {quiet : Bool} {a : State} (s : State) (k : Fin 8) (t : Task) (hs : Keeps quiet a s) : PlanKeeps quiet a (s.valuesPlan k t) := by
  unfold State.valuesPlan
  dsimp only
  repeat' first
    | with_reducible exact keeps_none | with_reducible apply ite_some_keeps | with_reducible intro _ | with_reducible assumption
    | with_reducible apply planKeeps_ends | with_reducible apply planKeeps_works | with_reducible apply ite_planKeeps
    | with_reducible apply State.rawWrite_keeps | with_reducible apply State.relayRefuse_keeps | with_reducible apply State.relayDone_keeps
    | with_reducible apply State.formatEvent_keeps | with_reducible apply State.relayReports_keeps
    | with_reducible apply State.relayCount_keeps | with_reducible apply State.buildOut_keeps | with_reducible apply State.copyRows_keeps
    | with_reducible apply State.write_keeps | with_reducible apply State.poisonRange_keeps | with_reducible apply State.writeSkim_keeps
    | with_reducible apply State.poisonGroups_keeps | with_reducible apply State.reportAccess_keeps
    | with_reducible apply State.boundRefused_keeps | with_reducible apply State.hostWrite_keeps
    | with_reducible apply State.commitBuild_keeps | with_reducible apply State.poisonRegion_keeps | with_reducible apply foldl_keeps
    | with_reducible apply ite_keeps | split

theorem State.relayStoreValues_keeps {quiet : Bool} {a : State} (s : State) (k : Fin 8) (t : Task) (hs : Keeps quiet a s) :
    Keeps quiet a (State.relayStoreValues s k t) := by
  exact State.runPlan_keeps _ _ _ _ hs (State.valuesPlan_keeps _ _ _ hs)

theorem execRelayStoreValues_keeps {quiet : Bool} {a : State} (k : Fin 8) (h : ℕ) (s : State) (hs : Keeps quiet a s) :
    KeepsOut quiet a (execRelayStoreValues k h s) := by
  unfold execRelayStoreValues
  try dsimp only
  repeat' first
    | with_reducible intro _ | with_reducible assumption | with_reducible apply keeps_next | with_reducible apply State.runTask_keeps
    | with_reducible apply State.relayStoreValues_keeps | with_reducible apply hs | simp only [keeps_upd] | with_reducible apply foldl_keeps
    | with_reducible apply ite_keepsOut | with_reducible apply ite_keeps | split | with_reducible refine keeps_snd (by assumption) ?_
    | with_reducible refine keeps_fst (by assumption) ?_

theorem State.onehotPlan_keeps {quiet : Bool} {a : State} (s : State) (k : Fin 8) (t : Task) (hs : Keeps quiet a s) : PlanKeeps quiet a (s.onehotPlan k t) := by
  unfold State.onehotPlan
  dsimp only
  repeat' first
    | with_reducible exact keeps_none | with_reducible apply ite_some_keeps | with_reducible intro _ | with_reducible assumption
    | with_reducible apply planKeeps_ends | with_reducible apply planKeeps_works | with_reducible apply ite_planKeeps
    | with_reducible apply State.rawWrite_keeps | with_reducible apply State.relayRefuse_keeps | with_reducible apply State.relayDone_keeps
    | with_reducible apply State.formatEvent_keeps | with_reducible apply State.relayReports_keeps
    | with_reducible apply State.relayCount_keeps | with_reducible apply State.buildOut_keeps | with_reducible apply State.copyRows_keeps
    | with_reducible apply State.write_keeps | with_reducible apply State.poisonRange_keeps | with_reducible apply State.writeSkim_keeps
    | with_reducible apply State.poisonGroups_keeps | with_reducible apply State.reportAccess_keeps
    | with_reducible apply State.boundRefused_keeps | with_reducible apply State.hostWrite_keeps
    | with_reducible apply State.commitBuild_keeps | with_reducible apply State.poisonRegion_keeps | with_reducible apply foldl_keeps
    | with_reducible apply ite_keeps | split

theorem State.relayOnehot_keeps {quiet : Bool} {a : State} (s : State) (k : Fin 8) (t : Task) (hs : Keeps quiet a s) :
    Keeps quiet a (State.relayOnehot s k t) := by
  exact State.runPlan_keeps _ _ _ _ hs (State.onehotPlan_keeps _ _ _ hs)

theorem execRelayOnehot_keeps {quiet : Bool} {a : State} (k : Fin 8) (h : ℕ) (s : State) (hs : Keeps quiet a s) :
    KeepsOut quiet a (execRelayOnehot k h s) := by
  unfold execRelayOnehot
  try dsimp only
  repeat' first
    | with_reducible intro _ | with_reducible assumption | with_reducible apply keeps_next | with_reducible apply State.runTask_keeps
    | with_reducible apply State.relayOnehot_keeps | with_reducible apply hs | simp only [keeps_upd] | with_reducible apply foldl_keeps
    | with_reducible apply ite_keepsOut | with_reducible apply ite_keeps | split | with_reducible refine keeps_snd (by assumption) ?_
    | with_reducible refine keeps_fst (by assumption) ?_

theorem State.copyRows_keeps {quiet : Bool} {a : State} (s : State) (k : Fin 8) (src : Tensor) (dst : Tensor) (hs : Keeps quiet a s) :
    Keeps quiet a (State.copyRows s k src dst) := by
  unfold State.copyRows
  try dsimp only
  repeat' first
    | with_reducible intro _ | with_reducible assumption | with_reducible apply State.write_keeps
    | with_reducible apply State.poisonLine_keeps | with_reducible apply hs | simp only [keeps_upd] | with_reducible apply foldl_keeps
    | with_reducible apply ite_keeps | split | with_reducible refine keeps_snd (by assumption) ?_
    | with_reducible refine keeps_fst (by assumption) ?_

theorem State.copyPlan_keeps {quiet : Bool} {a : State} (s : State) (k : Fin 8) (t : Task) (hs : Keeps quiet a s) : PlanKeeps quiet a (s.copyPlan k t) := by
  unfold State.copyPlan
  dsimp only
  repeat' first
    | with_reducible exact keeps_none | with_reducible apply ite_some_keeps | with_reducible intro _ | with_reducible assumption
    | with_reducible apply planKeeps_ends | with_reducible apply planKeeps_works | with_reducible apply ite_planKeeps
    | with_reducible apply State.rawWrite_keeps | with_reducible apply State.relayRefuse_keeps | with_reducible apply State.relayDone_keeps
    | with_reducible apply State.formatEvent_keeps | with_reducible apply State.relayReports_keeps
    | with_reducible apply State.relayCount_keeps | with_reducible apply State.buildOut_keeps | with_reducible apply State.copyRows_keeps
    | with_reducible apply State.write_keeps | with_reducible apply State.poisonRange_keeps | with_reducible apply State.writeSkim_keeps
    | with_reducible apply State.poisonGroups_keeps | with_reducible apply State.reportAccess_keeps
    | with_reducible apply State.boundRefused_keeps | with_reducible apply State.hostWrite_keeps
    | with_reducible apply State.commitBuild_keeps | with_reducible apply State.poisonRegion_keeps | with_reducible apply foldl_keeps
    | with_reducible apply ite_keeps | split

theorem State.relayCopy_keeps {quiet : Bool} {a : State} (s : State) (k : Fin 8) (t : Task) (hs : Keeps quiet a s) :
    Keeps quiet a (State.relayCopy s k t) := by
  exact State.runPlan_keeps _ _ _ _ hs (State.copyPlan_keeps _ _ _ hs)

theorem execRelayCopy_keeps {quiet : Bool} {a : State} (k : Fin 8) (h : ℕ) (s : State) (hs : Keeps quiet a s) :
    KeepsOut quiet a (execRelayCopy k h s) := by
  unfold execRelayCopy
  try dsimp only
  repeat' first
    | with_reducible intro _ | with_reducible assumption | with_reducible apply keeps_next | with_reducible apply State.runTask_keeps
    | with_reducible apply State.relayCopy_keeps | with_reducible apply hs | simp only [keeps_upd] | with_reducible apply foldl_keeps
    | with_reducible apply ite_keepsOut | with_reducible apply ite_keeps | split | with_reducible refine keeps_snd (by assumption) ?_
    | with_reducible refine keeps_fst (by assumption) ?_

theorem State.hostInPlan_keeps {quiet : Bool} {a : State} (s : State) (k : Fin 8) (t : Task) (bytes : List Byte) (hs : Keeps quiet a s) : PlanKeeps quiet a (s.hostInPlan k t bytes) := by
  unfold State.hostInPlan
  dsimp only
  repeat' first
    | with_reducible exact keeps_none | with_reducible apply ite_some_keeps | with_reducible intro _ | with_reducible assumption
    | with_reducible apply planKeeps_ends | with_reducible apply planKeeps_works | with_reducible apply ite_planKeeps
    | with_reducible apply State.rawWrite_keeps | with_reducible apply State.relayRefuse_keeps | with_reducible apply State.relayDone_keeps
    | with_reducible apply State.formatEvent_keeps | with_reducible apply State.relayReports_keeps
    | with_reducible apply State.relayCount_keeps | with_reducible apply State.buildOut_keeps | with_reducible apply State.copyRows_keeps
    | with_reducible apply State.write_keeps | with_reducible apply State.poisonRange_keeps | with_reducible apply State.writeSkim_keeps
    | with_reducible apply State.poisonGroups_keeps | with_reducible apply State.reportAccess_keeps
    | with_reducible apply State.boundRefused_keeps | with_reducible apply State.hostWrite_keeps
    | with_reducible apply State.commitBuild_keeps | with_reducible apply State.poisonRegion_keeps | with_reducible apply foldl_keeps
    | with_reducible apply ite_keeps | split

theorem State.relayHostIn_keeps {quiet : Bool} {a : State} (s : State) (k : Fin 8) (t : Task) (bytes : List Byte) (hs : Keeps quiet a s) :
    Keeps quiet a (State.relayHostIn s k t bytes) := by
  exact State.runPlan_keeps _ _ _ _ hs (State.hostInPlan_keeps _ _ _ _ hs)

theorem execRelayHostIn_keeps {quiet : Bool} {a : State} (k : Fin 8) (h : ℕ) (bytes : List Byte) (s : State) (hs : Keeps quiet a s) :
    KeepsOut quiet a (execRelayHostIn k h bytes s) := by
  unfold execRelayHostIn
  try dsimp only
  repeat' first
    | with_reducible intro _ | with_reducible assumption | with_reducible apply keeps_next | with_reducible apply State.runTask_keeps
    | with_reducible apply State.relayHostIn_keeps | with_reducible apply hs | simp only [keeps_upd] | with_reducible apply foldl_keeps
    | with_reducible apply ite_keepsOut | with_reducible apply ite_keeps | split | with_reducible refine keeps_snd (by assumption) ?_
    | with_reducible refine keeps_fst (by assumption) ?_

theorem State.hostOutPlan_keeps {quiet : Bool} {a : State} (s : State) (k : Fin 8) (t : Task) (hs : Keeps quiet a s) : PlanKeeps quiet a (s.hostOutPlan k t) := by
  unfold State.hostOutPlan
  dsimp only
  repeat' first
    | with_reducible exact keeps_none | with_reducible apply ite_some_keeps | with_reducible intro _ | with_reducible assumption
    | with_reducible apply planKeeps_ends | with_reducible apply planKeeps_works | with_reducible apply ite_planKeeps
    | with_reducible apply State.rawWrite_keeps | with_reducible apply State.relayRefuse_keeps | with_reducible apply State.relayDone_keeps
    | with_reducible apply State.formatEvent_keeps | with_reducible apply State.relayReports_keeps
    | with_reducible apply State.relayCount_keeps | with_reducible apply State.buildOut_keeps | with_reducible apply State.copyRows_keeps
    | with_reducible apply State.write_keeps | with_reducible apply State.poisonRange_keeps | with_reducible apply State.writeSkim_keeps
    | with_reducible apply State.poisonGroups_keeps | with_reducible apply State.reportAccess_keeps
    | with_reducible apply State.boundRefused_keeps | with_reducible apply State.hostWrite_keeps
    | with_reducible apply State.commitBuild_keeps | with_reducible apply State.poisonRegion_keeps | with_reducible apply foldl_keeps
    | with_reducible apply ite_keeps | split

theorem State.relayHostOut_keeps {quiet : Bool} {a : State} (s : State) (k : Fin 8) (t : Task) (hs : Keeps quiet a s) :
    Keeps quiet a (State.relayHostOut s k t) := by
  exact State.runPlan_keeps _ _ _ _ hs (State.hostOutPlan_keeps _ _ _ hs)

theorem execRelayHostOut_keeps {quiet : Bool} {a : State} (k : Fin 8) (h : ℕ) (s : State) (hs : Keeps quiet a s) :
    KeepsOut quiet a (execRelayHostOut k h s) := by
  unfold execRelayHostOut
  try dsimp only
  repeat' first
    | with_reducible intro _ | with_reducible assumption | with_reducible apply keeps_next | with_reducible apply State.runTask_keeps
    | with_reducible apply State.relayHostOut_keeps | with_reducible apply hs | simp only [keeps_upd] | with_reducible apply foldl_keeps
    | with_reducible apply ite_keepsOut | with_reducible apply ite_keeps | split | with_reducible refine keeps_snd (by assumption) ?_
    | with_reducible refine keeps_fst (by assumption) ?_

theorem State.relayCheck_keeps {quiet : Bool} {a : State} (s : State) (k : Fin 8) (t : Task) (hs : Keeps quiet a s) :
    Keeps quiet a (State.relayCheck s k t) := by
  unfold State.relayCheck
  try dsimp only
  repeat' first
    | with_reducible intro _ | with_reducible assumption | with_reducible apply State.relayRefuse_keeps
    | with_reducible apply State.formatEvent_keeps | with_reducible apply State.relayDone_keeps
    | with_reducible apply State.reportAccess_keeps | with_reducible apply hs | simp only [keeps_upd] | with_reducible apply foldl_keeps
    | with_reducible apply ite_keeps | split | with_reducible refine keeps_snd (by assumption) ?_
    | with_reducible refine keeps_fst (by assumption) ?_

theorem execRelayCheck_keeps {quiet : Bool} {a : State} (k : Fin 8) (h : ℕ) (s : State) (hs : Keeps quiet a s) :
    KeepsOut quiet a (execRelayCheck k h s) := by
  unfold execRelayCheck
  try dsimp only
  repeat' first
    | with_reducible intro _ | with_reducible assumption | with_reducible apply keeps_next | with_reducible apply State.runTask_keeps
    | with_reducible apply State.relayCheck_keeps | with_reducible apply hs | simp only [keeps_upd] | with_reducible apply foldl_keeps
    | with_reducible apply ite_keepsOut | with_reducible apply ite_keeps | split | with_reducible refine keeps_snd (by assumption) ?_
    | with_reducible refine keeps_fst (by assumption) ?_

theorem State.twinPlan_keeps {quiet : Bool} {a : State} (s : State) (k : Fin 8) (t : Task) (hs : Keeps quiet a s) : PlanKeeps quiet a (s.twinPlan k t) := by
  unfold State.twinPlan
  dsimp only
  repeat' first
    | with_reducible exact keeps_none | with_reducible apply ite_some_keeps | with_reducible intro _ | with_reducible assumption
    | with_reducible apply planKeeps_ends | with_reducible apply planKeeps_works | with_reducible apply ite_planKeeps
    | with_reducible apply State.rawWrite_keeps | with_reducible apply State.relayRefuse_keeps | with_reducible apply State.relayDone_keeps
    | with_reducible apply State.formatEvent_keeps | with_reducible apply State.relayReports_keeps
    | with_reducible apply State.relayCount_keeps | with_reducible apply State.buildOut_keeps | with_reducible apply State.copyRows_keeps
    | with_reducible apply State.write_keeps | with_reducible apply State.poisonRange_keeps | with_reducible apply State.writeSkim_keeps
    | with_reducible apply State.poisonGroups_keeps | with_reducible apply State.reportAccess_keeps
    | with_reducible apply State.boundRefused_keeps | with_reducible apply State.hostWrite_keeps
    | with_reducible apply State.commitBuild_keeps | with_reducible apply State.poisonRegion_keeps | with_reducible apply foldl_keeps
    | with_reducible apply ite_keeps | split

theorem State.relayTwin_keeps {quiet : Bool} {a : State} (s : State) (k : Fin 8) (t : Task) (hs : Keeps quiet a s) :
    Keeps quiet a (State.relayTwin s k t) := by
  exact State.runPlan_keeps _ _ _ _ hs (State.twinPlan_keeps _ _ _ hs)

theorem execRelayTwin_keeps {quiet : Bool} {a : State} (k : Fin 8) (h : ℕ) (s : State) (hs : Keeps quiet a s) :
    KeepsOut quiet a (execRelayTwin k h s) := by
  unfold execRelayTwin
  try dsimp only
  repeat' first
    | with_reducible intro _ | with_reducible assumption | with_reducible apply keeps_next | with_reducible apply State.runTask_keeps
    | with_reducible apply State.relayTwin_keeps | with_reducible apply hs | simp only [keeps_upd] | with_reducible apply foldl_keeps
    | with_reducible apply ite_keepsOut | with_reducible apply ite_keeps | split | with_reducible refine keeps_snd (by assumption) ?_
    | with_reducible refine keeps_fst (by assumption) ?_

/-! ### Exchange -/

theorem State.sentTo_keeps {quiet : Bool} {a : State} (s : State) (k : Fin 8) (coord : List ℕ) (n : ℕ) (hs : Keeps quiet a s) :
    Keeps quiet a (State.sentTo s k coord n) := by
  unfold State.sentTo
  try dsimp only
  repeat' first
    | with_reducible intro _ | with_reducible assumption | with_reducible apply State.modSuite_keeps | with_reducible apply hs
    | simp only [keeps_upd] | with_reducible apply foldl_keeps | with_reducible apply ite_keeps | split
    | with_reducible refine keeps_snd (by assumption) ?_ | with_reducible refine keeps_fst (by assumption) ?_

theorem State.withGroup_keeps {quiet : Bool} {a : State} (s : State) (k : Fin 8) (t : Task) (f : State → Group → State) (hs : Keeps quiet a s) (hf : ∀ x0 x1, Keeps quiet a x0 → Keeps quiet a (f x0 x1)) :
    Keeps quiet a (State.withGroup s k t f) := by
  unfold State.withGroup
  try dsimp only
  repeat' first
    | with_reducible intro _ | with_reducible assumption | with_reducible apply State.finish_keeps | with_reducible apply hs
    | with_reducible apply hf | simp only [keeps_upd] | with_reducible apply foldl_keeps | with_reducible apply ite_keeps | split
    | with_reducible refine keeps_snd (by assumption) ?_ | with_reducible refine keeps_fst (by assumption) ?_

theorem State.withPeer_keeps {quiet : Bool} {a : State} (s : State) (k : Fin 8) (t : Task) (f : State → State) (hs : Keeps quiet a s) (hf : ∀ x0, Keeps quiet a x0 → Keeps quiet a (f x0)) :
    Keeps quiet a (State.withPeer s k t f) := by
  unfold State.withPeer
  try dsimp only
  repeat' first
    | with_reducible intro _ | with_reducible assumption | with_reducible apply State.withGroup_keeps
    | with_reducible apply State.finish_keeps | with_reducible apply hs | with_reducible apply hf | simp only [keeps_upd]
    | with_reducible apply foldl_keeps | with_reducible apply ite_keeps | split | with_reducible refine keeps_snd (by assumption) ?_
    | with_reducible refine keeps_fst (by assumption) ?_

theorem State.normEnter_keeps {quiet : Bool} {a : State} (s : State) (k : Fin 8) (ts : List (ℕ × Option (Fin 8) × Total)) (hs : Keeps quiet a s) :
    Keeps quiet a (State.normEnter s k ts) := by
  unfold State.normEnter
  try dsimp only
  repeat' first
    | with_reducible intro _ | with_reducible assumption | with_reducible apply State.modDie_keeps | with_reducible apply hs
    | simp only [keeps_upd] | with_reducible apply foldl_keeps | with_reducible apply ite_keeps | split
    | with_reducible refine keeps_snd (by assumption) ?_ | with_reducible refine keeps_fst (by assumption) ?_

theorem State.writeTotals_keeps {quiet : Bool} {a : State} (s : State) (dst : Tensor) (ts : List (Place × Total)) (hs : Keeps quiet a s) :
    Keeps quiet a (State.writeTotals s dst ts) := by
  unfold State.writeTotals
  try dsimp only
  repeat' first
    | with_reducible intro _ | with_reducible assumption | with_reducible apply State.putRaw_keeps | with_reducible apply State.write_keeps
    | with_reducible apply State.settle_keeps | with_reducible apply State.poisonPlace_keeps | with_reducible apply hs
    | simp only [keeps_upd] | with_reducible apply foldl_keeps | with_reducible apply ite_keeps | split
    | with_reducible refine keeps_snd (by assumption) ?_ | with_reducible refine keeps_fst (by assumption) ?_

theorem State.writeNarrow_keeps {quiet : Bool} {a : State} (s : State) (k : Fin 8) (t : Task) (dst : Tensor) (ts : List (Place × Total)) (hs : Keeps quiet a s) :
    Keeps quiet a (State.writeNarrow s k t dst ts) := by
  unfold State.writeNarrow
  try dsimp only
  repeat' first
    | with_reducible intro _ | with_reducible assumption | with_reducible apply State.settle_keeps | with_reducible apply State.putAll_keeps
    | with_reducible apply State.writeSkim_keeps | with_reducible apply State.poisonGroups_keeps | with_reducible apply hs
    | simp only [keeps_upd] | with_reducible apply foldl_keeps | with_reducible apply ite_keeps | split
    | with_reducible refine keeps_snd (by assumption) ?_ | with_reducible refine keeps_fst (by assumption) ?_

theorem State.reduceDone_keeps {quiet : Bool} {a : State} (s0 : State) (s : State) (k : Fin 8) (t : Task) (g : Group) (r : Reduce) (src : Tensor) (dst : Tensor) (ts : List (ℕ × Option (Fin 8) × Total)) (hs0 : Keeps quiet a s0) (hs : Keeps quiet a s) :
    Keeps quiet a (State.reduceDone s0 s k t g r src dst ts) := by
  unfold State.reduceDone
  try dsimp only
  repeat' first
    | with_reducible intro _ | with_reducible assumption | with_reducible apply State.normEnter_keeps
    | with_reducible apply State.deliver_keeps | with_reducible apply State.writeTotals_keeps | with_reducible apply State.writeNarrow_keeps
    | with_reducible apply State.modSuite_keeps | with_reducible apply State.addCount_keeps | with_reducible apply State.worsen_keeps
    | with_reducible apply State.finish_keeps | with_reducible apply State.reportAccess_keeps | with_reducible apply hs0
    | with_reducible apply hs | simp only [keeps_upd] | with_reducible apply foldl_keeps | with_reducible apply ite_keeps | split
    | with_reducible refine keeps_snd (by assumption) ?_ | with_reducible refine keeps_fst (by assumption) ?_

theorem State.runReduce_keeps {quiet : Bool} {a : State} (s : State) (k : Fin 8) (t : Task) (all : Bool) (hs : Keeps quiet a s) :
    Keeps quiet a (State.runReduce s k t all) := by
  unfold State.runReduce
  try dsimp only
  repeat' first
    | with_reducible intro _ | with_reducible assumption | with_reducible apply State.withGroup_keeps
    | with_reducible apply State.finish_keeps | with_reducible refine State.bindTo_keeps _ _ _ _ _ ?_ _ (by assumption)
    | with_reducible apply State.boundRefused_keeps | with_reducible apply State.reduceDone_keeps | with_reducible apply hs
    | simp only [keeps_upd] | with_reducible apply foldl_keeps | with_reducible apply ite_keeps | split
    | with_reducible refine keeps_snd (by assumption) ?_ | with_reducible refine keeps_fst (by assumption) ?_

theorem execExchangeAllreduce_keeps {quiet : Bool} {a : State} (k : Fin 8) (h : ℕ) (s : State) (hs : Keeps quiet a s) :
    KeepsOut quiet a (execExchangeAllreduce k h s) := by
  unfold execExchangeAllreduce
  try dsimp only
  repeat' first
    | with_reducible intro _ | with_reducible assumption | with_reducible apply keeps_next | with_reducible apply State.runTask_keeps
    | with_reducible apply State.runReduce_keeps | with_reducible apply hs | simp only [keeps_upd] | with_reducible apply foldl_keeps
    | with_reducible apply ite_keepsOut | with_reducible apply ite_keeps | split | with_reducible refine keeps_snd (by assumption) ?_
    | with_reducible refine keeps_fst (by assumption) ?_

theorem execExchangeReduceScatter_keeps {quiet : Bool} {a : State} (k : Fin 8) (h : ℕ) (s : State) (hs : Keeps quiet a s) :
    KeepsOut quiet a (execExchangeReduceScatter k h s) := by
  unfold execExchangeReduceScatter
  try dsimp only
  repeat' first
    | with_reducible intro _ | with_reducible assumption | with_reducible apply keeps_next | with_reducible apply State.runTask_keeps
    | with_reducible apply State.runReduce_keeps | with_reducible apply hs | simp only [keeps_upd] | with_reducible apply foldl_keeps
    | with_reducible apply ite_keepsOut | with_reducible apply ite_keeps | split | with_reducible refine keeps_snd (by assumption) ?_
    | with_reducible refine keeps_fst (by assumption) ?_

theorem State.sendOff_keeps {quiet : Bool} {a : State} (s : State) (k : Fin 8) (t : Task) (r : ℕ × ℕ) (coords : List (List ℕ)) (f : State → State) (hs : Keeps quiet a s) (hf : ∀ x0, Keeps quiet a x0 → Keeps quiet a (f x0)) :
    Keeps quiet a (State.sendOff s k t r coords f) := by
  unfold State.sendOff
  try dsimp only
  repeat' first
    | with_reducible intro _ | with_reducible assumption | with_reducible apply State.sentTo_keeps | with_reducible apply State.finish_keeps
    | with_reducible apply State.reportAccess_keeps | with_reducible apply hs | with_reducible apply hf | simp only [keeps_upd]
    | with_reducible apply foldl_keeps | with_reducible apply ite_keeps | split | with_reducible refine keeps_snd (by assumption) ?_
    | with_reducible refine keeps_fst (by assumption) ?_

theorem State.leave_keeps {quiet : Bool} {a : State} (s : State) (k : Fin 8) (t : Task) (src : Tensor) (r : ℕ × ℕ) (coords : List (List ℕ)) (f : State → State) (hs : Keeps quiet a s) (hf : ∀ x0, Keeps quiet a x0 → Keeps quiet a (f x0)) :
    Keeps quiet a (State.leave s k t src r coords f) := by
  unfold State.leave
  try dsimp only
  repeat' first
    | with_reducible intro _ | with_reducible assumption | with_reducible apply State.sendOff_keeps
    | with_reducible apply State.finish_keeps | with_reducible apply State.boundRefused_keeps | with_reducible apply hs
    | with_reducible apply hf | simp only [keeps_upd] | with_reducible apply foldl_keeps | with_reducible apply ite_keeps | split
    | with_reducible refine keeps_snd (by assumption) ?_ | with_reducible refine keeps_fst (by assumption) ?_

theorem State.receive_keeps {quiet : Bool} {a : State} (s : State) (k : Fin 8) (t : Task) (r : ℕ × ℕ) (bytes : List Byte) (hs : Keeps quiet a s) :
    Keeps quiet a (State.receive s k t r bytes) := by
  unfold State.receive
  try dsimp only
  repeat' first
    | with_reducible intro _ | with_reducible assumption | with_reducible apply State.finish_keeps
    | with_reducible apply State.reportAccess_keeps | with_reducible apply State.write_keeps | with_reducible apply hs
    | simp only [keeps_upd] | with_reducible apply foldl_keeps | with_reducible apply ite_keeps | split
    | with_reducible refine keeps_snd (by assumption) ?_ | with_reducible refine keeps_fst (by assumption) ?_

theorem State.copyIn_keeps {quiet : Bool} {a : State} (u : State) (s : State) (k : Fin 8) (t : Task) (r : ℕ × ℕ) (w : ℕ × ℕ) (at_ : ℕ) (bytes : List Byte) (hu : Keeps quiet a u) (hs : Keeps quiet a s) :
    Keeps quiet a (State.copyIn u s k t r w at_ bytes) := by
  unfold State.copyIn
  try dsimp only
  repeat' first
    | with_reducible intro _ | with_reducible assumption | with_reducible apply State.reportAccess_keeps
    | with_reducible apply State.poisonLine_keeps | with_reducible apply State.write_keeps | with_reducible apply hu
    | with_reducible apply hs | simp only [keeps_upd] | with_reducible apply foldl_keeps | with_reducible apply ite_keeps | split
    | with_reducible refine keeps_snd (by assumption) ?_ | with_reducible refine keeps_fst (by assumption) ?_

theorem State.exchangeAllgather_keeps {quiet : Bool} {a : State} (s : State) (k : Fin 8) (t : Task) (members : List (List Byte)) (hs : Keeps quiet a s) :
    Keeps quiet a (State.exchangeAllgather s k t members) := by
  unfold State.exchangeAllgather
  try dsimp only
  repeat' first
    | with_reducible intro _ | with_reducible assumption | with_reducible apply State.withGroup_keeps
    | with_reducible apply State.finish_keeps | with_reducible refine State.bindTo_keeps _ _ _ _ _ ?_ _ (by assumption)
    | with_reducible apply State.boundRefused_keeps | with_reducible apply State.leave_keeps | with_reducible apply State.copyIn_keeps
    | with_reducible apply hs | simp only [keeps_upd] | with_reducible apply foldl_keeps | with_reducible apply ite_keeps | split
    | with_reducible refine keeps_snd (by assumption) ?_ | with_reducible refine keeps_fst (by assumption) ?_

theorem execExchangeAllgather_keeps {quiet : Bool} {a : State} (k : Fin 8) (h : ℕ) (members : List (List Byte)) (s : State) (hs : Keeps quiet a s) :
    KeepsOut quiet a (execExchangeAllgather k h members s) := by
  unfold execExchangeAllgather
  try dsimp only
  repeat' first
    | with_reducible intro _ | with_reducible assumption | with_reducible apply keeps_next | with_reducible apply State.runTask_keeps
    | with_reducible apply State.exchangeAllgather_keeps | with_reducible apply hs | simp only [keeps_upd]
    | with_reducible apply foldl_keeps | with_reducible apply ite_keepsOut | with_reducible apply ite_keeps | split
    | with_reducible refine keeps_snd (by assumption) ?_ | with_reducible refine keeps_fst (by assumption) ?_

theorem State.exchangeBroadcast_keeps {quiet : Bool} {a : State} (s : State) (k : Fin 8) (t : Task) (rootBytes : List Byte) (hs : Keeps quiet a s) :
    Keeps quiet a (State.exchangeBroadcast s k t rootBytes) := by
  unfold State.exchangeBroadcast
  try dsimp only
  repeat' first
    | with_reducible intro _ | with_reducible assumption | with_reducible apply State.withGroup_keeps
    | with_reducible apply State.finish_keeps | with_reducible apply State.receive_keeps
    | with_reducible refine State.bindTo_keeps _ _ _ _ _ ?_ _ (by assumption) | with_reducible apply State.boundRefused_keeps
    | with_reducible apply State.leave_keeps | with_reducible apply State.copyIn_keeps | with_reducible apply hs | simp only [keeps_upd]
    | with_reducible apply foldl_keeps | with_reducible apply ite_keeps | split | with_reducible refine keeps_snd (by assumption) ?_
    | with_reducible refine keeps_fst (by assumption) ?_

theorem execExchangeBroadcast_keeps {quiet : Bool} {a : State} (k : Fin 8) (h : ℕ) (rootBytes : List Byte) (s : State) (hs : Keeps quiet a s) :
    KeepsOut quiet a (execExchangeBroadcast k h rootBytes s) := by
  unfold execExchangeBroadcast
  try dsimp only
  repeat' first
    | with_reducible intro _ | with_reducible assumption | with_reducible apply keeps_next | with_reducible apply State.runTask_keeps
    | with_reducible apply State.exchangeBroadcast_keeps | with_reducible apply hs | simp only [keeps_upd]
    | with_reducible apply foldl_keeps | with_reducible apply ite_keepsOut | with_reducible apply ite_keeps | split
    | with_reducible refine keeps_snd (by assumption) ?_ | with_reducible refine keeps_fst (by assumption) ?_

theorem State.exchangeSend_keeps {quiet : Bool} {a : State} (s : State) (k : Fin 8) (t : Task) (hs : Keeps quiet a s) :
    Keeps quiet a (State.exchangeSend s k t) := by
  unfold State.exchangeSend
  try dsimp only
  repeat' first
    | with_reducible intro _ | with_reducible assumption | with_reducible apply State.withPeer_keeps
    | with_reducible apply State.finish_keeps | with_reducible apply State.leave_keeps | with_reducible apply hs | simp only [keeps_upd]
    | with_reducible apply foldl_keeps | with_reducible apply ite_keeps | split | with_reducible refine keeps_snd (by assumption) ?_
    | with_reducible refine keeps_fst (by assumption) ?_

theorem execExchangeSend_keeps {quiet : Bool} {a : State} (k : Fin 8) (h : ℕ) (s : State) (hs : Keeps quiet a s) :
    KeepsOut quiet a (execExchangeSend k h s) := by
  unfold execExchangeSend
  try dsimp only
  repeat' first
    | with_reducible intro _ | with_reducible assumption | with_reducible apply keeps_next | with_reducible apply State.runTask_keeps
    | with_reducible apply State.exchangeSend_keeps | with_reducible apply hs | simp only [keeps_upd] | with_reducible apply foldl_keeps
    | with_reducible apply ite_keepsOut | with_reducible apply ite_keeps | split | with_reducible refine keeps_snd (by assumption) ?_
    | with_reducible refine keeps_fst (by assumption) ?_

theorem State.exchangeRecv_keeps {quiet : Bool} {a : State} (s : State) (k : Fin 8) (t : Task) (bytes : List Byte) (hs : Keeps quiet a s) :
    Keeps quiet a (State.exchangeRecv s k t bytes) := by
  unfold State.exchangeRecv
  try dsimp only
  repeat' first
    | with_reducible intro _ | with_reducible assumption | with_reducible apply State.withPeer_keeps
    | with_reducible apply State.finish_keeps | with_reducible apply State.receive_keeps | with_reducible apply hs | simp only [keeps_upd]
    | with_reducible apply foldl_keeps | with_reducible apply ite_keeps | split | with_reducible refine keeps_snd (by assumption) ?_
    | with_reducible refine keeps_fst (by assumption) ?_

theorem execExchangeRecv_keeps {quiet : Bool} {a : State} (k : Fin 8) (h : ℕ) (bytes : List Byte) (s : State) (hs : Keeps quiet a s) :
    KeepsOut quiet a (execExchangeRecv k h bytes s) := by
  unfold execExchangeRecv
  try dsimp only
  repeat' first
    | with_reducible intro _ | with_reducible assumption | with_reducible apply keeps_next | with_reducible apply State.runTask_keeps
    | with_reducible apply State.exchangeRecv_keeps | with_reducible apply hs | simp only [keeps_upd] | with_reducible apply foldl_keeps
    | with_reducible apply ite_keepsOut | with_reducible apply ite_keeps | split | with_reducible refine keeps_snd (by assumption) ?_
    | with_reducible refine keeps_fst (by assumption) ?_

theorem State.exchangeGet_keeps {quiet : Bool} {a : State} (s : State) (k : Fin 8) (t : Task) (peerRefused : Bool) (hs : Keeps quiet a s) :
    Keeps quiet a (State.exchangeGet s k t peerRefused) := by
  unfold State.exchangeGet
  try dsimp only
  repeat' first
    | with_reducible intro _ | with_reducible assumption | with_reducible apply State.withPeer_keeps
    | with_reducible apply State.finish_keeps | with_reducible apply State.reportAccess_keeps | with_reducible apply hs
    | simp only [keeps_upd] | with_reducible apply foldl_keeps | with_reducible apply ite_keeps | split
    | with_reducible refine keeps_snd (by assumption) ?_ | with_reducible refine keeps_fst (by assumption) ?_

theorem execExchangeGet_keeps {quiet : Bool} {a : State} (k : Fin 8) (h : ℕ) (peerRefused : Bool) (s : State) (hs : Keeps quiet a s) :
    KeepsOut quiet a (execExchangeGet k h peerRefused s) := by
  unfold execExchangeGet
  try dsimp only
  repeat' first
    | with_reducible intro _ | with_reducible assumption | with_reducible apply keeps_next | with_reducible apply State.runTask_keeps
    | with_reducible apply State.exchangeGet_keeps | with_reducible apply hs | simp only [keeps_upd] | with_reducible apply foldl_keeps
    | with_reducible apply ite_keepsOut | with_reducible apply ite_keeps | split | with_reducible refine keeps_snd (by assumption) ?_
    | with_reducible refine keeps_fst (by assumption) ?_

theorem State.exchangePut_keeps {quiet : Bool} {a : State} (s : State) (k : Fin 8) (t : Task) (peerRefused : Bool) (hs : Keeps quiet a s) :
    Keeps quiet a (State.exchangePut s k t peerRefused) := by
  unfold State.exchangePut
  try dsimp only
  repeat' first
    | with_reducible intro _ | with_reducible assumption | with_reducible apply State.withPeer_keeps
    | with_reducible apply State.finish_keeps | with_reducible apply State.leave_keeps | with_reducible apply hs | simp only [keeps_upd]
    | with_reducible apply foldl_keeps | with_reducible apply ite_keeps | split | with_reducible refine keeps_snd (by assumption) ?_
    | with_reducible refine keeps_fst (by assumption) ?_

theorem execExchangePut_keeps {quiet : Bool} {a : State} (k : Fin 8) (h : ℕ) (peerRefused : Bool) (s : State) (hs : Keeps quiet a s) :
    KeepsOut quiet a (execExchangePut k h peerRefused s) := by
  unfold execExchangePut
  try dsimp only
  repeat' first
    | with_reducible intro _ | with_reducible assumption | with_reducible apply keeps_next | with_reducible apply State.runTask_keeps
    | with_reducible apply State.exchangePut_keeps | with_reducible apply hs | simp only [keeps_upd] | with_reducible apply foldl_keeps
    | with_reducible apply ite_keepsOut | with_reducible apply ite_keeps | split | with_reducible refine keeps_snd (by assumption) ?_
    | with_reducible refine keeps_fst (by assumption) ?_

theorem State.exchangeNorm_keeps {quiet : Bool} {a : State} (s : State) (k : Fin 8) (t : Task) (hs : Keeps quiet a s) :
    Keeps quiet a (State.exchangeNorm s k t) := by
  unfold State.exchangeNorm
  try dsimp only
  repeat' first
    | with_reducible intro _ | with_reducible assumption | with_reducible apply State.withGroup_keeps
    | with_reducible apply State.modDie_keeps | with_reducible apply State.finish_keeps | with_reducible apply State.modSuite_keeps
    | with_reducible apply hs | simp only [keeps_upd] | with_reducible apply foldl_keeps | with_reducible apply ite_keeps | split
    | with_reducible refine keeps_snd (by assumption) ?_ | with_reducible refine keeps_fst (by assumption) ?_

theorem execExchangeNorm_keeps {quiet : Bool} {a : State} (k : Fin 8) (h : ℕ) (s : State) (hs : Keeps quiet a s) :
    KeepsOut quiet a (execExchangeNorm k h s) := by
  unfold execExchangeNorm
  try dsimp only
  repeat' first
    | with_reducible intro _ | with_reducible assumption | with_reducible apply keeps_next | with_reducible apply State.runTask_keeps
    | with_reducible apply State.exchangeNorm_keeps | with_reducible apply hs | simp only [keeps_upd] | with_reducible apply foldl_keeps
    | with_reducible apply ite_keepsOut | with_reducible apply ite_keeps | split | with_reducible refine keeps_snd (by assumption) ?_
    | with_reducible refine keeps_fst (by assumption) ?_

theorem State.exchangeDefine_keeps {quiet : Bool} {a : State} (s : State) (k : Fin 8) (t : Task) (hs : Keeps quiet a s) :
    Keeps quiet a (State.exchangeDefine s k t) := by
  unfold State.exchangeDefine
  try dsimp only
  repeat' first
    | with_reducible intro _ | with_reducible assumption | with_reducible apply State.finish_keeps
    | with_reducible apply State.modSuite_keeps | with_reducible apply hs | simp only [keeps_upd] | with_reducible apply foldl_keeps
    | with_reducible apply ite_keeps | split | with_reducible refine keeps_snd (by assumption) ?_
    | with_reducible refine keeps_fst (by assumption) ?_

theorem execExchangeDefine_keeps {quiet : Bool} {a : State} (k : Fin 8) (h : ℕ) (s : State) (hs : Keeps quiet a s) :
    KeepsOut quiet a (execExchangeDefine k h s) := by
  unfold execExchangeDefine
  try dsimp only
  repeat' first
    | with_reducible intro _ | with_reducible assumption | with_reducible apply keeps_next | with_reducible apply State.runTask_keeps
    | with_reducible apply State.exchangeDefine_keeps | with_reducible apply hs | simp only [keeps_upd] | with_reducible apply foldl_keeps
    | with_reducible apply ite_keepsOut | with_reducible apply ite_keeps | split | with_reducible refine keeps_snd (by assumption) ?_
    | with_reducible refine keeps_fst (by assumption) ?_

theorem State.exchangeTimeout_keeps {quiet : Bool} {a : State} (s : State) (k : Fin 8) (t : Task) (hs : Keeps quiet a s) :
    Keeps quiet a (State.exchangeTimeout s k t) := by
  unfold State.exchangeTimeout
  try dsimp only
  repeat' first
    | with_reducible intro _ | with_reducible assumption | with_reducible apply State.finish_keeps
    | with_reducible apply State.confine_keeps | with_reducible apply State.endApply_keeps | with_reducible apply hs | simp only [keeps_upd]
    | with_reducible apply foldl_keeps | with_reducible apply ite_keeps | split | with_reducible refine keeps_snd (by assumption) ?_
    | with_reducible refine keeps_fst (by assumption) ?_

/-! ### Mask -/

theorem State.maskWrite_keeps {quiet : Bool} {a : State} (s : State) (unit : ℕ) (ws : List (ℕ × List Byte)) (hs : Keeps quiet a s) :
    Keeps quiet a (State.maskWrite s unit ws) := by
  unfold State.maskWrite
  try dsimp only
  repeat' first
    | with_reducible intro _ | with_reducible assumption | with_reducible apply State.write_keeps | with_reducible apply hs
    | simp only [keeps_upd] | with_reducible apply foldl_keeps | with_reducible apply ite_keeps | split
    | with_reducible refine keeps_snd (by assumption) ?_ | with_reducible refine keeps_fst (by assumption) ?_

theorem State.runMask_keeps {quiet : Bool} {a : State} (s : State) (k : Fin 8) (t : Task) (f : State → MaskCtx → State) (hs : Keeps quiet a s) (hf : ∀ x0 x1, Keeps quiet a x0 → Keeps quiet a (f x0 x1)) :
    Keeps quiet a (State.runMask s k t f) := by
  unfold State.runMask
  try dsimp only
  repeat' first
    | with_reducible intro _ | with_reducible assumption | with_reducible apply State.withRecord_keeps
    | with_reducible apply State.updRefuse_keeps | with_reducible apply State.finish_keeps | with_reducible apply hs
    | with_reducible apply hf | simp only [keeps_upd] | with_reducible apply foldl_keeps | with_reducible apply ite_keeps | split
    | with_reducible refine keeps_snd (by assumption) ?_ | with_reducible refine keeps_fst (by assumption) ?_

theorem State.sampleRun_keeps {quiet : Bool} {a : State} (s : State) (k : Fin 8) (t : Task) (c : MaskCtx) (dz : Tensor) (x : Tensor) (out : Tensor) (hs : Keeps quiet a s) :
    Keeps quiet a (State.sampleRun s k t c dz x out) := by
  unfold State.sampleRun
  try dsimp only
  repeat' first
    | with_reducible intro _ | with_reducible assumption | with_reducible apply State.putRaw_keeps | with_reducible apply State.settle_keeps
    | with_reducible apply State.write_keeps | with_reducible apply State.poisonRange_keeps | with_reducible apply State.poisonCols_keeps
    | with_reducible apply State.closeSat_keeps | with_reducible apply State.chargeUnits_keeps | with_reducible apply State.reportEnts_keeps
    | with_reducible apply State.finish_keeps | with_reducible apply State.reportAccess_keeps | with_reducible apply hs
    | simp only [keeps_upd] | with_reducible apply foldl_keeps | with_reducible apply ite_keeps | split
    | with_reducible refine keeps_snd (by assumption) ?_ | with_reducible refine keeps_fst (by assumption) ?_

theorem State.maskSample_keeps {quiet : Bool} {a : State} (s : State) (k : Fin 8) (t : Task) (hs : Keeps quiet a s) :
    Keeps quiet a (State.maskSample s k t) := by
  unfold State.maskSample
  try dsimp only
  repeat' first
    | with_reducible intro _ | with_reducible assumption | with_reducible apply State.runMask_keeps
    | with_reducible apply State.sampleRun_keeps | with_reducible apply State.finish_keeps | with_reducible apply hs | simp only [keeps_upd]
    | with_reducible apply foldl_keeps | with_reducible apply ite_keeps | split | with_reducible refine keeps_snd (by assumption) ?_
    | with_reducible refine keeps_fst (by assumption) ?_

theorem execMaskSample_keeps {quiet : Bool} {a : State} (k : Fin 8) (h : ℕ) (s : State) (hs : Keeps quiet a s) :
    KeepsOut quiet a (execMaskSample k h s) := by
  unfold execMaskSample
  try dsimp only
  repeat' first
    | with_reducible intro _ | with_reducible assumption | with_reducible apply keeps_next | with_reducible apply State.runTask_keeps
    | with_reducible apply State.maskSample_keeps | with_reducible apply hs | simp only [keeps_upd] | with_reducible apply foldl_keeps
    | with_reducible apply ite_keepsOut | with_reducible apply ite_keeps | split | with_reducible refine keeps_snd (by assumption) ?_
    | with_reducible refine keeps_fst (by assumption) ?_

theorem State.rankRun_keeps {quiet : Bool} {a : State} (s : State) (k : Fin 8) (t : Task) (c : MaskCtx) (gt : Tensor) (hs : Keeps quiet a s) :
    Keeps quiet a (State.rankRun s k t c gt) := by
  unfold State.rankRun
  try dsimp only
  repeat' first
    | with_reducible intro _ | with_reducible assumption | with_reducible apply State.write_keeps
    | with_reducible apply State.poisonRange_keeps | with_reducible apply State.maskWrite_keeps | with_reducible apply State.worsen_keeps
    | with_reducible apply State.finish_keeps | with_reducible apply State.reportAccess_keeps | with_reducible apply hs
    | simp only [keeps_upd] | with_reducible apply foldl_keeps | with_reducible apply ite_keeps | split
    | with_reducible refine keeps_snd (by assumption) ?_ | with_reducible refine keeps_fst (by assumption) ?_

theorem State.maskRank_keeps {quiet : Bool} {a : State} (s : State) (k : Fin 8) (t : Task) (hs : Keeps quiet a s) :
    Keeps quiet a (State.maskRank s k t) := by
  unfold State.maskRank
  try dsimp only
  repeat' first
    | with_reducible intro _ | with_reducible assumption | with_reducible apply State.runMask_keeps
    | with_reducible apply State.finish_keeps | with_reducible apply State.rankRun_keeps | with_reducible apply hs | simp only [keeps_upd]
    | with_reducible apply foldl_keeps | with_reducible apply ite_keeps | split | with_reducible refine keeps_snd (by assumption) ?_
    | with_reducible refine keeps_fst (by assumption) ?_

theorem execMaskRank_keeps {quiet : Bool} {a : State} (k : Fin 8) (h : ℕ) (s : State) (hs : Keeps quiet a s) :
    KeepsOut quiet a (execMaskRank k h s) := by
  unfold execMaskRank
  try dsimp only
  repeat' first
    | with_reducible intro _ | with_reducible assumption | with_reducible apply keeps_next | with_reducible apply State.runTask_keeps
    | with_reducible apply State.maskRank_keeps | with_reducible apply hs | simp only [keeps_upd] | with_reducible apply foldl_keeps
    | with_reducible apply ite_keepsOut | with_reducible apply ite_keeps | split | with_reducible refine keeps_snd (by assumption) ?_
    | with_reducible refine keeps_fst (by assumption) ?_

theorem State.withheld_keeps {quiet : Bool} {a : State} (s : State) (k : Fin 8) (c : MaskCtx) (tensor : ℕ) (reason : ℕ) (n : ℕ) (hs : Keeps quiet a s) :
    Keeps quiet a (State.withheld s k c tensor reason n) := by
  unfold State.withheld
  try dsimp only
  repeat' first
    | with_reducible intro _ | with_reducible assumption | with_reducible apply State.modDie_keeps
    | with_reducible apply State.suiteEvent_keeps | with_reducible apply hs | simp only [keeps_upd] | with_reducible apply foldl_keeps
    | with_reducible apply ite_keeps | split | with_reducible refine keeps_snd (by assumption) ?_
    | with_reducible refine keeps_fst (by assumption) ?_

theorem State.commitMask_keeps {quiet : Bool} {a : State} (s : State) (k : Fin 8) (b : BuiltRec) (hs : Keeps quiet a s) :
    Keeps quiet a (State.commitMask s k b) := by
  unfold State.commitMask
  try dsimp only
  repeat' first
    | with_reducible intro _ | with_reducible assumption | with_reducible apply State.write_keeps
    | with_reducible apply State.maskWrite_keeps | with_reducible apply State.modDie_keeps | with_reducible apply State.modSuite_keeps
    | with_reducible apply State.suiteEvent_keeps | with_reducible apply hs | simp only [keeps_upd] | with_reducible apply foldl_keeps
    | with_reducible apply ite_keeps | split | with_reducible refine keeps_snd (by assumption) ?_
    | with_reducible refine keeps_fst (by assumption) ?_

theorem State.buildEpoch_keeps {quiet : Bool} {a : State} (s : State) (k : Fin 8) (t : Task) (c : MaskCtx) (hs : Keeps quiet a s) :
    Keeps quiet a (State.buildEpoch s k t c) := by
  unfold State.buildEpoch
  try dsimp only
  repeat' first
    | with_reducible intro _ | with_reducible assumption | with_reducible apply State.putMaster_keeps
    | with_reducible apply State.zeroPieces_keeps | with_reducible apply State.putCodes_keeps | with_reducible apply State.write_keeps
    | with_reducible apply State.finishCopy_keeps | with_reducible apply State.renderBlock_keeps | with_reducible apply State.rawWrite_keeps
    | with_reducible apply State.writeRegion_keeps | with_reducible apply State.maskWrite_keeps | with_reducible apply State.withheld_keeps
    | with_reducible apply State.finish_keeps | with_reducible apply State.relayCount_keeps | with_reducible apply State.countPuts_keeps
    | with_reducible apply State.poisonRegion_keeps | with_reducible apply State.poisonGroups_keeps
    | with_reducible apply State.modSuite_keeps | with_reducible apply State.commitMask_keeps
    | with_reducible apply State.reportAccess_keeps | with_reducible apply hs | simp only [keeps_upd] | with_reducible apply foldl_keeps
    | with_reducible apply ite_keeps | split | with_reducible refine keeps_snd (by assumption) ?_
    | with_reducible refine keeps_fst (by assumption) ?_

theorem State.noteBuild_keeps {quiet : Bool} {a : State} (s : State) (k : Fin 8) (h : ℕ) (unit : ℕ) (step : ℕ) (hs : Keeps quiet a s) :
    Keeps quiet a (State.noteBuild s k h unit step) := by
  unfold State.noteBuild
  try dsimp only
  repeat' first
    | with_reducible intro _ | with_reducible assumption | with_reducible apply State.modTask_keeps
    | with_reducible apply State.modSuite_keeps | with_reducible apply hs | simp only [keeps_upd] | with_reducible apply foldl_keeps
    | with_reducible apply ite_keeps | split | with_reducible refine keeps_snd (by assumption) ?_
    | with_reducible refine keeps_fst (by assumption) ?_

theorem State.maskBuild_keeps {quiet : Bool} {a : State} (s : State) (k : Fin 8) (t : Task) (hs : Keeps quiet a s) :
    Keeps quiet a (State.maskBuild s k t) := by
  unfold State.maskBuild
  try dsimp only
  repeat' first
    | with_reducible intro _ | with_reducible assumption | with_reducible apply State.runMask_keeps
    | with_reducible apply State.finish_keeps | with_reducible apply State.withheld_keeps
    | with_reducible refine State.bindTo_keeps _ _ _ _ _ ?_ _ (by assumption) | with_reducible apply State.boundRefused_keeps
    | with_reducible apply State.buildEpoch_keeps | with_reducible apply State.noteBuild_keeps | with_reducible apply hs
    | simp only [keeps_upd] | with_reducible apply foldl_keeps | with_reducible apply ite_keeps | split
    | with_reducible refine keeps_snd (by assumption) ?_ | with_reducible refine keeps_fst (by assumption) ?_

theorem execMaskBuild_keeps {quiet : Bool} {a : State} (k : Fin 8) (h : ℕ) (s : State) (hs : Keeps quiet a s) :
    KeepsOut quiet a (execMaskBuild k h s) := by
  unfold execMaskBuild
  try dsimp only
  repeat' first
    | with_reducible intro _ | with_reducible assumption | with_reducible apply keeps_next | with_reducible apply State.runTask_keeps
    | with_reducible apply State.maskBuild_keeps | with_reducible apply hs | simp only [keeps_upd] | with_reducible apply foldl_keeps
    | with_reducible apply ite_keepsOut | with_reducible apply ite_keeps | split | with_reducible refine keeps_snd (by assumption) ?_
    | with_reducible refine keeps_fst (by assumption) ?_

theorem State.abortBuild_keeps {quiet : Bool} {a : State} (s : State) (k : Fin 8) (t : Task) (hs : Keeps quiet a s) :
    Keeps quiet a (State.abortBuild s k t) := by
  unfold State.abortBuild
  try dsimp only
  repeat' first
    | with_reducible intro _ | with_reducible assumption | with_reducible apply State.withheld_keeps
    | with_reducible apply State.maskWrite_keeps | with_reducible apply State.freeRegion_keeps | with_reducible apply hs
    | simp only [keeps_upd] | with_reducible apply foldl_keeps | with_reducible apply ite_keeps | split
    | with_reducible refine keeps_snd (by assumption) ?_ | with_reducible refine keeps_fst (by assumption) ?_

/-! ### Tasks -/

theorem execTaskFetch_keeps {quiet : Bool} {a : State} (k : Fin 8) (src : FetchSource) (s : State) (hs : Keeps quiet a s) :
    KeepsOut quiet a (execTaskFetch k src s) := by
  unfold execTaskFetch
  try dsimp only
  repeat' first
    | with_reducible intro _ | with_reducible assumption | with_reducible apply keeps_next | with_reducible apply State.modSuite_keeps
    | with_reducible apply State.memError_keeps | with_reducible apply hs | simp only [keeps_upd] | with_reducible apply foldl_keeps
    | with_reducible apply ite_keepsOut | with_reducible apply ite_keeps | split | with_reducible refine keeps_snd (by assumption) ?_
    | with_reducible refine keeps_fst (by assumption) ?_

theorem State.queueUnit_keeps {quiet : Bool} {a : State} (s : State) (d : Fin 8) (q : Fin 104) (id : ℕ) (t : TaskDesc) (x : Tile) (hs : Keeps quiet a s) :
    Keeps quiet a (State.queueUnit s d q id t x) := by
  unfold State.queueUnit
  try dsimp only
  repeat' first
    | with_reducible intro _ | with_reducible assumption | with_reducible apply State.modPanel_keeps | with_reducible apply hs
    | simp only [keeps_upd] | with_reducible apply foldl_keeps | with_reducible apply ite_keeps | split
    | with_reducible refine keeps_snd (by assumption) ?_ | with_reducible refine keeps_fst (by assumption) ?_

theorem State.placeTiles_keeps {quiet : Bool} {a : State} (s : State) (k : Fin 8) (t : Task) (on : List (Fin 8)) (hs : Keeps quiet a s) :
    Keeps quiet a (State.placeTiles s k t on) := by
  unfold State.placeTiles
  try dsimp only
  repeat' first
    | with_reducible intro _ | with_reducible assumption | with_reducible apply State.view_keeps
    | with_reducible apply State.queueUnit_keeps | with_reducible apply State.modTask_keeps | with_reducible apply hs
    | simp only [keeps_upd] | with_reducible apply foldl_keeps | with_reducible apply ite_keeps | split
    | with_reducible refine keeps_snd (by assumption) ?_ | with_reducible refine keeps_fst (by assumption) ?_

theorem State.pairUp_keeps {quiet : Bool} {a : State} (s : State) (k : Fin 8) (t : Task) (hs : Keeps quiet a s) :
    Keeps quiet a (State.pairUp s k t) := by
  unfold State.pairUp
  try dsimp only
  repeat' first
    | with_reducible intro _ | with_reducible assumption | with_reducible apply State.modTask_keeps | with_reducible apply hs
    | simp only [keeps_upd] | with_reducible apply foldl_keeps | with_reducible apply ite_keeps | split
    | with_reducible refine keeps_snd (by assumption) ?_ | with_reducible refine keeps_fst (by assumption) ?_

theorem State.startTask_keeps {quiet : Bool} {a : State} (s : State) (k : Fin 8) (t : Task) (hs : Keeps quiet a s) :
    Keeps quiet a (State.startTask s k t) := by
  unfold State.startTask
  try dsimp only
  repeat' first
    | with_reducible intro _ | with_reducible assumption | with_reducible apply State.modTask_keeps
    | with_reducible apply State.worsen_keeps | with_reducible apply State.finish_keeps | with_reducible apply State.pairUp_keeps
    | with_reducible apply State.placeTiles_keeps | with_reducible apply hs | simp only [keeps_upd] | with_reducible apply foldl_keeps
    | with_reducible apply ite_keeps | split | with_reducible refine keeps_snd (by assumption) ?_
    | with_reducible refine keeps_fst (by assumption) ?_

theorem State.refuseTask_keeps {quiet : Bool} {a : State} (s : State) (k : Fin 8) (h : ℕ) (st : Status) (hs : Keeps quiet a s) :
    Keeps quiet a (State.refuseTask s k h st) := by
  unfold State.refuseTask
  try dsimp only
  repeat' first
    | with_reducible intro _ | with_reducible assumption | with_reducible apply State.modTask_keeps | with_reducible apply hs
    | simp only [keeps_upd] | with_reducible apply foldl_keeps | with_reducible apply ite_keeps | split
    | with_reducible refine keeps_snd (by assumption) ?_ | with_reducible refine keeps_fst (by assumption) ?_

theorem State.launch_keeps {quiet : Bool} {a : State} (s : State) (k : Fin 8) (t : Task) (hs : Keeps quiet a s) :
    Keeps quiet a (State.launch s k t) := by
  unfold State.launch
  try dsimp only
  repeat' first
    | with_reducible intro _ | with_reducible assumption | with_reducible apply State.refuseTask_keeps
    | with_reducible apply State.startTask_keeps | with_reducible apply hs | simp only [keeps_upd] | with_reducible apply foldl_keeps
    | with_reducible apply ite_keeps | split | with_reducible refine keeps_snd (by assumption) ?_
    | with_reducible refine keeps_fst (by assumption) ?_

theorem execTaskDispatch_keeps {quiet : Bool} {a : State} (k : Fin 8) (h : ℕ) (s : State) (hs : Keeps quiet a s) :
    KeepsOut quiet a (execTaskDispatch k h s) := by
  unfold execTaskDispatch
  try dsimp only
  repeat' first
    | with_reducible intro _ | with_reducible assumption | with_reducible apply keeps_next | with_reducible apply State.modSuite_keeps
    | with_reducible apply State.launch_keeps | with_reducible apply hs | simp only [keeps_upd] | with_reducible apply foldl_keeps
    | with_reducible apply ite_keepsOut | with_reducible apply ite_keeps | split | with_reducible refine keeps_snd (by assumption) ?_
    | with_reducible refine keeps_fst (by assumption) ?_

theorem execSyncWaitSatisfied_keeps {quiet : Bool} {a : State} (k : Fin 8) (h : ℕ) (s : State) (hs : Keeps quiet a s) :
    KeepsOut quiet a (execSyncWaitSatisfied k h s) := by
  unfold execSyncWaitSatisfied
  try dsimp only
  repeat' first
    | with_reducible intro _ | with_reducible assumption | with_reducible apply keeps_next | with_reducible apply State.refuseTask_keeps
    | with_reducible apply State.launch_keeps | with_reducible apply hs | simp only [keeps_upd] | with_reducible apply foldl_keeps
    | with_reducible apply ite_keepsOut | with_reducible apply ite_keeps | split | with_reducible refine keeps_snd (by assumption) ?_
    | with_reducible refine keeps_fst (by assumption) ?_

theorem State.poisonOutputs_keeps {quiet : Bool} {a : State} (s : State) (k : Fin 8) (t : Task) (hs : Keeps quiet a s) :
    Keeps quiet a (State.poisonOutputs s k t) := by
  unfold State.poisonOutputs
  try dsimp only
  repeat' first
    | with_reducible intro _ | with_reducible assumption | with_reducible apply State.confine_keeps
    | with_reducible apply State.poisonRange_keeps | with_reducible apply hs | simp only [keeps_upd] | with_reducible apply foldl_keeps
    | with_reducible apply ite_keeps | split | with_reducible refine keeps_snd (by assumption) ?_
    | with_reducible refine keeps_fst (by assumption) ?_

theorem State.slotTouch_keeps {quiet : Bool} {a : State} (s : State) (k : Fin 8) (t : Task) (hs : Keeps quiet a s) :
    Keeps quiet a (State.slotTouch s k t) := by
  unfold State.slotTouch
  try dsimp only
  repeat' first
    | with_reducible intro _ | with_reducible assumption | with_reducible apply State.scaleSlotWrite_keeps
    | with_reducible apply State.skimSlotWrite_keeps | with_reducible apply hs | simp only [keeps_upd] | with_reducible apply foldl_keeps
    | with_reducible apply ite_keeps | split | with_reducible refine keeps_snd (by assumption) ?_
    | with_reducible refine keeps_fst (by assumption) ?_

theorem State.writeRecord_keeps {quiet : Bool} {a : State} (s : State) (k : Fin 8) (t : Task) (hs : Keeps quiet a s) :
    Keeps quiet a (State.writeRecord s k t) := by
  unfold State.writeRecord
  try dsimp only
  repeat' first
    | with_reducible intro _ | with_reducible assumption | with_reducible apply State.hostWrite_keeps
    | with_reducible apply State.raise_keeps | with_reducible apply State.modSuite_keeps | with_reducible apply hs | simp only [keeps_upd]
    | with_reducible apply foldl_keeps | with_reducible apply ite_keeps | split | with_reducible refine keeps_snd (by assumption) ?_
    | with_reducible refine keeps_fst (by assumption) ?_

theorem State.dropTiles_keeps {quiet : Bool} {a : State} (s : State) (k : Fin 8) (h : ℕ) (hs : Keeps quiet a s) :
    Keeps quiet a (State.dropTiles s k h) := by
  unfold State.dropTiles
  try dsimp only
  repeat' first
    | with_reducible intro _ | with_reducible assumption | with_reducible apply hs | simp only [keeps_upd]
    | with_reducible apply foldl_keeps | with_reducible apply ite_keeps | split | with_reducible refine keeps_snd (by assumption) ?_
    | with_reducible refine keeps_fst (by assumption) ?_

theorem State.countPairs_keeps {quiet : Bool} {a : State} (s : State) (t : Task) (hs : Keeps quiet a s) :
    Keeps quiet a (State.countPairs s t) := by
  unfold State.countPairs
  try dsimp only
  repeat' first
    | with_reducible intro _ | with_reducible assumption | with_reducible apply State.modDie_keeps | with_reducible apply hs
    | simp only [keeps_upd] | with_reducible apply foldl_keeps | with_reducible apply ite_keeps | split
    | with_reducible refine keeps_snd (by assumption) ?_ | with_reducible refine keeps_fst (by assumption) ?_

theorem State.completeTask_keeps {quiet : Bool} {a : State} (s : State) (k : Fin 8) (h : ℕ) (hs : Keeps quiet a s) :
    Keeps quiet a (State.completeTask s k h) := by
  unfold State.completeTask
  try dsimp only
  repeat' first
    | with_reducible intro _ | with_reducible assumption | with_reducible apply State.countPairs_keeps
    | with_reducible apply State.closeSat_keeps | with_reducible apply State.poisonOutputs_keeps | with_reducible apply State.signal_keeps
    | with_reducible apply State.slotTouch_keeps | with_reducible apply State.modSuite_keeps | with_reducible apply State.dropTiles_keeps
    | with_reducible apply State.writeRecord_keeps | with_reducible apply hs | simp only [keeps_upd] | with_reducible apply foldl_keeps
    | with_reducible apply ite_keeps | split | with_reducible refine keeps_snd (by assumption) ?_
    | with_reducible refine keeps_fst (by assumption) ?_

theorem execTaskComplete_keeps {quiet : Bool} {a : State} (k : Fin 8) (h : ℕ) (s : State) (hs : Keeps quiet a s) :
    KeepsOut quiet a (execTaskComplete k h s) := by
  unfold execTaskComplete
  try dsimp only
  repeat' first
    | with_reducible intro _ | with_reducible assumption | with_reducible apply keeps_next | with_reducible apply State.completeTask_keeps
    | with_reducible apply hs | simp only [keeps_upd] | with_reducible apply foldl_keeps | with_reducible apply ite_keepsOut
    | with_reducible apply ite_keeps | split | with_reducible refine keeps_snd (by assumption) ?_
    | with_reducible refine keeps_fst (by assumption) ?_

theorem State.timeOut_keeps {quiet : Bool} {a : State} (s : State) (k : Fin 8) (t : Task) (hs : Keeps quiet a s) :
    Keeps quiet a (State.timeOut s k t) := by
  unfold State.timeOut
  try dsimp only
  repeat' first
    | with_reducible intro _ | with_reducible assumption | with_reducible apply State.confine_keeps
    | with_reducible apply State.endApply_keeps | with_reducible apply State.finish_keeps | with_reducible apply hs | simp only [keeps_upd]
    | with_reducible apply foldl_keeps | with_reducible apply ite_keeps | split | with_reducible refine keeps_snd (by assumption) ?_
    | with_reducible refine keeps_fst (by assumption) ?_

theorem execWatchdog_keeps {quiet : Bool} {a : State} (k : Fin 8) (h : ℕ) (s : State) (hs : Keeps quiet a s) :
    KeepsOut quiet a (execWatchdog k h s) := by
  unfold execWatchdog
  try dsimp only
  repeat' first
    | with_reducible intro _ | with_reducible assumption | with_reducible apply keeps_next | with_reducible apply State.suiteEvent_keeps
    | with_reducible apply State.modTask_keeps | with_reducible apply State.timeOut_keeps | with_reducible apply hs | simp only [keeps_upd]
    | with_reducible apply foldl_keeps | with_reducible apply ite_keepsOut | with_reducible apply ite_keeps | split
    | with_reducible refine keeps_snd (by assumption) ?_ | with_reducible refine keeps_fst (by assumption) ?_

theorem execTaskTimeout_keeps {quiet : Bool} {a : State} (k : Fin 8) (h : ℕ) (s : State) (hs : Keeps quiet a s) :
    KeepsOut quiet a (execTaskTimeout k h s) := by
  unfold execTaskTimeout
  try dsimp only
  repeat' first
    | with_reducible intro _ | with_reducible assumption | with_reducible apply keeps_next
    | with_reducible apply State.exchangeTimeout_keeps | with_reducible apply State.timeOut_keeps | with_reducible apply hs
    | simp only [keeps_upd] | with_reducible apply foldl_keeps | with_reducible apply ite_keepsOut | with_reducible apply ite_keeps | split
    | with_reducible refine keeps_snd (by assumption) ?_ | with_reducible refine keeps_fst (by assumption) ?_

theorem State.barrierDone_keeps {quiet : Bool} {a : State} (s : State) (k : Fin 8) (id : ℕ) (hs : Keeps quiet a s) :
    Keeps quiet a (State.barrierDone s k id) := by
  unfold State.barrierDone
  try dsimp only
  repeat' first
    | with_reducible intro _ | with_reducible assumption | with_reducible apply State.finish_keeps | with_reducible apply hs
    | simp only [keeps_upd] | with_reducible apply foldl_keeps | with_reducible apply ite_keeps | split
    | with_reducible refine keeps_snd (by assumption) ?_ | with_reducible refine keeps_fst (by assumption) ?_

theorem execBarrier_keeps {quiet : Bool} {a : State} (k : Fin 8) (h : ℕ) (d : Fin 8) (s : State) (hs : Keeps quiet a s) :
    KeepsOut quiet a (execBarrier k h d s) := by
  unfold execBarrier
  try dsimp only
  repeat' first
    | with_reducible intro _ | with_reducible assumption | with_reducible apply keeps_next | with_reducible apply State.onRunning_keeps
    | with_reducible apply State.modSuite_keeps | with_reducible apply State.modTask_keeps | with_reducible apply State.worsen_keeps
    | with_reducible apply State.barrierDone_keeps | with_reducible apply hs | simp only [keeps_upd] | with_reducible apply foldl_keeps
    | with_reducible apply ite_keepsOut | with_reducible apply ite_keeps | split | with_reducible refine keeps_snd (by assumption) ?_
    | with_reducible refine keeps_fst (by assumption) ?_

theorem State.forceDefer_keeps {quiet : Bool} {a : State} (s : State) (k : Fin 8) (step : Word) (hs : Keeps quiet a s) :
    Keeps quiet a (State.forceDefer s k step) := by
  unfold State.forceDefer
  try dsimp only
  repeat' first
    | with_reducible intro _ | with_reducible assumption | with_reducible apply State.suiteEvent_keeps
    | with_reducible apply State.modSuite_keeps | with_reducible apply State.modDie_keeps | with_reducible apply hs | simp only [keeps_upd]
    | with_reducible apply foldl_keeps | with_reducible apply ite_keeps | split | with_reducible refine keeps_snd (by assumption) ?_
    | with_reducible refine keeps_fst (by assumption) ?_

theorem execMarkRun_keeps {quiet : Bool} {a : State} (k : Fin 8) (h : ℕ) (s : State) (hs : Keeps quiet a s) :
    KeepsOut quiet a (execMarkRun k h s) := by
  unfold execMarkRun
  try dsimp only
  repeat' first
    | with_reducible intro _ | with_reducible assumption | with_reducible apply keeps_next | with_reducible apply State.onRunning_keeps
    | with_reducible apply State.finish_keeps | with_reducible apply State.modSuite_keeps | with_reducible apply State.forceDefer_keeps
    | with_reducible apply hs | simp only [keeps_upd] | with_reducible apply foldl_keeps | with_reducible apply ite_keepsOut
    | with_reducible apply ite_keeps | split | with_reducible refine keeps_snd (by assumption) ?_
    | with_reducible refine keeps_fst (by assumption) ?_

theorem execMarkStepEnd_keeps {quiet : Bool} {a : State} (k : Fin 8) (h : ℕ) (d : Fin 8) (s : State) (hs : Keeps quiet a s) :
    KeepsOut quiet a (execMarkStepEnd k h d s) := by
  unfold execMarkStepEnd
  try dsimp only
  repeat' first
    | with_reducible intro _ | with_reducible assumption | with_reducible apply keeps_next | with_reducible apply State.onRunning_keeps
    | with_reducible apply State.modTask_keeps | with_reducible apply State.finish_keeps | with_reducible apply hs | simp only [keeps_upd]
    | with_reducible apply foldl_keeps | with_reducible apply ite_keepsOut | with_reducible apply ite_keeps | split
    | with_reducible refine keeps_snd (by assumption) ?_ | with_reducible refine keeps_fst (by assumption) ?_

theorem execMarkCheckpoint_keeps {quiet : Bool} {a : State} (k : Fin 8) (h : ℕ) (s : State) (hs : Keeps quiet a s) :
    KeepsOut quiet a (execMarkCheckpoint k h s) := by
  unfold execMarkCheckpoint
  try dsimp only
  repeat' first
    | with_reducible intro _ | with_reducible assumption | with_reducible apply keeps_next | with_reducible apply State.onRunning_keeps
    | with_reducible apply State.modSuite_keeps | with_reducible apply State.finish_keeps | with_reducible apply State.suiteEvent_keeps
    | with_reducible apply hs | simp only [keeps_upd] | with_reducible apply foldl_keeps | with_reducible apply ite_keepsOut
    | with_reducible apply ite_keeps | split | with_reducible refine keeps_snd (by assumption) ?_
    | with_reducible refine keeps_fst (by assumption) ?_

theorem State.markLoad_keeps {quiet : Bool} {a : State} (s : State) (k : Fin 8) (t : Task) (bytes : List Byte) (hs : Keeps quiet a s) :
    Keeps quiet a (State.markLoad s k t bytes) := by
  unfold State.markLoad
  try dsimp only
  repeat' first
    | with_reducible intro _ | with_reducible assumption | with_reducible apply State.finish_keeps
    | with_reducible apply State.taskMemError_keeps | with_reducible apply State.modSuite_keeps | with_reducible apply State.rawWrite_keeps
    | with_reducible apply hs | simp only [keeps_upd] | with_reducible apply foldl_keeps | with_reducible apply ite_keeps | split
    | with_reducible refine keeps_snd (by assumption) ?_ | with_reducible refine keeps_fst (by assumption) ?_

theorem execMarkLoad_keeps {quiet : Bool} {a : State} (k : Fin 8) (h : ℕ) (bytes : List Byte) (s : State) (hs : Keeps quiet a s) :
    KeepsOut quiet a (execMarkLoad k h bytes s) := by
  unfold execMarkLoad
  try dsimp only
  repeat' first
    | with_reducible intro _ | with_reducible assumption | with_reducible apply keeps_next | with_reducible apply State.runTask_keeps
    | with_reducible apply State.markLoad_keeps | with_reducible apply hs | simp only [keeps_upd] | with_reducible apply foldl_keeps
    | with_reducible apply ite_keepsOut | with_reducible apply ite_keeps | split | with_reducible refine keeps_snd (by assumption) ?_
    | with_reducible refine keeps_fst (by assumption) ?_

/-! ### Boundary -/

theorem State.scramble_keeps {quiet : Bool} {a : State} (s : State) (k : Fin 8) (t : Tensor) (hs : Keeps quiet a s) :
    Keeps quiet a (State.scramble s k t) := by
  unfold State.scramble
  try dsimp only
  repeat' first
    | with_reducible intro _ | with_reducible assumption | with_reducible apply State.freeRegion_keeps | with_reducible apply hs
    | simp only [keeps_upd] | with_reducible apply foldl_keeps | with_reducible apply ite_keeps | split
    | with_reducible refine keeps_snd (by assumption) ?_ | with_reducible refine keeps_fst (by assumption) ?_

theorem State.promote_keeps {quiet : Bool} {a : State} (s : State) (k : Fin 8) (slot : ℕ) (ts : List Tensor) (withheld : Bool) (hs : Keeps quiet a s) :
    Keeps quiet a (State.promote s k slot ts withheld) := by
  unfold State.promote
  try dsimp only
  repeat' first
    | with_reducible intro _ | with_reducible assumption | with_reducible apply State.suiteEvent_keeps
    | with_reducible apply State.write_keeps | with_reducible apply State.scramble_keeps | with_reducible apply hs | simp only [keeps_upd]
    | with_reducible apply foldl_keeps | with_reducible apply ite_keeps | split | with_reducible refine keeps_snd (by assumption) ?_
    | with_reducible refine keeps_fst (by assumption) ?_

theorem SlotSum.slot_keeps {quiet : Bool} {a : State} (x : SlotSum) (k : Fin 8) (set : List Nat) (slot : Nat) (h : Keeps quiet a x.s) : Keeps quiet a (x.slot k set slot).s := by
  unfold SlotSum.slot
  dsimp only
  repeat' first
    | with_reducible intro _ | with_reducible assumption | with_reducible apply State.freeScaleSlot_keeps
    | with_reducible apply State.write_keeps | with_reducible apply State.promote_keeps | with_reducible apply State.suiteEvent_keeps
    | with_reducible apply ite_keeps | split

theorem State.scaleBoundary_keeps {quiet : Bool} {a : State} (s : State) (k : Fin 8) (set : List ℕ) (hs : Keeps quiet a s) :
    Keeps quiet a (State.scaleBoundary s k set) := by
  unfold State.scaleBoundary
  dsimp only
  refine State.modSuite_keeps _ _ _ ?_
  have h : ∀ (l : List Nat) (x : SlotSum), Keeps quiet a x.s → Keeps quiet a (l.foldl (fun (x : SlotSum) i => x.slot k set i) x).s := by
    intro l
    induction l with
    | nil => exact fun x h => h
    | cons i l ih => exact fun x h => ih _ (SlotSum.slot_keeps _ _ _ _ h)
  exact h _ _ hs

theorem State.skimSlotBoundary_keeps {quiet : Bool} {a : State} (s : State) (k : Fin 8) (slot : ℕ) (hs : Keeps quiet a s) :
    Keeps quiet a (State.skimSlotBoundary s k slot) := by
  unfold State.skimSlotBoundary
  try dsimp only
  repeat' first
    | with_reducible intro _ | with_reducible assumption | with_reducible apply State.drawFree_keeps
    | with_reducible apply State.suiteEvent_keeps | with_reducible apply State.modSuite_keeps | with_reducible apply State.write_keeps
    | with_reducible apply State.respoilSkim_keeps | with_reducible apply hs | simp only [keeps_upd] | with_reducible apply foldl_keeps
    | with_reducible apply ite_keeps | split | with_reducible refine keeps_snd (by assumption) ?_
    | with_reducible refine keeps_fst (by assumption) ?_

theorem State.skimBoundary_keeps {quiet : Bool} {a : State} (s : State) (k : Fin 8) (hs : Keeps quiet a s) :
    Keeps quiet a (State.skimBoundary s k) := by
  unfold State.skimBoundary
  try dsimp only
  repeat' first
    | with_reducible intro _ | with_reducible assumption | with_reducible apply State.skimSlotBoundary_keeps
    | with_reducible apply State.modSuite_keeps | with_reducible apply hs | simp only [keeps_upd] | with_reducible apply foldl_keeps
    | with_reducible apply ite_keeps | split | with_reducible refine keeps_snd (by assumption) ?_
    | with_reducible refine keeps_fst (by assumption) ?_

theorem State.maskBoundary_keeps {quiet : Bool} {a : State} (s : State) (k : Fin 8) (hs : Keeps quiet a s) :
    Keeps quiet a (State.maskBoundary s k) := by
  unfold State.maskBoundary
  try dsimp only
  repeat' first
    | with_reducible intro _ | with_reducible assumption | with_reducible apply State.modSuite_keeps
    | with_reducible apply State.confine_keeps | with_reducible apply State.commitMask_keeps | with_reducible apply State.suiteEvent_keeps
    | with_reducible apply State.modDie_keeps | with_reducible apply hs | simp only [keeps_upd] | with_reducible apply foldl_keeps
    | with_reducible apply ite_keeps | split | with_reducible refine keeps_snd (by assumption) ?_
    | with_reducible refine keeps_fst (by assumption) ?_

theorem State.foldBoundary_keeps {quiet : Bool} {a : State} (s : State) (k : Fin 8) (hs : Keeps quiet a s) :
    Keeps quiet a (State.foldBoundary s k) := by
  unfold State.foldBoundary
  try dsimp only
  repeat' first
    | with_reducible intro _ | with_reducible assumption | with_reducible apply State.confine_keeps
    | with_reducible apply State.foldTensor_keeps | with_reducible apply State.clearScratch_keeps
    | with_reducible apply State.modSuite_keeps | with_reducible apply hs | simp only [keeps_upd] | with_reducible apply foldl_keeps
    | with_reducible apply ite_keeps | split | with_reducible refine keeps_snd (by assumption) ?_
    | with_reducible refine keeps_fst (by assumption) ?_

theorem State.renderFailed_keeps {quiet : Bool} {a : State} (s : State) (k : Fin 8) (m : Tensor) (c : Tensor) (hs : Keeps quiet a s) :
    Keeps quiet a (State.renderFailed s k m c) := by
  unfold State.renderFailed
  try dsimp only
  repeat' first
    | with_reducible intro _ | with_reducible assumption | with_reducible apply State.poisonRange_keeps
    | with_reducible apply State.suiteEvent_keeps | with_reducible apply hs | simp only [keeps_upd] | with_reducible apply foldl_keeps
    | with_reducible apply ite_keeps | split | with_reducible refine keeps_snd (by assumption) ?_
    | with_reducible refine keeps_fst (by assumption) ?_

theorem State.renderBoundary_keeps {quiet : Bool} {a : State} (s : State) (k : Fin 8) (r : Run) (changed : List ℕ) (hs : Keeps quiet a s) :
    Keeps quiet a (State.renderBoundary s k r changed) := by
  unfold State.renderBoundary
  try dsimp only
  repeat' first
    | with_reducible intro _ | with_reducible assumption | with_reducible apply State.confine_keeps
    | with_reducible apply State.renderAll_keeps | with_reducible apply State.renderFailed_keeps | with_reducible apply hs
    | simp only [keeps_upd] | with_reducible apply foldl_keeps | with_reducible apply ite_keeps | split
    | with_reducible refine keeps_snd (by assumption) ?_ | with_reducible refine keeps_fst (by assumption) ?_

theorem State.rebalanceStep_keeps {quiet : Bool} {a : State} (s : State) (k : Fin 8) (hs : Keeps quiet a s) :
    Keeps quiet a (State.rebalanceStep s k) := by
  unfold State.rebalanceStep
  dsimp only
  repeat' first
    | with_reducible intro _ | with_reducible assumption | with_reducible apply State.modSuite_keeps
    | with_reducible apply State.suiteEvent_keeps | with_reducible apply foldl_keeps_snd | with_reducible apply State.drawFree_keeps
    | with_reducible apply foldl_keeps | with_reducible apply ite_keeps | split

theorem State.armDefer_keeps {quiet : Bool} {a : State} (s : State) (k : Fin 8) (hs : Keeps quiet a s) :
    Keeps quiet a (State.armDefer s k) := by
  unfold State.armDefer
  try dsimp only
  repeat' first
    | with_reducible intro _ | with_reducible assumption | with_reducible apply State.modSuite_keeps | with_reducible apply hs
    | simp only [keeps_upd] | with_reducible apply foldl_keeps | with_reducible apply ite_keeps | split
    | with_reducible refine keeps_snd (by assumption) ?_ | with_reducible refine keeps_fst (by assumption) ?_

theorem State.endDefer_keeps {quiet : Bool} {a : State} (s : State) (k : Fin 8) (hs : Keeps quiet a s) :
    Keeps quiet a (State.endDefer s k) := by
  unfold State.endDefer
  try dsimp only
  repeat' first
    | with_reducible intro _ | with_reducible assumption | with_reducible apply State.modSuite_keeps
    | with_reducible apply State.modDie_keeps | with_reducible apply hs | simp only [keeps_upd] | with_reducible apply foldl_keeps
    | with_reducible apply ite_keeps | split | with_reducible refine keeps_snd (by assumption) ?_
    | with_reducible refine keeps_fst (by assumption) ?_

theorem State.stepSummary_keeps {quiet : Bool} {a : State} (s : State) (k : Fin 8) (hs : Keeps quiet a s) :
    Keeps quiet a (State.stepSummary s k) := by
  unfold State.stepSummary
  try dsimp only
  repeat' first
    | with_reducible intro _ | with_reducible assumption | with_reducible apply State.drawFree_keeps
    | with_reducible apply State.suiteEvent_keeps | with_reducible apply hs | simp only [keeps_upd] | with_reducible apply foldl_keeps
    | with_reducible apply ite_keeps | split | with_reducible refine keeps_snd (by assumption) ?_
    | with_reducible refine keeps_fst (by assumption) ?_

theorem State.astBoundary_keeps {quiet : Bool} {a : State} (s : State) (k : Fin 8) (hs : Keeps quiet a s) :
    Keeps quiet a (State.astBoundary s k) := by
  unfold State.astBoundary
  try dsimp only
  repeat' first
    | with_reducible intro _ | with_reducible assumption | with_reducible apply State.suiteEvent_keeps
    | with_reducible apply State.modSuite_keeps | with_reducible apply hs | simp only [keeps_upd] | with_reducible apply foldl_keeps
    | with_reducible apply ite_keeps | split | with_reducible refine keeps_snd (by assumption) ?_
    | with_reducible refine keeps_fst (by assumption) ?_

theorem State.nextStep_keeps {quiet : Bool} {a : State} (s : State) (k : Fin 8) (r : Run) (hs : Keeps quiet a s) :
    Keeps quiet a (State.nextStep s k r) := by
  unfold State.nextStep
  try dsimp only
  repeat' first
    | with_reducible intro _ | with_reducible assumption | with_reducible apply State.finish_keeps
    | with_reducible apply State.modSuite_keeps | with_reducible apply hs | simp only [keeps_upd] | with_reducible apply foldl_keeps
    | with_reducible apply ite_keeps | split | with_reducible refine keeps_snd (by assumption) ?_
    | with_reducible refine keeps_fst (by assumption) ?_

theorem State.boundaryWork_keeps {quiet : Bool} {a : State} (s : State) (k : Fin 8) (len : ℕ) (hs : Keeps quiet a s) :
    Keeps quiet a (State.boundaryWork s k len) := by
  unfold State.boundaryWork
  try dsimp only
  repeat' first
    | with_reducible intro _ | with_reducible assumption | with_reducible apply State.maskBoundary_keeps
    | with_reducible apply State.confine_keeps | with_reducible apply State.scaleBoundary_keeps
    | with_reducible apply State.skimBoundary_keeps | with_reducible apply State.foldBoundary_keeps
    | with_reducible apply State.astBoundary_keeps | with_reducible apply State.modSuite_keeps | with_reducible apply State.setFrozen_keeps
    | with_reducible apply State.rebalanceStep_keeps | with_reducible apply State.modDie_keeps
    | with_reducible apply State.stepSummary_keeps | with_reducible apply State.commitStack_keeps
    | with_reducible apply State.endDefer_keeps | with_reducible apply hs | simp only [keeps_upd] | with_reducible apply foldl_keeps
    | with_reducible apply ite_keeps | split | with_reducible refine keeps_snd (by assumption) ?_
    | with_reducible refine keeps_fst (by assumption) ?_

theorem State.beginStep_keeps {quiet : Bool} {a : State} (s : State) (k : Fin 8) (r : Run) (hs : Keeps quiet a s) :
    Keeps quiet a (State.beginStep s k r) := by
  unfold State.beginStep
  try dsimp only
  repeat' first
    | with_reducible intro _ | with_reducible assumption | with_reducible apply State.modSuite_keeps
    | with_reducible apply State.renderBoundary_keeps | with_reducible apply State.nextStep_keeps
    | with_reducible apply State.forceDefer_keeps | with_reducible apply hs | simp only [keeps_upd] | with_reducible apply foldl_keeps
    | with_reducible apply ite_keeps | split | with_reducible refine keeps_snd (by assumption) ?_
    | with_reducible refine keeps_fst (by assumption) ?_

theorem execStepBoundary_keeps {a : State} (k : Fin 8) (s : State) (hs : Keeps false a s) :
    KeepsOut false a (execStepBoundary k s) := by
  unfold execStepBoundary
  try dsimp only
  repeat' first
    | with_reducible intro _ | with_reducible assumption | with_reducible apply keeps_next | with_reducible apply State.beginStep_keeps
    | with_reducible apply State.boundaryWork_keeps | with_reducible apply hs | simp only [keeps_upd_any] | with_reducible apply foldl_keeps
    | with_reducible apply ite_keepsOut | with_reducible apply ite_keeps | split | with_reducible refine keeps_snd (by assumption) ?_
    | with_reducible refine keeps_fst (by assumption) ?_

end Sys2Proof.Machine
end

