-- ==== Sys2Proof/Laws/KeepsHost.lean ====
section
/-! SUPPORT. What each operation keeps (`Keeps`), one lemma per operation, in the model's order: functions, mailboxes, registers, links and frames. -/

namespace Sys2Proof.Machine

/-! ### Functions -/

theorem State.setSuiteRun_keeps {a : State} (s : State) (k : Fin 8) (x : FnState) (hs : Keeps false a s) :
    Keeps false a (State.setSuiteRun s k x) := by
  unfold State.setSuiteRun
  try dsimp only
  repeat' first
    | with_reducible intro _ | with_reducible assumption | with_reducible apply State.modSuite_keeps
    | with_reducible apply State.setSuiteState_keeps | with_reducible apply hs | simp only [keeps_upd_any]
    | with_reducible apply foldl_keeps | with_reducible apply ite_keeps | split | with_reducible refine keeps_snd (by assumption) ?_
    | with_reducible refine keeps_fst (by assumption) ?_

theorem State.setFn_keeps {a : State} (s : State) (f : FuncId) (x : FnState) (hs : Keeps false a s) :
    Keeps false a (State.setFn s f x) := by
  unfold State.setFn
  try dsimp only
  repeat' first
    | with_reducible intro _ | with_reducible assumption | with_reducible apply State.modSuite_keeps
    | with_reducible apply State.setSuiteRun_keeps | with_reducible apply State.modPanel_keeps | with_reducible apply State.modDie_keeps
    | with_reducible apply State.modStack_keeps | with_reducible apply State.modPort_keeps | with_reducible apply hs
    | simp only [keeps_upd_any] | with_reducible apply foldl_keeps | with_reducible apply ite_keeps | split
    | with_reducible refine keeps_snd (by assumption) ?_ | with_reducible refine keeps_fst (by assumption) ?_

theorem State.setPort_keeps {a : State} (s : State) (d : Fin 8) (q : Fin 2) (st : PortState) (hs : Keeps false a s) :
    Keeps false a (State.setPort s d q st) := by
  unfold State.setPort
  try dsimp only
  repeat' first
    | with_reducible intro _ | with_reducible assumption | with_reducible apply State.modPort_keeps
    | with_reducible apply State.mgtEvent_keeps | with_reducible apply hs | simp only [keeps_upd_any] | with_reducible apply foldl_keeps
    | with_reducible apply ite_keeps | split | with_reducible refine keeps_snd (by assumption) ?_
    | with_reducible refine keeps_fst (by assumption) ?_

theorem State.startPort_keeps {a : State} (s : State) (d : Fin 8) (q : Fin 2) (hs : Keeps false a s) :
    Keeps false a (State.startPort s d q) := by
  unfold State.startPort
  try dsimp only
  repeat' first
    | with_reducible intro _ | with_reducible assumption | with_reducible apply State.setPort_keeps | with_reducible apply hs
    | simp only [keeps_upd_any] | with_reducible apply foldl_keeps | with_reducible apply ite_keeps | split
    | with_reducible refine keeps_snd (by assumption) ?_ | with_reducible refine keeps_fst (by assumption) ?_

theorem State.abortTask_keeps {a : State} (s : State) (k : Fin 8) (t : Task) (reason : ℕ) (hs : Keeps false a s) :
    Keeps false a (State.abortTask s k t reason) := by
  unfold State.abortTask
  try dsimp only
  repeat' first
    | with_reducible intro _ | with_reducible assumption | with_reducible apply State.confine_keeps
    | with_reducible apply State.endApply_keeps | with_reducible apply State.finish_keeps | with_reducible apply State.abortBuild_keeps
    | with_reducible apply State.stopTask_keeps | with_reducible apply hs | simp only [keeps_upd_any] | with_reducible apply foldl_keeps
    | with_reducible apply ite_keeps | split | with_reducible refine keeps_snd (by assumption) ?_
    | with_reducible refine keeps_fst (by assumption) ?_

theorem State.abortTasks_keeps {a : State} (s : State) (k : Fin 8) (p : Task → Bool) (reason : ℕ) (hs : Keeps false a s) :
    Keeps false a (State.abortTasks s k p reason) := by
  unfold State.abortTasks
  try dsimp only
  repeat' first
    | with_reducible intro _ | with_reducible assumption | with_reducible apply State.abortTask_keeps
    | with_reducible apply State.modSuite_keeps | with_reducible apply hs | simp only [keeps_upd_any] | with_reducible apply foldl_keeps
    | with_reducible apply ite_keeps | split | with_reducible refine keeps_snd (by assumption) ?_
    | with_reducible refine keeps_fst (by assumption) ?_

theorem State.endUnit_keeps {a : State} (s : State) (d : Fin 8) (i : Fin 12) (st : Status) (hs : Keeps false a s) :
    Keeps false a (State.endUnit s d i st) := by
  unfold State.endUnit
  try dsimp only
  repeat' first
    | with_reducible intro _ | with_reducible assumption | with_reducible apply State.confine_keeps
    | with_reducible apply State.endApply_keeps | with_reducible apply hs | simp only [keeps_upd_any] | with_reducible apply foldl_keeps
    | with_reducible apply ite_keeps | split | with_reducible refine keeps_snd (by assumption) ?_
    | with_reducible refine keeps_fst (by assumption) ?_

theorem State.drained_keeps {a : State} (s : State) (f : FuncId) (hs : Keeps false a s) :
    Keeps false a (State.drained s f) := by
  unfold State.drained
  try dsimp only
  repeat' first
    | with_reducible intro _ | with_reducible assumption | with_reducible apply State.setFn_keeps | with_reducible apply State.endUnit_keeps
    | with_reducible apply State.startPort_keeps | with_reducible apply State.setPort_keeps | with_reducible apply hs
    | simp only [keeps_upd_any] | with_reducible apply foldl_keeps | with_reducible apply ite_keeps | split
    | with_reducible refine keeps_snd (by assumption) ?_ | with_reducible refine keeps_fst (by assumption) ?_

theorem State.dropThreads_keeps {a : State} (s : State) (d : Fin 8) (ths : List Thread) (hs : Keeps false a s) :
    Keeps false a (State.dropThreads s d ths) := by
  unfold State.dropThreads
  try dsimp only
  repeat' first
    | with_reducible intro _ | with_reducible assumption | with_reducible apply State.modDie_keeps | with_reducible apply hs
    | simp only [keeps_upd_any] | with_reducible apply foldl_keeps | with_reducible apply ite_keeps | split
    | with_reducible refine keeps_snd (by assumption) ?_ | with_reducible refine keeps_fst (by assumption) ?_

theorem State.cutOff_keeps {a : State} (s : State) (f : FuncId) (hs : Keeps false a s) :
    Keeps false a (State.cutOff s f).2 := by
  unfold State.cutOff
  try dsimp only
  repeat' first
    | with_reducible intro _ | with_reducible assumption | with_reducible apply State.abortTasks_keeps
    | with_reducible apply State.modPanel_keeps | with_reducible apply State.tilesGone_keeps | with_reducible apply State.dropThreads_keeps
    | with_reducible apply State.endUnit_keeps | with_reducible apply hs | simp only [keeps_upd_any] | with_reducible apply foldl_keeps
    | with_reducible apply ite_keeps | split | with_reducible refine keeps_snd (by assumption) ?_
    | with_reducible refine keeps_fst (by assumption) ?_

theorem State.drainEvent_keeps {a : State} (s : State) (f : FuncId) (n : ℕ) (hs : Keeps false a s) :
    Keeps false a (State.drainEvent s f n) := by
  unfold State.drainEvent
  try dsimp only
  repeat' first
    | with_reducible intro _ | with_reducible assumption | with_reducible apply State.suiteEvent_keeps
    | with_reducible apply State.dieEvent_keeps | with_reducible apply hs | simp only [keeps_upd_any] | with_reducible apply foldl_keeps
    | with_reducible apply ite_keeps | split | with_reducible refine keeps_snd (by assumption) ?_
    | with_reducible refine keeps_fst (by assumption) ?_

theorem State.drainTimeout_keeps {a : State} (s : State) (f : FuncId) (hs : Keeps false a s) :
    Keeps false a (State.drainTimeout s f) := by
  unfold State.drainTimeout
  try dsimp only
  repeat' first
    | with_reducible intro _ | with_reducible assumption | with_reducible apply State.cutOff_keeps
    | with_reducible apply State.drained_keeps | with_reducible apply State.drainEvent_keeps | with_reducible apply hs
    | simp only [keeps_upd_any] | with_reducible apply foldl_keeps | with_reducible apply ite_keeps | split
    | with_reducible refine keeps_snd (by assumption) ?_ | with_reducible refine keeps_fst (by assumption) ?_

theorem State.moveUnstarted_keeps {a : State} (s : State) (d : Fin 8) (p : Fin 104) (hs : Keeps false a s) :
    Keeps false a (State.moveUnstarted s d p) := by
  unfold State.moveUnstarted
  try dsimp only
  repeat' first
    | with_reducible intro _ | with_reducible assumption | with_reducible apply State.modPanel_keeps
    | with_reducible apply State.cancelSpec_keeps | with_reducible apply State.tilesGone_keeps | with_reducible apply hs
    | simp only [keeps_upd_any] | with_reducible apply foldl_keeps | with_reducible apply ite_keeps | split
    | with_reducible refine keeps_snd (by assumption) ?_ | with_reducible refine keeps_fst (by assumption) ?_

theorem State.cancelDie_keeps {a : State} (s : State) (d : Fin 8) (hs : Keeps false a s) :
    Keeps false a (State.cancelDie s d) := by
  unfold State.cancelDie
  try dsimp only
  repeat' first
    | with_reducible intro _ | with_reducible assumption | with_reducible apply State.cancelSpec_keeps | with_reducible apply hs
    | simp only [keeps_upd_any] | with_reducible apply foldl_keeps | with_reducible apply ite_keeps | split
    | with_reducible refine keeps_snd (by assumption) ?_ | with_reducible refine keeps_fst (by assumption) ?_

theorem State.stopSkims_keeps {a : State} (s : State) (d : Fin 8) (hs : Keeps false a s) :
    Keeps false a (State.stopSkims s d) := by
  unfold State.stopSkims
  try dsimp only
  repeat' first
    | with_reducible intro _ | with_reducible assumption | with_reducible apply State.cancelDie_keeps
    | with_reducible apply State.dropThreads_keeps | with_reducible apply State.tilesGone_keeps | with_reducible apply hs
    | simp only [keeps_upd_any] | with_reducible apply foldl_keeps | with_reducible apply ite_keeps | split
    | with_reducible refine keeps_snd (by assumption) ?_ | with_reducible refine keeps_fst (by assumption) ?_

theorem State.drainStarts_keeps {a : State} (s : State) (f : FuncId) (hs : Keeps false a s) :
    Keeps false a (State.drainStarts s f) := by
  unfold State.drainStarts
  try dsimp only
  repeat' first
    | with_reducible intro _ | with_reducible assumption | with_reducible apply State.moveUnstarted_keeps
    | with_reducible apply State.stopSkims_keeps | with_reducible apply State.cancelDie_keeps | with_reducible apply hs
    | simp only [keeps_upd_any] | with_reducible apply foldl_keeps | with_reducible apply ite_keeps | split
    | with_reducible refine keeps_snd (by assumption) ?_ | with_reducible refine keeps_fst (by assumption) ?_

theorem State.disable_keeps {a : State} (s : State) (f : FuncId) (hs : Keeps false a s) :
    Keeps false a (State.disable s f) := by
  unfold State.disable
  try dsimp only
  repeat' first
    | with_reducible intro _ | with_reducible assumption | with_reducible apply State.drainStarts_keeps
    | with_reducible apply State.setFn_keeps | with_reducible apply State.drainTimeout_keeps | with_reducible apply hs
    | simp only [keeps_upd_any] | with_reducible apply foldl_keeps | with_reducible apply ite_keeps | split
    | with_reducible refine keeps_snd (by assumption) ?_ | with_reducible refine keeps_fst (by assumption) ?_

theorem State.enable_keeps {a : State} (s : State) (f : FuncId) (hs : Keeps false a s) :
    Keeps false a (State.enable s f) := by
  unfold State.enable
  try dsimp only
  repeat' first
    | with_reducible intro _ | with_reducible assumption | with_reducible apply State.violation_keeps
    | with_reducible apply State.setFn_keeps | with_reducible apply State.resetPanel_keeps | with_reducible apply State.startPort_keeps
    | with_reducible apply hs | simp only [keeps_upd_any] | with_reducible apply foldl_keeps | with_reducible apply ite_keeps | split
    | with_reducible refine keeps_snd (by assumption) ?_ | with_reducible refine keeps_fst (by assumption) ?_

theorem execDisableFunction_keeps {a : State} (f : FuncId) (s : State) (hs : Keeps false a s) :
    KeepsOut false a (execDisableFunction f s) := by
  unfold execDisableFunction
  try dsimp only
  repeat' first
    | with_reducible intro _ | with_reducible assumption | with_reducible apply keeps_next | with_reducible apply State.violation_keeps
    | with_reducible apply State.disable_keeps | with_reducible apply hs | simp only [keeps_upd_any] | with_reducible apply foldl_keeps
    | with_reducible apply ite_keepsOut | with_reducible apply ite_keeps | split | with_reducible refine keeps_snd (by assumption) ?_
    | with_reducible refine keeps_fst (by assumption) ?_

theorem execEnableFunction_keeps {a : State} (f : FuncId) (s : State) (hs : Keeps false a s) :
    KeepsOut false a (execEnableFunction f s) := by
  unfold execEnableFunction
  try dsimp only
  repeat' first
    | with_reducible intro _ | with_reducible assumption | with_reducible apply keeps_next | with_reducible apply State.violation_keeps
    | with_reducible apply State.enable_keeps | with_reducible apply hs | simp only [keeps_upd_any] | with_reducible apply foldl_keeps
    | with_reducible apply ite_keepsOut | with_reducible apply ite_keeps | split | with_reducible refine keeps_snd (by assumption) ?_
    | with_reducible refine keeps_fst (by assumption) ?_

theorem execDrainComplete_keeps {a : State} (f : FuncId) (s : State) (hs : Keeps false a s) :
    KeepsOut false a (execDrainComplete f s) := by
  unfold execDrainComplete
  try dsimp only
  repeat' first
    | with_reducible intro _ | with_reducible assumption | with_reducible apply keeps_next | with_reducible apply State.drained_keeps
    | with_reducible apply hs | simp only [keeps_upd_any] | with_reducible apply foldl_keeps | with_reducible apply ite_keepsOut
    | with_reducible apply ite_keeps | split | with_reducible refine keeps_snd (by assumption) ?_
    | with_reducible refine keeps_fst (by assumption) ?_

theorem execDrainTimeout_keeps {a : State} (f : FuncId) (s : State) (hs : Keeps false a s) :
    KeepsOut false a (execDrainTimeout f s) := by
  unfold execDrainTimeout
  try dsimp only
  repeat' first
    | with_reducible intro _ | with_reducible assumption | with_reducible apply keeps_next | with_reducible apply State.drainTimeout_keeps
    | with_reducible apply hs | simp only [keeps_upd_any] | with_reducible apply foldl_keeps | with_reducible apply ite_keepsOut
    | with_reducible apply ite_keeps | split | with_reducible refine keeps_snd (by assumption) ?_
    | with_reducible refine keeps_fst (by assumption) ?_

/-! ### Mailbox -/

theorem State.modMailbox_keeps {a : State} (s : State) (fn : Fin 9) (f : Mailbox → Mailbox) (hs : Keeps false a s) :
    Keeps false a (State.modMailbox s fn f) := by
  unfold State.modMailbox
  try dsimp only
  repeat' first
    | with_reducible intro _ | with_reducible assumption | with_reducible apply State.modSuite_keeps | with_reducible apply hs
    | simp only [keeps_upd_any] | with_reducible apply foldl_keeps | with_reducible apply ite_keeps | split
    | with_reducible refine keeps_snd (by assumption) ?_ | with_reducible refine keeps_fst (by assumption) ?_

theorem State.mbxReject_keeps {a : State} (s : State) (fn : Fin 9) (o : ℕ) (hs : Keeps false a s) :
    Keeps false a (State.mbxReject s fn o) := by
  unfold State.mbxReject
  try dsimp only
  repeat' first
    | with_reducible intro _ | with_reducible assumption | with_reducible apply State.violation_keeps
    | with_reducible apply State.modMailbox_keeps | with_reducible apply hs | simp only [keeps_upd_any] | with_reducible apply foldl_keeps
    | with_reducible apply ite_keeps | split | with_reducible refine keeps_snd (by assumption) ?_
    | with_reducible refine keeps_fst (by assumption) ?_

theorem State.mbxEnd_keeps {a : State} (s : State) (fn : Fin 9) (st : Status) (results : List Word) (hs : Keeps false a s) :
    Keeps false a (State.mbxEnd s fn st results) := by
  unfold State.mbxEnd
  try dsimp only
  repeat' first
    | with_reducible intro _ | with_reducible assumption | with_reducible apply State.modMailbox_keeps | with_reducible apply hs
    | simp only [keeps_upd_any] | with_reducible apply foldl_keeps | with_reducible apply ite_keeps | split
    | with_reducible refine keeps_snd (by assumption) ?_ | with_reducible refine keeps_fst (by assumption) ?_

theorem State.mbxBegin_keeps {a : State} (s : State) (fn : Fin 9) (code : BitVec 8) (hs : Keeps false a s) :
    Keeps false a (State.mbxBegin s fn code) := by
  unfold State.mbxBegin
  try dsimp only
  repeat' first
    | with_reducible intro _ | with_reducible assumption | with_reducible apply State.modMailbox_keeps
    | with_reducible apply State.modSuite_keeps | with_reducible apply hs | simp only [keeps_upd_any] | with_reducible apply foldl_keeps
    | with_reducible apply ite_keeps | split | with_reducible refine keeps_snd (by assumption) ?_
    | with_reducible refine keeps_fst (by assumption) ?_

theorem State.writeCmd_keeps {a : State} (s : State) (fn : Fin 9) (code : BitVec 8) (hs : Keeps false a s) :
    Keeps false a (State.writeCmd s fn code) := by
  unfold State.writeCmd
  try dsimp only
  repeat' first
    | with_reducible intro _ | with_reducible assumption | with_reducible apply State.violation_keeps
    | with_reducible apply State.mbxReject_keeps | with_reducible apply State.mbxBegin_keeps | with_reducible apply State.mbxEnd_keeps
    | with_reducible apply State.modMailbox_keeps | with_reducible apply hs | simp only [keeps_upd_any] | with_reducible apply foldl_keeps
    | with_reducible apply ite_keeps | split | with_reducible refine keeps_snd (by assumption) ?_
    | with_reducible refine keeps_fst (by assumption) ?_

theorem State.mbxProgress_keeps {a : State} (s : State) (fn : Fin 9) (code : ℕ) (hs : Keeps false a s) :
    Keeps false a (State.mbxProgress s fn code) := by
  unfold State.mbxProgress
  try dsimp only
  repeat' first
    | with_reducible intro _ | with_reducible assumption | with_reducible apply State.drawFree_keeps
    | with_reducible apply State.modMailbox_keeps | with_reducible apply hs | simp only [keeps_upd_any] | with_reducible apply foldl_keeps
    | with_reducible apply ite_keeps | split | with_reducible refine keeps_snd (by assumption) ?_
    | with_reducible refine keeps_fst (by assumption) ?_

theorem State.command_keeps {a : State} (s : State) (fn : Fin 9) (code : ℕ) (f : State → State) (hs : Keeps false a s) (hf : ∀ x0, Keeps false a x0 → Keeps false a (f x0)) :
    Keeps false a (State.command s fn code f) := by
  unfold State.command
  try dsimp only
  repeat' first
    | with_reducible intro _ | with_reducible assumption | with_reducible apply State.violation_keeps
    | with_reducible apply State.mbxReject_keeps | with_reducible apply State.modMailbox_keeps | with_reducible apply State.mbxBegin_keeps
    | with_reducible apply State.mbxEnd_keeps | with_reducible apply State.mbxProgress_keeps | with_reducible apply hs
    | with_reducible apply hf | simp only [keeps_upd_any] | with_reducible apply foldl_keeps | with_reducible apply ite_keeps | split
    | with_reducible refine keeps_snd (by assumption) ?_ | with_reducible refine keeps_fst (by assumption) ?_

theorem execMailboxUndefinedCommand_keeps {a : State} (fn : Fin 9) (code : BitVec 8) (s : State) (hs : Keeps false a s) :
    KeepsOut false a (execMailboxUndefinedCommand fn code s) := by
  unfold execMailboxUndefinedCommand
  try dsimp only
  repeat' first
    | with_reducible intro _ | with_reducible assumption | with_reducible apply keeps_next | with_reducible apply State.writeCmd_keeps
    | with_reducible apply hs | simp only [keeps_upd_any] | with_reducible apply foldl_keeps | with_reducible apply ite_keepsOut
    | with_reducible apply ite_keeps | split | with_reducible refine keeps_snd (by assumption) ?_
    | with_reducible refine keeps_fst (by assumption) ?_

theorem execIdentify_keeps {a : State} (fn : Fin 9) (s : State) (hs : Keeps false a s) :
    KeepsOut false a (execIdentify fn s) := by
  unfold execIdentify
  try dsimp only
  repeat' first
    | with_reducible intro _ | with_reducible assumption | with_reducible apply keeps_next | with_reducible apply State.command_keeps
    | with_reducible apply State.mbxEnd_keeps | with_reducible apply hs | simp only [keeps_upd_any] | with_reducible apply foldl_keeps
    | with_reducible apply ite_keepsOut | with_reducible apply ite_keeps | split | with_reducible refine keeps_snd (by assumption) ?_
    | with_reducible refine keeps_fst (by assumption) ?_

theorem execDebugUnlock_keeps {a : State} (fn : Fin 9) (ownerOk : Bool) (vendorOk : Bool) (devKey : List Word) (s : State) (hs : Keeps false a s) :
    KeepsOut false a (execDebugUnlock fn ownerOk vendorOk devKey s) := by
  unfold execDebugUnlock
  try dsimp only
  repeat' first
    | with_reducible intro _ | with_reducible assumption | with_reducible apply keeps_next | with_reducible apply State.command_keeps
    | with_reducible apply State.mbxEnd_keeps | with_reducible apply hs | simp only [keeps_upd_any] | with_reducible apply foldl_keeps
    | with_reducible apply ite_keepsOut | with_reducible apply ite_keeps | split | with_reducible refine keeps_snd (by assumption) ?_
    | with_reducible refine keeps_fst (by assumption) ?_

/-! ### Regs -/

theorem State.clearInt_keeps {a : State} (s : State) (fn : ℕ) (v : Word) (hs : Keeps false a s) :
    Keeps false a (State.clearInt s fn v) := by
  unfold State.clearInt
  try dsimp only
  repeat' first
    | with_reducible intro _ | with_reducible assumption | with_reducible apply State.modMgt_keeps
    | with_reducible apply State.modSuite_keeps | with_reducible apply State.raise_keeps | with_reducible apply hs
    | simp only [keeps_upd_any] | with_reducible apply foldl_keeps | with_reducible apply ite_keeps | split
    | with_reducible refine keeps_snd (by assumption) ?_ | with_reducible refine keeps_fst (by assumption) ?_

theorem State.enableInt_keeps {a : State} (s : State) (fn : ℕ) (v : Word) (hs : Keeps false a s) :
    Keeps false a (State.enableInt s fn v) := by
  unfold State.enableInt
  try dsimp only
  repeat' first
    | with_reducible intro _ | with_reducible assumption | with_reducible apply State.modMgt_keeps
    | with_reducible apply State.modSuite_keeps | with_reducible apply hs | simp only [keeps_upd_any] | with_reducible apply foldl_keeps
    | with_reducible apply ite_keeps | split | with_reducible refine keeps_snd (by assumption) ?_
    | with_reducible refine keeps_fst (by assumption) ?_

theorem State.breakGuard_keeps {a : State} (s : State) (hs : Keeps false a s) :
    Keeps false a (State.breakGuard s) := by
  unfold State.breakGuard
  try dsimp only
  repeat' first
    | with_reducible intro _ | with_reducible assumption | with_reducible apply State.modMgt_keeps | with_reducible apply hs
    | simp only [keeps_upd_any] | with_reducible apply foldl_keeps | with_reducible apply ite_keeps | split
    | with_reducible refine keeps_snd (by assumption) ?_ | with_reducible refine keeps_fst (by assumption) ?_

theorem State.guardFirst_keeps {a : State} (s : State) (v : Word) (hs : Keeps false a s) :
    Keeps false a (State.guardFirst s v) := by
  unfold State.guardFirst
  try dsimp only
  repeat' first
    | with_reducible intro _ | with_reducible assumption | with_reducible apply State.modMgt_keeps
    | with_reducible apply State.violation_keeps | with_reducible apply hs | simp only [keeps_upd_any] | with_reducible apply foldl_keeps
    | with_reducible apply ite_keeps | split | with_reducible refine keeps_snd (by assumption) ?_
    | with_reducible refine keeps_fst (by assumption) ?_

theorem State.guardSecond_keeps {a : State} (s : State) (v : Word) (hs : Keeps false a s) :
    Keeps false a (State.guardSecond s v) := by
  unfold State.guardSecond
  try dsimp only
  repeat' first
    | with_reducible intro _ | with_reducible assumption | with_reducible apply State.modMgt_keeps
    | with_reducible apply State.violation_keeps | with_reducible apply hs | simp only [keeps_upd_any] | with_reducible apply foldl_keeps
    | with_reducible apply ite_keeps | split | with_reducible refine keeps_snd (by assumption) ?_
    | with_reducible refine keeps_fst (by assumption) ?_

theorem State.writeState_keeps {a : State} (s : State) (f : FuncId) (v : ℕ) (hs : Keeps false a s) :
    Keeps false a (State.writeState s f v) := by
  unfold State.writeState
  try dsimp only
  repeat' first
    | with_reducible intro _ | with_reducible assumption | with_reducible apply State.disable_keeps
    | with_reducible apply State.enable_keeps | with_reducible apply State.violation_keeps | with_reducible apply hs
    | simp only [keeps_upd_any] | with_reducible apply foldl_keeps | with_reducible apply ite_keeps | split
    | with_reducible refine keeps_snd (by assumption) ?_ | with_reducible refine keeps_fst (by assumption) ?_

theorem State.writeMgt_keeps {a : State} (s : State) (o : ℕ) (v : Word) (hs : Keeps false a s) :
    Keeps false a (State.writeMgt s o v) := by
  unfold State.writeMgt
  try dsimp only
  repeat' first
    | with_reducible intro _ | with_reducible assumption | with_reducible apply State.modMgt_keeps
    | with_reducible apply State.clearInt_keeps | with_reducible apply State.enableInt_keeps | with_reducible apply State.violation_keeps
    | with_reducible apply hs | simp only [keeps_upd_any] | with_reducible apply foldl_keeps | with_reducible apply ite_keeps | split
    | with_reducible refine keeps_snd (by assumption) ?_ | with_reducible refine keeps_fst (by assumption) ?_

theorem State.writeMbx_keeps {a : State} (s : State) (fn : Fin 9) (o : ℕ) (v : Word) (hs : Keeps false a s) :
    Keeps false a (State.writeMbx s fn o v) := by
  unfold State.writeMbx
  try dsimp only
  repeat' first
    | with_reducible intro _ | with_reducible assumption | with_reducible apply State.writeCmd_keeps
    | with_reducible apply State.violation_keeps | with_reducible apply State.modMailbox_keeps | with_reducible apply State.mbxReject_keeps
    | with_reducible apply hs | simp only [keeps_upd_any] | with_reducible apply foldl_keeps | with_reducible apply ite_keeps | split
    | with_reducible refine keeps_snd (by assumption) ?_ | with_reducible refine keeps_fst (by assumption) ?_

theorem State.writeModule_keeps {a : State} (s : State) (off : ℕ) (v : Word) (hs : Keeps false a s) :
    Keeps false a (State.writeModule s off v) := by
  unfold State.writeModule
  try dsimp only
  repeat' first
    | with_reducible intro _ | with_reducible assumption | with_reducible apply State.violation_keeps
    | with_reducible apply State.applyK_keeps | with_reducible apply State.writeState_keeps | with_reducible apply State.modSuite_keeps
    | with_reducible apply hs | simp only [keeps_upd_any] | with_reducible apply foldl_keeps | with_reducible apply ite_keeps | split
    | with_reducible refine keeps_snd (by assumption) ?_ | with_reducible refine keeps_fst (by assumption) ?_

theorem State.writeTrw_keeps {a : State} (s : State) (d : Fin 8) (o : ℕ) (off : ℕ) (v : Word) (hs : Keeps false a s) :
    Keeps false a (State.writeTrw s d o off v) := by
  unfold State.writeTrw
  try dsimp only
  repeat' first
    | with_reducible intro _ | with_reducible assumption | with_reducible apply State.modDie_keeps
    | with_reducible apply State.violation_keeps | with_reducible apply hs | simp only [keeps_upd_any] | with_reducible apply foldl_keeps
    | with_reducible apply ite_keeps | split | with_reducible refine keeps_snd (by assumption) ?_
    | with_reducible refine keeps_fst (by assumption) ?_

theorem State.writeScr_keeps {a : State} (s : State) (d : Fin 8) (q : Fin 2) (o : ℕ) (off : ℕ) (v : Word) (hs : Keeps false a s) :
    Keeps false a (State.writeScr s d q o off v) := by
  unfold State.writeScr
  try dsimp only
  repeat' first
    | with_reducible intro _ | with_reducible assumption | with_reducible apply State.violation_keeps
    | with_reducible apply State.writeState_keeps | with_reducible apply State.modPort_keeps | with_reducible apply hs
    | simp only [keeps_upd_any] | with_reducible apply foldl_keeps | with_reducible apply ite_keeps | split
    | with_reducible refine keeps_snd (by assumption) ?_ | with_reducible refine keeps_fst (by assumption) ?_

theorem State.writeDie_keeps {a : State} (s : State) (d : Fin 8) (o : ℕ) (off : ℕ) (v : Word) (hs : Keeps false a s) :
    Keeps false a (State.writeDie s d o off v) := by
  unfold State.writeDie
  try dsimp only
  repeat' first
    | with_reducible intro _ | with_reducible assumption | with_reducible apply State.writeTrw_keeps
    | with_reducible apply State.violation_keeps | with_reducible apply State.writeState_keeps | with_reducible apply State.modDie_keeps
    | with_reducible apply State.modPanel_keeps | with_reducible apply State.modStack_keeps | with_reducible apply State.writeScr_keeps
    | with_reducible apply State.modEdge_keeps | with_reducible apply hs | simp only [keeps_upd_any] | with_reducible apply foldl_keeps
    | with_reducible apply ite_keeps | split | with_reducible refine keeps_snd (by assumption) ?_
    | with_reducible refine keeps_fst (by assumption) ?_

theorem State.doorbell_keeps {a : State} (s : State) (k : Fin 8) (q : Fin 4) (v : Word) (hs : Keeps false a s) :
    Keeps false a (State.doorbell s k q v) := by
  unfold State.doorbell
  try dsimp only
  repeat' first
    | with_reducible intro _ | with_reducible assumption | with_reducible apply State.modSuite_keeps
    | with_reducible apply State.raise_keeps | with_reducible apply State.suiteEvent_keeps | with_reducible apply hs
    | simp only [keeps_upd_any] | with_reducible apply foldl_keeps | with_reducible apply ite_keeps | split
    | with_reducible refine keeps_snd (by assumption) ?_ | with_reducible refine keeps_fst (by assumption) ?_

theorem State.clearErr_keeps {a : State} (s : State) (k : Fin 8) (q : Fin 4) (hs : Keeps false a s) :
    Keeps false a (State.clearErr s k q) := by
  unfold State.clearErr
  try dsimp only
  repeat' first
    | with_reducible intro _ | with_reducible assumption | with_reducible apply State.modSuite_keeps | with_reducible apply hs
    | simp only [keeps_upd_any] | with_reducible apply foldl_keeps | with_reducible apply ite_keeps | split
    | with_reducible refine keeps_snd (by assumption) ?_ | with_reducible refine keeps_fst (by assumption) ?_

theorem State.writeSq_keeps {a : State} (s : State) (k : Fin 8) (q : Fin 4) (o : ℕ) (off : ℕ) (v : Word) (hs : Keeps false a s) :
    Keeps false a (State.writeSq s k q o off v) := by
  unfold State.writeSq
  try dsimp only
  repeat' first
    | with_reducible intro _ | with_reducible assumption | with_reducible apply State.modSuite_keeps
    | with_reducible apply State.violation_keeps | with_reducible apply State.doorbell_keeps | with_reducible apply State.writeState_keeps
    | with_reducible apply State.clearErr_keeps | with_reducible apply hs | simp only [keeps_upd_any] | with_reducible apply foldl_keeps
    | with_reducible apply ite_keeps | split | with_reducible refine keeps_snd (by assumption) ?_
    | with_reducible refine keeps_fst (by assumption) ?_

theorem State.writeSfn_keeps {a : State} (s : State) (k : Fin 8) (o : ℕ) (v : Word) (hs : Keeps false a s) :
    Keeps false a (State.writeSfn s k o v) := by
  unfold State.writeSfn
  try dsimp only
  repeat' first
    | with_reducible intro _ | with_reducible assumption | with_reducible apply State.violation_keeps
    | with_reducible apply State.writeSq_keeps | with_reducible apply State.writeMbx_keeps | with_reducible apply State.modSuite_keeps
    | with_reducible apply State.clearInt_keeps | with_reducible apply State.enableInt_keeps | with_reducible apply hs
    | simp only [keeps_upd_any] | with_reducible apply foldl_keeps | with_reducible apply ite_keeps | split
    | with_reducible refine keeps_snd (by assumption) ?_ | with_reducible refine keeps_fst (by assumption) ?_

theorem State.writeReg_keeps {a : State} (s : State) (fn : Fin 9) (off : ℕ) (v : Word) (hs : Keeps false a s) :
    Keeps false a (State.writeReg s fn off v) := by
  unfold State.writeReg
  try dsimp only
  repeat' first
    | with_reducible intro _ | with_reducible assumption | with_reducible apply State.breakGuard_keeps
    | with_reducible apply State.violation_keeps | with_reducible apply State.writeSfn_keeps | with_reducible apply State.guardFirst_keeps
    | with_reducible apply State.guardSecond_keeps | with_reducible apply State.writeMgt_keeps | with_reducible apply State.writeMbx_keeps
    | with_reducible apply State.writeModule_keeps | with_reducible apply State.writeDie_keeps | with_reducible apply hs
    | simp only [keeps_upd_any] | with_reducible apply foldl_keeps | with_reducible apply ite_keeps | split
    | with_reducible refine keeps_snd (by assumption) ?_ | with_reducible refine keeps_fst (by assumption) ?_

theorem execRegisterWrite_keeps {a : State} (fn : Fin 9) (off : ℕ) (size : ℕ) (be : BitVec 4) (value : Word) (s : State) (hs : Keeps false a s) :
    KeepsOut false a (execRegisterWrite fn off size be value s) := by
  unfold execRegisterWrite
  try dsimp only
  repeat' first
    | with_reducible intro _ | with_reducible assumption | with_reducible apply keeps_next | with_reducible apply State.writeReg_keeps
    | with_reducible apply State.violation_keeps | with_reducible apply State.breakGuard_keeps | with_reducible apply hs
    | simp only [keeps_upd_any] | with_reducible apply foldl_keeps | with_reducible apply ite_keepsOut | with_reducible apply ite_keeps
    | split | with_reducible refine keeps_snd (by assumption) ?_ | with_reducible refine keeps_fst (by assumption) ?_

theorem execLatchedReadLo_keeps {a : State} (fn : Fin 9) (off : ℕ) (s : State) (hs : Keeps false a s) :
    KeepsOut false a (execLatchedReadLo fn off s) := by
  unfold execLatchedReadLo
  try dsimp only
  repeat' first
    | with_reducible intro _ | with_reducible assumption | with_reducible apply keeps_next | with_reducible apply State.breakGuard_keeps
    | with_reducible apply hs | simp only [keeps_upd_any] | with_reducible apply foldl_keeps | with_reducible apply ite_keepsOut
    | with_reducible apply ite_keeps | split | with_reducible refine keeps_snd (by assumption) ?_
    | with_reducible refine keeps_fst (by assumption) ?_

theorem execGuardedWrite_keeps {a : State} (off : ℕ) (value : Word) (off2 : ℕ) (value2 : Word) (gap : ℕ) (other : Bool) (s : State) (hs : Keeps false a s) :
    KeepsOut false a (execGuardedWrite off value off2 value2 gap other s) := by
  unfold execGuardedWrite
  try dsimp only
  repeat' first
    | with_reducible intro _ | with_reducible assumption | with_reducible apply keeps_next | with_reducible apply State.writeReg_keeps
    | with_reducible apply State.breakGuard_keeps | with_reducible apply hs | simp only [keeps_upd_any] | with_reducible apply foldl_keeps
    | with_reducible apply ite_keepsOut | with_reducible apply ite_keeps | split | with_reducible refine keeps_snd (by assumption) ?_
    | with_reducible refine keeps_fst (by assumption) ?_

theorem execGuardWindowExpiry_keeps {a : State} (s : State) (hs : Keeps false a s) :
    KeepsOut false a (execGuardWindowExpiry s) := by
  unfold execGuardWindowExpiry
  try dsimp only
  repeat' first
    | with_reducible intro _ | with_reducible assumption | with_reducible apply keeps_next | with_reducible apply State.violation_keeps
    | with_reducible apply State.modMgt_keeps | with_reducible apply hs | simp only [keeps_upd_any] | with_reducible apply foldl_keeps
    | with_reducible apply ite_keepsOut | with_reducible apply ite_keeps | split | with_reducible refine keeps_snd (by assumption) ?_
    | with_reducible refine keeps_fst (by assumption) ?_

theorem execRwbWrite_keeps {a : State} (fn : Fin 9) (off : ℕ) (value : Word) (s : State) (hs : Keeps false a s) :
    KeepsOut false a (execRwbWrite fn off value s) := by
  unfold execRwbWrite
  try dsimp only
  repeat' first
    | with_reducible intro _ | with_reducible assumption | with_reducible apply keeps_next | with_reducible apply State.writeReg_keeps
    | with_reducible apply hs | simp only [keeps_upd_any] | with_reducible apply foldl_keeps | with_reducible apply ite_keepsOut
    | with_reducible apply ite_keeps | split | with_reducible refine keeps_snd (by assumption) ?_
    | with_reducible refine keeps_fst (by assumption) ?_

theorem execRwbApply_keeps {a : State} (b : RwbBlock) (s : State) (hs : Keeps false a s) :
    KeepsOut false a (execRwbApply b s) := by
  unfold execRwbApply
  try dsimp only
  repeat' first
    | with_reducible intro _ | with_reducible assumption | with_reducible apply keeps_next | with_reducible apply State.modDie_keeps
    | with_reducible apply State.modStack_keeps | with_reducible apply State.modEdge_keeps | with_reducible apply State.modPort_keeps
    | with_reducible apply hs | simp only [keeps_upd_any] | with_reducible apply foldl_keeps | with_reducible apply ite_keepsOut
    | with_reducible apply ite_keeps | split | with_reducible refine keeps_snd (by assumption) ?_
    | with_reducible refine keeps_fst (by assumption) ?_

theorem execIntStatusClear_keeps {a : State} (fn : Fin 9) (value : Word) (s : State) (hs : Keeps false a s) :
    KeepsOut false a (execIntStatusClear fn value s) := by
  unfold execIntStatusClear
  try dsimp only
  repeat' first
    | with_reducible intro _ | with_reducible assumption | with_reducible apply keeps_next | with_reducible apply State.writeReg_keeps
    | with_reducible apply hs | simp only [keeps_upd_any] | with_reducible apply foldl_keeps | with_reducible apply ite_keepsOut
    | with_reducible apply ite_keeps | split | with_reducible refine keeps_snd (by assumption) ?_
    | with_reducible refine keeps_fst (by assumption) ?_

theorem execSqDoorbell_keeps {a : State} (k : Fin 8) (q : Fin 4) (value : Word) (s : State) (hs : Keeps false a s) :
    KeepsOut false a (execSqDoorbell k q value s) := by
  unfold execSqDoorbell
  try dsimp only
  repeat' first
    | with_reducible intro _ | with_reducible assumption | with_reducible apply keeps_next | with_reducible apply State.writeSfn_keeps
    | with_reducible apply hs | simp only [keeps_upd_any] | with_reducible apply foldl_keeps | with_reducible apply ite_keepsOut
    | with_reducible apply ite_keeps | split | with_reducible refine keeps_snd (by assumption) ?_
    | with_reducible refine keeps_fst (by assumption) ?_

theorem execSqErrClear_keeps {a : State} (k : Fin 8) (q : Fin 4) (s : State) (hs : Keeps false a s) :
    KeepsOut false a (execSqErrClear k q s) := by
  unfold execSqErrClear
  try dsimp only
  repeat' first
    | with_reducible intro _ | with_reducible assumption | with_reducible apply keeps_next | with_reducible apply State.violation_keeps
    | with_reducible apply State.clearErr_keeps | with_reducible apply hs | simp only [keeps_upd_any] | with_reducible apply foldl_keeps
    | with_reducible apply ite_keepsOut | with_reducible apply ite_keeps | split | with_reducible refine keeps_snd (by assumption) ?_
    | with_reducible refine keeps_fst (by assumption) ?_

theorem execCqHeadWrite_keeps {a : State} (k : Fin 8) (value : Word) (s : State) (hs : Keeps false a s) :
    KeepsOut false a (execCqHeadWrite k value s) := by
  unfold execCqHeadWrite
  try dsimp only
  repeat' first
    | with_reducible intro _ | with_reducible assumption | with_reducible apply keeps_next | with_reducible apply State.writeSfn_keeps
    | with_reducible apply hs | simp only [keeps_upd_any] | with_reducible apply foldl_keeps | with_reducible apply ite_keepsOut
    | with_reducible apply ite_keeps | split | with_reducible refine keeps_snd (by assumption) ?_
    | with_reducible refine keeps_fst (by assumption) ?_

theorem execFunction0Flr_keeps {a : State} (s : State) (hs : Keeps false a s) :
    KeepsOut false a (execFunction0Flr s) := by
  unfold execFunction0Flr
  try dsimp only
  repeat' first
    | with_reducible intro _ | with_reducible assumption | with_reducible apply keeps_next | with_reducible apply hs
    | simp only [keeps_upd_any] | with_reducible apply foldl_keeps | with_reducible apply ite_keepsOut | with_reducible apply ite_keeps
    | split | with_reducible refine keeps_snd (by assumption) ?_ | with_reducible refine keeps_fst (by assumption) ?_

theorem execDmaTimeout_keeps {a : State} (op : DmaOp) (s : State) (hs : Keeps false a s) :
    KeepsOut false a (execDmaTimeout op s) := by
  unfold execDmaTimeout
  try dsimp only
  repeat' first
    | with_reducible intro _ | with_reducible assumption | with_reducible apply keeps_next | with_reducible apply State.onRunning_keeps
    | with_reducible apply State.stopTask_keeps | with_reducible apply State.mbxEnd_keeps | with_reducible apply State.modMailbox_keeps
    | with_reducible apply State.drawFree_keeps | with_reducible apply State.modSuite_keeps | with_reducible apply hs
    | simp only [keeps_upd_any] | with_reducible apply foldl_keeps | with_reducible apply ite_keepsOut | with_reducible apply ite_keeps
    | split | with_reducible refine keeps_snd (by assumption) ?_ | with_reducible refine keeps_fst (by assumption) ?_

/-! ### Links -/

theorem State.equalize_keeps {a : State} (s : State) (d : Fin 8) (q : Fin 2) (from_ : BitVec 10) (hs : Keeps false a s) :
    Keeps false a (State.equalize s d q from_) := by
  unfold State.equalize
  try dsimp only
  repeat' first
    | with_reducible intro _ | with_reducible assumption | with_reducible apply State.setPort_keeps
    | with_reducible apply State.modPort_keeps | with_reducible apply hs | simp only [keeps_upd_any] | with_reducible apply foldl_keeps
    | with_reducible apply ite_keeps | split | with_reducible refine keeps_snd (by assumption) ?_
    | with_reducible refine keeps_fst (by assumption) ?_

theorem State.retrain_keeps {a : State} (s : State) (d : Fin 8) (q : Fin 2) (hs : Keeps false a s) :
    Keeps false a (State.retrain s d q) := by
  unfold State.retrain
  try dsimp only
  repeat' first
    | with_reducible intro _ | with_reducible assumption | with_reducible apply State.setPort_keeps
    | with_reducible apply State.equalize_keeps | with_reducible apply hs | simp only [keeps_upd_any] | with_reducible apply foldl_keeps
    | with_reducible apply ite_keeps | split | with_reducible refine keeps_snd (by assumption) ?_
    | with_reducible refine keeps_fst (by assumption) ?_

theorem State.trainFail_keeps {a : State} (s : State) (d : Fin 8) (q : Fin 2) (hs : Keeps false a s) :
    Keeps false a (State.trainFail s d q) := by
  unfold State.trainFail
  try dsimp only
  repeat' first
    | with_reducible intro _ | with_reducible assumption | with_reducible apply State.setPort_keeps
    | with_reducible apply State.modPort_keeps | with_reducible apply hs | simp only [keeps_upd_any] | with_reducible apply foldl_keeps
    | with_reducible apply ite_keeps | split | with_reducible refine keeps_snd (by assumption) ?_
    | with_reducible refine keeps_fst (by assumption) ?_

theorem execCodewordReceive_keeps {a : State} (d : Fin 8) (q : Fin 2) (seq : BitVec 10) (ack : BitVec 10) (correctable : Bool) (corrected : Bool) (s : State) (hs : Keeps false a s) :
    KeepsOut false a (execCodewordReceive d q seq ack correctable corrected s) := by
  unfold execCodewordReceive
  try dsimp only
  repeat' first
    | with_reducible intro _ | with_reducible assumption | with_reducible apply keeps_next | with_reducible apply State.modPort_keeps
    | with_reducible apply hs | simp only [keeps_upd_any] | with_reducible apply foldl_keeps | with_reducible apply ite_keepsOut
    | with_reducible apply ite_keeps | split | with_reducible refine keeps_snd (by assumption) ?_
    | with_reducible refine keeps_fst (by assumption) ?_

theorem State.nak_keeps {a : State} (s : State) (d : Fin 8) (q : Fin 2) (seq : ℕ) (hs : Keeps false a s) :
    Keeps false a (State.nak s d q seq) := by
  unfold State.nak
  try dsimp only
  repeat' first
    | with_reducible intro _ | with_reducible assumption | with_reducible apply State.modPort_keeps
    | with_reducible apply State.retrain_keeps | with_reducible apply hs | simp only [keeps_upd_any] | with_reducible apply foldl_keeps
    | with_reducible apply ite_keeps | split | with_reducible refine keeps_snd (by assumption) ?_
    | with_reducible refine keeps_fst (by assumption) ?_

theorem State.scrDrop_keeps {a : State} (s : State) (d : Fin 8) (q : Fin 2) (hs : Keeps false a s) :
    Keeps false a (State.scrDrop s d q) := by
  unfold State.scrDrop
  try dsimp only
  repeat' first
    | with_reducible intro _ | with_reducible assumption | with_reducible apply State.modPort_keeps | with_reducible apply hs
    | simp only [keeps_upd_any] | with_reducible apply foldl_keeps | with_reducible apply ite_keeps | split
    | with_reducible refine keeps_snd (by assumption) ?_ | with_reducible refine keeps_fst (by assumption) ?_

theorem execLink_keeps {a : State} (d : Fin 8) (q : Fin 2) (nak : Option (BitVec 10)) (credits : List ℕ) (reserved : Bool) (s : State) (hs : Keeps false a s) :
    KeepsOut false a (execLink d q nak credits reserved s) := by
  unfold execLink
  try dsimp only
  repeat' first
    | with_reducible intro _ | with_reducible assumption | with_reducible apply keeps_next | with_reducible apply State.scrDrop_keeps
    | with_reducible apply State.modPort_keeps | with_reducible apply State.nak_keeps | with_reducible apply hs | simp only [keeps_upd_any]
    | with_reducible apply foldl_keeps | with_reducible apply ite_keepsOut | with_reducible apply ite_keeps | split
    | with_reducible refine keeps_snd (by assumption) ?_ | with_reducible refine keeps_fst (by assumption) ?_

theorem execIdle_keeps {a : State} (_d : Fin 8) (_q : Fin 2) (s : State) (hs : Keeps false a s) :
    KeepsOut false a (execIdle _d _q s) := by
  unfold execIdle
  try dsimp only
  repeat' first
    | with_reducible intro _ | with_reducible assumption | with_reducible apply keeps_next | with_reducible apply hs
    | simp only [keeps_upd_any] | with_reducible apply foldl_keeps | with_reducible apply ite_keepsOut | with_reducible apply ite_keeps
    | split | with_reducible refine keeps_snd (by assumption) ?_ | with_reducible refine keeps_fst (by assumption) ?_

theorem execKeepalive_keeps {a : State} (_d : Fin 8) (_q : Fin 2) (_time : BitVec 64) (s : State) (hs : Keeps false a s) :
    KeepsOut false a (execKeepalive _d _q _time s) := by
  unfold execKeepalive
  try dsimp only
  repeat' first
    | with_reducible intro _ | with_reducible assumption | with_reducible apply keeps_next | with_reducible apply hs
    | simp only [keeps_upd_any] | with_reducible apply foldl_keeps | with_reducible apply ite_keepsOut | with_reducible apply ite_keeps
    | split | with_reducible refine keeps_snd (by assumption) ?_ | with_reducible refine keeps_fst (by assumption) ?_

theorem execHello_keeps {a : State} (d : Fin 8) (q : Fin 2) (cell : HelloCell) (s : State) (hs : Keeps false a s) :
    KeepsOut false a (execHello d q cell s) := by
  unfold execHello
  try dsimp only
  repeat' first
    | with_reducible intro _ | with_reducible assumption | with_reducible apply keeps_next | with_reducible apply State.setPort_keeps
    | with_reducible apply State.trainFail_keeps | with_reducible apply State.modPort_keeps | with_reducible apply hs
    | simp only [keeps_upd_any] | with_reducible apply foldl_keeps | with_reducible apply ite_keepsOut | with_reducible apply ite_keeps
    | split | with_reducible refine keeps_snd (by assumption) ?_ | with_reducible refine keeps_fst (by assumption) ?_

theorem execSignalDetect_keeps {a : State} (d : Fin 8) (q : Fin 2) (pairs : BitVec 10) (s : State) (hs : Keeps false a s) :
    KeepsOut false a (execSignalDetect d q pairs s) := by
  unfold execSignalDetect
  try dsimp only
  repeat' first
    | with_reducible intro _ | with_reducible assumption | with_reducible apply keeps_next | with_reducible apply State.equalize_keeps
    | with_reducible apply hs | simp only [keeps_upd_any] | with_reducible apply foldl_keeps | with_reducible apply ite_keepsOut
    | with_reducible apply ite_keeps | split | with_reducible refine keeps_snd (by assumption) ?_
    | with_reducible refine keeps_fst (by assumption) ?_

theorem execDetectRetry_keeps {a : State} (d : Fin 8) (q : Fin 2) (s : State) (hs : Keeps false a s) :
    KeepsOut false a (execDetectRetry d q s) := by
  unfold execDetectRetry
  try dsimp only
  repeat' first
    | with_reducible intro _ | with_reducible assumption | with_reducible apply keeps_next | with_reducible apply State.startPort_keeps
    | with_reducible apply hs | simp only [keeps_upd_any] | with_reducible apply foldl_keeps | with_reducible apply ite_keepsOut
    | with_reducible apply ite_keeps | split | with_reducible refine keeps_snd (by assumption) ?_
    | with_reducible refine keeps_fst (by assumption) ?_

theorem execEqualizeDone_keeps {a : State} (d : Fin 8) (q : Fin 2) (good : BitVec 10) (s : State) (hs : Keeps false a s) :
    KeepsOut false a (execEqualizeDone d q good s) := by
  unfold execEqualizeDone
  try dsimp only
  repeat' first
    | with_reducible intro _ | with_reducible assumption | with_reducible apply keeps_next | with_reducible apply State.modPort_keeps
    | with_reducible apply State.setPort_keeps | with_reducible apply hs | simp only [keeps_upd_any] | with_reducible apply foldl_keeps
    | with_reducible apply ite_keepsOut | with_reducible apply ite_keeps | split | with_reducible refine keeps_snd (by assumption) ?_
    | with_reducible refine keeps_fst (by assumption) ?_

theorem execAlignDone_keeps {a : State} (d : Fin 8) (q : Fin 2) (s : State) (hs : Keeps false a s) :
    KeepsOut false a (execAlignDone d q s) := by
  unfold execAlignDone
  try dsimp only
  repeat' first
    | with_reducible intro _ | with_reducible assumption | with_reducible apply keeps_next | with_reducible apply State.setPort_keeps
    | with_reducible apply hs | simp only [keeps_upd_any] | with_reducible apply foldl_keeps | with_reducible apply ite_keepsOut
    | with_reducible apply ite_keeps | split | with_reducible refine keeps_snd (by assumption) ?_
    | with_reducible refine keeps_fst (by assumption) ?_

theorem execTrainingLimitExpiry_keeps {a : State} (d : Fin 8) (q : Fin 2) (s : State) (hs : Keeps false a s) :
    KeepsOut false a (execTrainingLimitExpiry d q s) := by
  unfold execTrainingLimitExpiry
  try dsimp only
  repeat' first
    | with_reducible intro _ | with_reducible assumption | with_reducible apply keeps_next | with_reducible apply State.trainFail_keeps
    | with_reducible apply hs | simp only [keeps_upd_any] | with_reducible apply foldl_keeps | with_reducible apply ite_keepsOut
    | with_reducible apply ite_keeps | split | with_reducible refine keeps_snd (by assumption) ?_
    | with_reducible refine keeps_fst (by assumption) ?_

theorem execLinkLossTimeout_keeps {a : State} (d : Fin 8) (q : Fin 2) (s : State) (hs : Keeps false a s) :
    KeepsOut false a (execLinkLossTimeout d q s) := by
  unfold execLinkLossTimeout
  try dsimp only
  repeat' first
    | with_reducible intro _ | with_reducible assumption | with_reducible apply keeps_next | with_reducible apply State.retrain_keeps
    | with_reducible apply hs | simp only [keeps_upd_any] | with_reducible apply foldl_keeps | with_reducible apply ite_keepsOut
    | with_reducible apply ite_keeps | split | with_reducible refine keeps_snd (by assumption) ?_
    | with_reducible refine keeps_fst (by assumption) ?_

theorem execPairDegrade_keeps {a : State} (d : Fin 8) (q : Fin 2) (pair : Fin 10) (symbols : ℕ) (s : State) (hs : Keeps false a s) :
    KeepsOut false a (execPairDegrade d q pair symbols s) := by
  unfold execPairDegrade
  try dsimp only
  repeat' first
    | with_reducible intro _ | with_reducible assumption | with_reducible apply keeps_next | with_reducible apply State.modPort_keeps
    | with_reducible apply State.retrain_keeps | with_reducible apply hs | simp only [keeps_upd_any] | with_reducible apply foldl_keeps
    | with_reducible apply ite_keepsOut | with_reducible apply ite_keeps | split | with_reducible refine keeps_snd (by assumption) ?_
    | with_reducible refine keeps_fst (by assumption) ?_

theorem execDownRetry_keeps {a : State} (d : Fin 8) (q : Fin 2) (s : State) (hs : Keeps false a s) :
    KeepsOut false a (execDownRetry d q s) := by
  unfold execDownRetry
  try dsimp only
  repeat' first
    | with_reducible intro _ | with_reducible assumption | with_reducible apply keeps_next | with_reducible apply State.setPort_keeps
    | with_reducible apply hs | simp only [keeps_upd_any] | with_reducible apply foldl_keeps | with_reducible apply ite_keepsOut
    | with_reducible apply ite_keeps | split | with_reducible refine keeps_snd (by assumption) ?_
    | with_reducible refine keeps_fst (by assumption) ?_

/-! ### Frames -/

theorem State.noRoute_keeps {a : State} (s : State) (inPort : Option (Fin 16)) (srcDie : Fin 8) (f : Frame) (dim : ℕ) (hs : Keeps false a s) :
    Keeps false a (State.noRoute s inPort srcDie f dim) := by
  unfold State.noRoute
  try dsimp only
  repeat' first
    | with_reducible intro _ | with_reducible assumption | with_reducible apply State.mgtEvent_keeps
    | with_reducible apply State.scrDrop_keeps | with_reducible apply State.oncePerStep_keeps | with_reducible apply State.suiteEvent_keeps
    | with_reducible apply hs | simp only [keeps_upd_any] | with_reducible apply foldl_keeps | with_reducible apply ite_keeps | split
    | with_reducible refine keeps_snd (by assumption) ?_ | with_reducible refine keeps_fst (by assumption) ?_

theorem State.countSent_keeps {a : State} (s : State) (srcDie : Fin 8) (f : Frame) (hs : Keeps false a s) :
    Keeps false a (State.countSent s srcDie f) := by
  unfold State.countSent
  try dsimp only
  repeat' first
    | with_reducible intro _ | with_reducible assumption | with_reducible apply State.modSuite_keeps | with_reducible apply hs
    | simp only [keeps_upd_any] | with_reducible apply foldl_keeps | with_reducible apply ite_keeps | split
    | with_reducible refine keeps_snd (by assumption) ?_ | with_reducible refine keeps_fst (by assumption) ?_

theorem State.forward_keeps {a : State} (s : State) (inPort : Option (Fin 16)) (here : Fin 8) (f : Frame) (dim : ℕ) (hs : Keeps false a s) :
    ∀ t, (State.forward s inPort here f dim) = some t → Keeps false a t.1 := by
  unfold State.forward
  dsimp only
  intro t e
  split at e
  · cases e
    exact State.noRoute_keeps _ _ _ _ _ hs
  · obtain ⟨x, _, rfl⟩ := Option.map_eq_some_iff.mp e
    dsimp only
    split
    · exact State.countSent_keeps _ _ _ (State.crossEdges_keeps _ _ _ _ (State.modPort_keeps _ _ _ _ hs))
    · exact State.crossEdges_keeps _ _ _ _ (State.modPort_keeps _ _ _ _ hs)

theorem State.inject_keeps {a : State} (s : State) (srcDie : Fin 8) (f : Frame) (hs : Keeps false a s) :
    Keeps false a (State.inject s srcDie f) := by
  unfold State.inject
  try dsimp only
  repeat' first
    | with_reducible intro _ | with_reducible assumption | with_reducible apply State.crossEdges_keeps
    | with_reducible refine State.forward_keeps _ _ _ _ _ ?_ _ (by assumption) | with_reducible apply State.modTask_keeps
    | with_reducible apply hs | simp only [keeps_upd_any] | with_reducible apply foldl_keeps | with_reducible apply ite_keeps | split
    | with_reducible refine keeps_snd (by assumption) ?_ | with_reducible refine keeps_fst (by assumption) ?_

theorem execFrameForward_keeps {a : State} (inPort : Option (Fin 16)) (srcDie : Fin 8) (f : Frame) (s : State) (hs : Keeps false a s) :
    KeepsOut false a (execFrameForward inPort srcDie f s) := by
  unfold execFrameForward
  try dsimp only
  repeat' first
    | with_reducible intro _ | with_reducible assumption | with_reducible apply keeps_next | with_reducible apply State.inject_keeps
    | with_reducible apply State.modPort_keeps | with_reducible apply State.scrDrop_keeps | with_reducible apply State.crossEdges_keeps
    | with_reducible refine State.forward_keeps _ _ _ _ _ ?_ _ (by assumption) | with_reducible apply hs | simp only [keeps_upd_any]
    | with_reducible apply foldl_keeps | with_reducible apply ite_keepsOut | with_reducible apply ite_keeps | split
    | with_reducible refine keeps_snd (by assumption) ?_ | with_reducible refine keeps_fst (by assumption) ?_

theorem State.authFail_keeps {a : State} (s : State) (d : Fin 8) (q : Fin 2) (k : Fin 8) (f : Frame) (reason : ℕ) (hs : Keeps false a s) :
    Keeps false a (State.authFail s d q k f reason) := by
  unfold State.authFail
  try dsimp only
  repeat' first
    | with_reducible intro _ | with_reducible assumption | with_reducible apply State.modPort_keeps
    | with_reducible apply State.oncePerStep_keeps | with_reducible apply State.suiteEvent_keeps | with_reducible apply hs
    | simp only [keeps_upd_any] | with_reducible apply foldl_keeps | with_reducible apply ite_keeps | split
    | with_reducible refine keeps_snd (by assumption) ?_ | with_reducible refine keeps_fst (by assumption) ?_

theorem State.receiveFrame_keeps {a : State} (s : State) (d : Fin 8) (q : Fin 2) (f : Frame) (type : BitVec 8) (g : State → Fin 8 → State) (hs : Keeps false a s) (hg : ∀ x0 x1, Keeps false a x0 → Keeps false a (g x0 x1)) :
    Keeps false a (State.receiveFrame s d q f type g) := by
  unfold State.receiveFrame
  try dsimp only
  repeat' first
    | with_reducible intro _ | with_reducible assumption | with_reducible apply State.modPort_keeps
    | with_reducible apply State.scrDrop_keeps | with_reducible apply State.authFail_keeps | with_reducible apply State.modSuite_keeps
    | with_reducible apply hs | with_reducible apply hg | simp only [keeps_upd_any] | with_reducible apply foldl_keeps
    | with_reducible apply ite_keeps | split | with_reducible refine keeps_snd (by assumption) ?_
    | with_reducible refine keeps_fst (by assumption) ?_

theorem State.answer_keeps {a : State} (s : State) (k : Fin 8) (f : Frame) (hs : Keeps false a s) :
    Keeps false a (State.answer s k f) := by
  unfold State.answer
  try dsimp only
  repeat' first
    | with_reducible intro _ | with_reducible assumption | with_reducible apply State.modSuite_keeps | with_reducible apply hs
    | simp only [keeps_upd_any] | with_reducible apply foldl_keeps | with_reducible apply ite_keeps | split
    | with_reducible refine keeps_snd (by assumption) ?_ | with_reducible refine keeps_fst (by assumption) ?_

theorem execExchData_keeps {a : State} (d : Fin 8) (q : Fin 2) (f : Frame) (vals : List Word) (marks : List ℕ) (grids : List ℤ) (s : State) (hs : Keeps false a s) :
    KeepsOut false a (execExchData d q f vals marks grids s) := by
  unfold execExchData
  try dsimp only
  repeat' first
    | with_reducible intro _ | with_reducible assumption | with_reducible apply keeps_next | with_reducible apply State.receiveFrame_keeps
    | with_reducible apply State.answer_keeps | with_reducible apply State.modSuite_keeps | with_reducible apply hs
    | simp only [keeps_upd_any] | with_reducible apply foldl_keeps | with_reducible apply ite_keepsOut | with_reducible apply ite_keeps
    | split | with_reducible refine keeps_snd (by assumption) ?_ | with_reducible refine keeps_fst (by assumption) ?_

theorem execExchCarry_keeps {a : State} (d : Fin 8) (q : Fin 2) (f : Frame) (carries : List (BitVec 16)) (s : State) (hs : Keeps false a s) :
    KeepsOut false a (execExchCarry d q f carries s) := by
  unfold execExchCarry
  try dsimp only
  repeat' first
    | with_reducible intro _ | with_reducible assumption | with_reducible apply keeps_next | with_reducible apply State.receiveFrame_keeps
    | with_reducible apply State.modSuite_keeps | with_reducible apply hs | simp only [keeps_upd_any] | with_reducible apply foldl_keeps
    | with_reducible apply ite_keepsOut | with_reducible apply ite_keeps | split | with_reducible refine keeps_snd (by assumption) ?_
    | with_reducible refine keeps_fst (by assumption) ?_

theorem execExchCtrl_keeps {a : State} (d : Fin 8) (q : Fin 2) (f : Frame) (msg : ExchCtrl) (s : State) (hs : Keeps false a s) :
    KeepsOut false a (execExchCtrl d q f msg s) := by
  unfold execExchCtrl
  try dsimp only
  repeat' first
    | with_reducible intro _ | with_reducible assumption | with_reducible apply keeps_next | with_reducible apply State.receiveFrame_keeps
    | with_reducible apply State.modTask_keeps | with_reducible apply State.barrierDone_keeps | with_reducible apply State.modSuite_keeps
    | with_reducible apply hs | simp only [keeps_upd_any] | with_reducible apply foldl_keeps | with_reducible apply ite_keepsOut
    | with_reducible apply ite_keeps | split | with_reducible refine keeps_snd (by assumption) ?_
    | with_reducible refine keeps_fst (by assumption) ?_

theorem State.sendAgain_keeps {a : State} (s : State) (die : Fin 8) (f : Frame) (hs : Keeps false a s) :
    ∀ t, (State.sendAgain s die f) = some t → Keeps false a t := by
  unfold State.sendAgain
  intro t e
  split at e
  · cases e
  · split at e
    · cases e
    · obtain ⟨x, hx, rfl⟩ := Option.map_eq_some_iff.mp e
      exact State.forward_keeps _ _ _ _ _ hs _ hx

theorem execChunkResend_keeps {a : State} (k : Fin 8) (h : ℕ) (stage : ℕ) (step : ℕ) (chunk : ℕ) (s : State) (hs : Keeps false a s) :
    KeepsOut false a (execChunkResend k h stage step chunk s) := by
  unfold execChunkResend
  refine keeps_next (State.onRunning_keeps _ _ _ _ hs fun t => ?_)
  split
  · split
    · exact hs
    · split
      · exact State.exchangeTimeout_keeps _ _ _ hs
      · split
        · exact hs
        · dsimp only
          split
          · exact hs
          · rename_i s0 h0
            have k0 : Keeps false a s0 := State.sendAgain_keeps _ _ _ hs _ h0
            have again : ∀ d g, Keeps false a ((s0.sendAgain d g).getD s0) := fun d g => by
              cases h1 : s0.sendAgain d g with
              | none => exact k0
              | some s1 => exact State.sendAgain_keeps _ _ _ k0 _ h1
            repeat' first | with_reducible apply State.suiteEvent_keeps | with_reducible apply State.modTask_keeps | with_reducible apply ite_keeps | exact again _ _ | exact k0 | split
  · exact hs

theorem execGetReq_keeps {a : State} (d : Fin 8) (q : Fin 2) (f : Frame) (requesterKey : List Byte) (s : State) (hs : Keeps false a s) :
    KeepsOut false a (execGetReq d q f requesterKey s) := by
  unfold execGetReq
  try dsimp only
  repeat' first
    | with_reducible intro _ | with_reducible assumption | with_reducible apply keeps_next | with_reducible apply State.receiveFrame_keeps
    | with_reducible apply State.answer_keeps | with_reducible apply State.memError_keeps | with_reducible apply State.suiteEvent_keeps
    | with_reducible apply hs | simp only [keeps_upd_any] | with_reducible apply foldl_keeps | with_reducible apply ite_keepsOut
    | with_reducible apply ite_keeps | split | with_reducible refine keeps_snd (by assumption) ?_
    | with_reducible refine keeps_fst (by assumption) ?_

theorem execGetRsp_keeps {a : State} (d : Fin 8) (q : Fin 2) (f : Frame) (h : ℕ) (bytes : List Byte) (s : State) (hs : Keeps false a s) :
    KeepsOut false a (execGetRsp d q f h bytes s) := by
  unfold execGetRsp
  try dsimp only
  repeat' first
    | with_reducible intro _ | with_reducible assumption | with_reducible apply keeps_next | with_reducible apply State.receiveFrame_keeps
    | with_reducible apply State.runTask_keeps | with_reducible apply State.write_keeps | with_reducible apply State.modTask_keeps
    | with_reducible apply State.modSuite_keeps | with_reducible apply hs | simp only [keeps_upd_any] | with_reducible apply foldl_keeps
    | with_reducible apply ite_keepsOut | with_reducible apply ite_keeps | split | with_reducible refine keeps_snd (by assumption) ?_
    | with_reducible refine keeps_fst (by assumption) ?_

theorem execPut_keeps {a : State} (d : Fin 8) (q : Fin 2) (f : Frame) (bytes : List Byte) (s : State) (hs : Keeps false a s) :
    KeepsOut false a (execPut d q f bytes s) := by
  unfold execPut
  try dsimp only
  repeat' first
    | with_reducible intro _ | with_reducible assumption | with_reducible apply keeps_next | with_reducible apply State.receiveFrame_keeps
    | with_reducible apply State.answer_keeps | with_reducible apply State.slotWrite_keeps | with_reducible apply State.write_keeps
    | with_reducible apply State.memError_keeps | with_reducible apply hs | simp only [keeps_upd_any] | with_reducible apply foldl_keeps
    | with_reducible apply ite_keepsOut | with_reducible apply ite_keeps | split | with_reducible refine keeps_snd (by assumption) ?_
    | with_reducible refine keeps_fst (by assumption) ?_

theorem execPairKey_keeps {a : State} (d : Fin 8) (q : Fin 2) (m : PairKeyMsg) (s : State) (hs : Keeps false a s) :
    KeepsOut false a (execPairKey d q m s) := by
  unfold execPairKey
  try dsimp only
  repeat' first
    | with_reducible intro _ | with_reducible assumption | with_reducible apply keeps_next | with_reducible apply State.scrDrop_keeps
    | with_reducible apply State.crossEdges_keeps | with_reducible apply State.modPort_keeps | with_reducible apply State.modSuite_keeps
    | with_reducible apply State.suiteEvent_keeps | with_reducible apply hs | simp only [keeps_upd_any] | with_reducible apply foldl_keeps
    | with_reducible apply ite_keepsOut | with_reducible apply ite_keeps | split | with_reducible refine keeps_snd (by assumption) ?_
    | with_reducible refine keeps_fst (by assumption) ?_

theorem execPairKeyRotation_keeps {a : State} (k : Fin 8) (peer : ℕ) (s : State) (hs : Keeps false a s) :
    KeepsOut false a (execPairKeyRotation k peer s) := by
  unfold execPairKeyRotation
  try dsimp only
  repeat' first
    | with_reducible intro _ | with_reducible assumption | with_reducible apply keeps_next | with_reducible apply State.suiteEvent_keeps
    | with_reducible apply State.modSuite_keeps | with_reducible apply hs | simp only [keeps_upd_any] | with_reducible apply foldl_keeps
    | with_reducible apply ite_keepsOut | with_reducible apply ite_keeps | split | with_reducible refine keeps_snd (by assumption) ?_
    | with_reducible refine keeps_fst (by assumption) ?_

theorem execPreviousPairKeyDestroy_keeps {a : State} (k : Fin 8) (peer : ℕ) (s : State) (hs : Keeps false a s) :
    KeepsOut false a (execPreviousPairKeyDestroy k peer s) := by
  unfold execPreviousPairKeyDestroy
  try dsimp only
  repeat' first
    | with_reducible intro _ | with_reducible assumption | with_reducible apply keeps_next | with_reducible apply State.modSuite_keeps
    | with_reducible apply hs | simp only [keeps_upd_any] | with_reducible apply foldl_keeps | with_reducible apply ite_keepsOut
    | with_reducible apply ite_keeps | split | with_reducible refine keeps_snd (by assumption) ?_
    | with_reducible refine keeps_fst (by assumption) ?_

/-! ### Sync -/

theorem State.tsyncEvent_keeps {a : State} (s : State) (kind : ℕ) (port : ℕ) (offset : ℤ) (hs : Keeps false a s) :
    Keeps false a (State.tsyncEvent s kind port offset) := by
  unfold State.tsyncEvent
  try dsimp only
  repeat' first
    | with_reducible intro _ | with_reducible assumption | with_reducible apply State.mgtEvent_keeps | with_reducible apply hs
    | simp only [keeps_upd_any] | with_reducible apply foldl_keeps | with_reducible apply ite_keeps | split
    | with_reducible refine keeps_snd (by assumption) ?_ | with_reducible refine keeps_fst (by assumption) ?_

theorem State.setParent_keeps {a : State} (s : State) (port : ℕ) (hs : Keeps false a s) :
    Keeps false a (State.setParent s port) := by
  unfold State.setParent
  try dsimp only
  repeat' first
    | with_reducible intro _ | with_reducible assumption | with_reducible apply State.modPort_keeps
    | with_reducible apply State.tsyncEvent_keeps | with_reducible apply hs | simp only [keeps_upd_any] | with_reducible apply foldl_keeps
    | with_reducible apply ite_keeps | split | with_reducible refine keeps_snd (by assumption) ?_
    | with_reducible refine keeps_fst (by assumption) ?_

theorem execTsyncSend_keeps {a : State} (d : Fin 8) (q : Fin 2) (s : State) (hs : Keeps false a s) :
    KeepsOut false a (execTsyncSend d q s) := by
  unfold execTsyncSend
  try dsimp only
  repeat' first
    | with_reducible intro _ | with_reducible assumption | with_reducible apply keeps_next | with_reducible apply State.setParent_keeps
    | with_reducible apply hs | simp only [keeps_upd_any] | with_reducible apply foldl_keeps | with_reducible apply ite_keepsOut
    | with_reducible apply ite_keeps | split | with_reducible refine keeps_snd (by assumption) ?_
    | with_reducible refine keeps_fst (by assumption) ?_

theorem State.applyOffset_keeps {a : State} (s : State) (m : ℤ) (hs : Keeps false a s) :
    Keeps false a (State.applyOffset s m) := by
  unfold State.applyOffset
  try dsimp only
  repeat' first
    | with_reducible intro _ | with_reducible assumption | with_reducible apply State.tsyncEvent_keeps
    | with_reducible apply State.setParent_keeps | with_reducible apply hs | simp only [keeps_upd_any] | with_reducible apply foldl_keeps
    | with_reducible apply ite_keeps | split | with_reducible refine keeps_snd (by assumption) ?_
    | with_reducible refine keeps_fst (by assumption) ?_

theorem execTsync_keeps {a : State} (d : Fin 8) (q : Fin 2) (cell : TsyncCell) (phase : Fin 8) (s : State) (hs : Keeps false a s) :
    KeepsOut false a (execTsync d q cell phase s) := by
  unfold execTsync
  try dsimp only
  repeat' first
    | with_reducible intro _ | with_reducible assumption | with_reducible apply keeps_next | with_reducible apply State.scrDrop_keeps
    | with_reducible apply State.modPort_keeps | with_reducible apply State.applyOffset_keeps | with_reducible apply hs
    | simp only [keeps_upd_any] | with_reducible apply foldl_keeps | with_reducible apply ite_keepsOut | with_reducible apply ite_keeps
    | split | with_reducible refine keeps_snd (by assumption) ?_ | with_reducible refine keeps_fst (by assumption) ?_

end Sys2Proof.Machine
end

