-- ==== Sys2Proof/Laws/KeepsModule.lean ====
section
/-! SUPPORT. What each operation keeps (`Keeps`), one lemma per operation, in the model's order: firmware, boot, health, power, telemetry and security. -/

namespace Sys2Proof.Machine

/-! ### Firmware -/

theorem State.setStatus_keeps {a : State} (s : State) (f : StatusArea → StatusArea) (hs : Keeps false a s) :
    Keeps false a (State.setStatus s f) := by
  unfold State.setStatus
  try dsimp only
  repeat' first
    | with_reducible intro _ | with_reducible assumption | with_reducible apply hs | simp only [keeps_upd_any]
    | with_reducible apply foldl_keeps | with_reducible apply ite_keeps | split | with_reducible refine keeps_snd (by assumption) ?_
    | with_reducible refine keeps_fst (by assumption) ?_

theorem State.putFw_keeps {a : State} (s : State) (cls : ℕ) (b : Bool) (img : Option FwImage) (hs : Keeps false a s) :
    Keeps false a (State.putFw s cls b img) := by
  unfold State.putFw
  try dsimp only
  repeat' first
    | with_reducible intro _ | with_reducible assumption | with_reducible apply hs | simp only [keeps_upd_any]
    | with_reducible apply foldl_keeps | with_reducible apply ite_keeps | split | with_reducible refine keeps_snd (by assumption) ?_
    | with_reducible refine keeps_fst (by assumption) ?_

theorem execFwStage_keeps {a : State} (fn : Fin 9) (img : FwImage) (s : State) (hs : Keeps false a s) :
    KeepsOut false a (execFwStage fn img s) := by
  unfold execFwStage
  try dsimp only
  repeat' first
    | with_reducible intro _ | with_reducible assumption | with_reducible apply keeps_next | with_reducible apply State.command_keeps
    | with_reducible apply State.mbxEnd_keeps | with_reducible apply State.putFw_keeps | with_reducible apply State.setStatus_keeps
    | with_reducible apply State.setFwState_keeps | with_reducible apply State.mgtEvent_keeps | with_reducible apply hs
    | simp only [keeps_upd_any] | with_reducible apply foldl_keeps | with_reducible apply ite_keepsOut | with_reducible apply ite_keeps
    | split | with_reducible refine keeps_snd (by assumption) ?_ | with_reducible refine keeps_fst (by assumption) ?_

theorem execFwUnstage_keeps {a : State} (fn : Fin 9) (cls : ℕ) (s : State) (hs : Keeps false a s) :
    KeepsOut false a (execFwUnstage fn cls s) := by
  unfold execFwUnstage
  try dsimp only
  repeat' first
    | with_reducible intro _ | with_reducible assumption | with_reducible apply keeps_next | with_reducible apply State.command_keeps
    | with_reducible apply State.mbxEnd_keeps | with_reducible apply State.setStatus_keeps | with_reducible apply State.putFw_keeps
    | with_reducible apply State.setFwState_keeps | with_reducible apply hs | simp only [keeps_upd_any] | with_reducible apply foldl_keeps
    | with_reducible apply ite_keepsOut | with_reducible apply ite_keeps | split | with_reducible refine keeps_snd (by assumption) ?_
    | with_reducible refine keeps_fst (by assumption) ?_

theorem State.takeConfig_keeps {a : State} (s : State) (cls : ℕ) (img : FwImage) (hs : Keeps false a s) :
    Keeps false a (State.takeConfig s cls img) := by
  unfold State.takeConfig
  try dsimp only
  repeat' first
    | with_reducible intro _ | with_reducible assumption | with_reducible apply hs | simp only [keeps_upd_any]
    | with_reducible apply foldl_keeps | with_reducible apply ite_keeps | split | with_reducible refine keeps_snd (by assumption) ?_
    | with_reducible refine keeps_fst (by assumption) ?_

theorem State.switchClass_keeps {a : State} (s : State) (cls : ℕ) (revert : Bool) (hs : Keeps false a s) :
    Keeps false a (State.switchClass s cls revert) := by
  unfold State.switchClass
  try dsimp only
  repeat' first
    | with_reducible intro _ | with_reducible assumption | with_reducible apply State.setStatus_keeps
    | with_reducible apply State.takeConfig_keeps | with_reducible apply hs | simp only [keeps_upd_any] | with_reducible apply foldl_keeps
    | with_reducible apply ite_keeps | split | with_reducible refine keeps_snd (by assumption) ?_
    | with_reducible refine keeps_fst (by assumption) ?_

theorem State.logSwitched_keeps {a : State} (s : State) (cls : ℕ) (mode : ℕ) (revert : Bool) (hs : Keeps false a s) :
    Keeps false a (State.logSwitched s cls mode revert) := by
  unfold State.logSwitched
  try dsimp only
  repeat' first
    | with_reducible intro _ | with_reducible assumption | with_reducible apply State.mgtEvent_keeps | with_reducible apply hs
    | simp only [keeps_upd_any] | with_reducible apply foldl_keeps | with_reducible apply ite_keeps | split
    | with_reducible refine keeps_snd (by assumption) ?_ | with_reducible refine keeps_fst (by assumption) ?_

theorem State.nextClass_keeps {a : State} (s : State) (revert : Bool) (y2 : List ℕ) (hs : Keeps false a s) :
    Keeps false a (State.nextClass s revert y2) := by
  induction y2 generalizing s with
  | nil => exact State.setFwState_keeps _ _ (State.modMgt_keeps _ _ (keeps_upd_any.2 hs))
  | cons c cs ih =>
    unfold State.nextClass
    dsimp only
    split
    · exact ih _ (State.modMgt_keeps _ _ (State.logSwitched_keeps _ _ _ _ (State.switchClass_keeps _ _ _ hs)))
    · exact State.modMgt_keeps _ _ (keeps_upd_any.2 hs)

theorem State.handedOver_keeps {a : State} (s : State) (gone : ℕ → Bool) (hs : Keeps false a s) :
    Keeps false a (State.handedOver s gone) := by
  unfold State.handedOver
  try dsimp only
  repeat' first
    | with_reducible intro _ | with_reducible assumption | with_reducible apply State.modMgt_keeps
    | with_reducible apply State.logSwitched_keeps | with_reducible apply State.switchClass_keeps
    | with_reducible apply State.nextClass_keeps | with_reducible apply hs | simp only [keeps_upd_any] | with_reducible apply foldl_keeps
    | with_reducible apply ite_keeps | split | with_reducible refine keeps_snd (by assumption) ?_
    | with_reducible refine keeps_fst (by assumption) ?_

theorem State.arm_keeps {a : State} (s : State) (fn : Fin 9) (revert : Bool) (time : ℕ) (hs : Keeps false a s) :
    Keeps false a (State.arm s fn revert time) := by
  unfold State.arm
  try dsimp only
  repeat' first
    | with_reducible intro _ | with_reducible assumption | with_reducible apply State.mbxEnd_keeps
    | with_reducible apply State.setFwState_keeps | with_reducible apply State.modMgt_keeps | with_reducible apply hs
    | simp only [keeps_upd_any] | with_reducible apply foldl_keeps | with_reducible apply ite_keeps | split
    | with_reducible refine keeps_snd (by assumption) ?_ | with_reducible refine keeps_fst (by assumption) ?_

theorem State.startHitless_keeps {a : State} (s : State) (fn : Fin 9) (revert : Bool) (hs : Keeps false a s) :
    Keeps false a (State.startHitless s fn revert) := by
  unfold State.startHitless
  try dsimp only
  repeat' first
    | with_reducible intro _ | with_reducible assumption | with_reducible apply State.mbxEnd_keeps
    | with_reducible apply State.setFwState_keeps | with_reducible apply State.modMgt_keeps | with_reducible apply State.nextClass_keeps
    | with_reducible apply hs | simp only [keeps_upd_any] | with_reducible apply foldl_keeps | with_reducible apply ite_keeps | split
    | with_reducible refine keeps_snd (by assumption) ?_ | with_reducible refine keeps_fst (by assumption) ?_

theorem State.mayActivate_keeps {a : State} (s : State) (fn : Fin 9) (f : State → State) (hs : Keeps false a s) (hf : ∀ x0, Keeps false a x0 → Keeps false a (f x0)) :
    Keeps false a (State.mayActivate s fn f) := by
  unfold State.mayActivate
  try dsimp only
  repeat' first
    | with_reducible intro _ | with_reducible assumption | with_reducible apply State.mbxEnd_keeps | with_reducible apply hs
    | with_reducible apply hf | simp only [keeps_upd_any] | with_reducible apply foldl_keeps | with_reducible apply ite_keeps | split
    | with_reducible refine keeps_snd (by assumption) ?_ | with_reducible refine keeps_fst (by assumption) ?_

theorem execFwActivateScheduled_keeps {a : State} (fn : Fin 9) (t : ℕ) (s : State) (hs : Keeps false a s) :
    KeepsOut false a (execFwActivateScheduled fn t s) := by
  unfold execFwActivateScheduled
  try dsimp only
  repeat' first
    | with_reducible intro _ | with_reducible assumption | with_reducible apply keeps_next | with_reducible apply State.command_keeps
    | with_reducible apply State.mayActivate_keeps | with_reducible apply State.arm_keeps | with_reducible apply hs
    | simp only [keeps_upd_any] | with_reducible apply foldl_keeps | with_reducible apply ite_keepsOut | with_reducible apply ite_keeps
    | split | with_reducible refine keeps_snd (by assumption) ?_ | with_reducible refine keeps_fst (by assumption) ?_

theorem execFwActivateHitless_keeps {a : State} (fn : Fin 9) (s : State) (hs : Keeps false a s) :
    KeepsOut false a (execFwActivateHitless fn s) := by
  unfold execFwActivateHitless
  try dsimp only
  repeat' first
    | with_reducible intro _ | with_reducible assumption | with_reducible apply keeps_next | with_reducible apply State.command_keeps
    | with_reducible apply State.mayActivate_keeps | with_reducible apply State.startHitless_keeps | with_reducible apply hs
    | simp only [keeps_upd_any] | with_reducible apply foldl_keeps | with_reducible apply ite_keepsOut | with_reducible apply ite_keeps
    | split | with_reducible refine keeps_snd (by assumption) ?_ | with_reducible refine keeps_fst (by assumption) ?_

theorem execFwRevert_keeps {a : State} (fn : Fin 9) (mode : ℕ) (t : ℕ) (s : State) (hs : Keeps false a s) :
    KeepsOut false a (execFwRevert fn mode t s) := by
  unfold execFwRevert
  try dsimp only
  repeat' first
    | with_reducible intro _ | with_reducible assumption | with_reducible apply keeps_next | with_reducible apply State.command_keeps
    | with_reducible apply State.mbxEnd_keeps | with_reducible apply State.arm_keeps | with_reducible apply State.startHitless_keeps
    | with_reducible apply hs | simp only [keeps_upd_any] | with_reducible apply foldl_keeps | with_reducible apply ite_keepsOut
    | with_reducible apply ite_keeps | split | with_reducible refine keeps_snd (by assumption) ?_
    | with_reducible refine keeps_fst (by assumption) ?_

theorem execScheduledActivation_keeps {a : State} (s : State) (hs : Keeps false a s) :
    KeepsOut false a (execScheduledActivation s) := by
  unfold execScheduledActivation
  try dsimp only
  repeat' first
    | with_reducible intro _ | with_reducible assumption | with_reducible apply keeps_next | with_reducible apply State.modMgt_keeps
    | with_reducible apply State.setFwState_keeps | with_reducible apply State.mgtEvent_keeps | with_reducible apply State.logSwitched_keeps
    | with_reducible apply State.switchClass_keeps | with_reducible apply State.retrain_keeps | with_reducible apply hs
    | simp only [keeps_upd_any] | with_reducible apply foldl_keeps | with_reducible apply ite_keepsOut | with_reducible apply ite_keeps
    | split | with_reducible refine keeps_snd (by assumption) ?_ | with_reducible refine keeps_fst (by assumption) ?_

theorem execHitlessHandover_keeps {a : State} (proc : ℕ) (s : State) (hs : Keeps false a s) :
    KeepsOut false a (execHitlessHandover proc s) := by
  unfold execHitlessHandover
  try dsimp only
  repeat' first
    | with_reducible intro _ | with_reducible assumption | with_reducible apply keeps_next | with_reducible apply State.handedOver_keeps
    | with_reducible apply hs | simp only [keeps_upd_any] | with_reducible apply foldl_keeps | with_reducible apply ite_keepsOut
    | with_reducible apply ite_keeps | split | with_reducible refine keeps_snd (by assumption) ?_
    | with_reducible refine keeps_fst (by assumption) ?_

theorem execHandoverTimeout_keeps {a : State} (proc : ℕ) (s : State) (hs : Keeps false a s) :
    KeepsOut false a (execHandoverTimeout proc s) := by
  unfold execHandoverTimeout
  try dsimp only
  repeat' first
    | with_reducible intro _ | with_reducible assumption | with_reducible apply keeps_next | with_reducible apply State.logSwitched_keeps
    | with_reducible apply State.switchClass_keeps | with_reducible apply State.mgtEvent_keeps | with_reducible apply State.setFwState_keeps
    | with_reducible apply State.modMgt_keeps | with_reducible apply hs | simp only [keeps_upd_any] | with_reducible apply foldl_keeps
    | with_reducible apply ite_keepsOut | with_reducible apply ite_keeps | split | with_reducible refine keeps_snd (by assumption) ?_
    | with_reducible refine keeps_fst (by assumption) ?_

theorem execFwConfirm_keeps {a : State} (fn : Fin 9) (s : State) (hs : Keeps false a s) :
    KeepsOut false a (execFwConfirm fn s) := by
  refine keeps_next (State.command_keeps _ _ _ _ hs fun t ht => ?_)
  dsimp only
  refine ite_keeps (State.mbxEnd_keeps _ _ _ _ ht) ?_
  refine State.mbxEnd_keeps _ _ _ _ (State.setFwState_keeps _ _ (State.mgtEvent_keeps _ _ _ _ _ (State.setStatus_keeps _ _ ?_)))
  refine keeps_fuses (fl := (classesOf t.flash.status.trial).foldl Flash.releaseConfig t.flash) ht ?_
  have hf : a.fuses.Grown ((classesOf t.flash.status.trial).foldl (fun f c => match t.fwRun c with
      | some i => f.raise (c - 1) i.secver | none => f) t.fuses) := by
    refine foldl_grown ht.fuses fun u c hu => ?_
    split
    · exact Fuses.raise_grown _ _ hu
    · exact hu
  split
  · split
    · exact Fuses.raise_grown _ _ hf
    · exact hf
  · exact hf

theorem execPrimerStage_keeps {a : State} (fn : Fin 9) (img : Primer) (record : Option OwnerRecord) (s : State) (hs : Keeps false a s) :
    KeepsOut false a (execPrimerStage fn img record s) := by
  refine keeps_next (State.command_keeps _ _ _ _ hs fun t ht => ?_)
  dsimp only
  refine ite_keeps (State.mbxEnd_keeps _ _ _ _ ht) (ite_keeps (State.mbxEnd_keeps _ _ _ _ ht) ?_)
  exact State.mbxEnd_keeps _ _ _ _ (State.setStatus_keeps _ _ (keeps_fuses ht (Fuses.slots_grown _ ht.fuses)))

theorem execPrimerSelect_keeps {a : State} (fn : Fin 9) (slot : ℕ) (s : State) (hs : Keeps false a s) :
    KeepsOut false a (execPrimerSelect fn slot s) := by
  unfold execPrimerSelect
  try dsimp only
  repeat' first
    | with_reducible intro _ | with_reducible assumption | with_reducible apply keeps_next | with_reducible apply State.command_keeps
    | with_reducible apply State.mbxEnd_keeps | with_reducible apply State.setStatus_keeps | with_reducible apply hs
    | simp only [keeps_upd_any] | with_reducible apply foldl_keeps | with_reducible apply ite_keepsOut | with_reducible apply ite_keeps
    | split | with_reducible refine keeps_snd (by assumption) ?_ | with_reducible refine keeps_fst (by assumption) ?_

/-! ### Boot -/

theorem State.fresh_keeps {a : State} (s : State) (hs : Keeps false a s) :
    Keeps false a (State.fresh s) := by
  exact ⟨fun i => ⟨⟨rfl, (hs.inv i).1.2⟩, rfl⟩, hs.pending, hs.keyGen, hs.free, hs.fuses, nofun⟩

theorem execColdReset_keeps {a : State} (straps : Straps) (s : State) (hs : Keeps false a s) :
    KeepsOut false a (execColdReset straps s) := by
  unfold execColdReset
  try dsimp only
  repeat' first
    | with_reducible intro _ | with_reducible assumption | with_reducible apply keeps_next | with_reducible apply State.fresh_keeps
    | with_reducible apply hs | simp only [keeps_upd_any] | with_reducible apply foldl_keeps | with_reducible apply ite_keepsOut
    | with_reducible apply ite_keeps | split | with_reducible refine keeps_snd (by assumption) ?_
    | with_reducible refine keeps_fst (by assumption) ?_

theorem State.moduleReset_keeps {a : State} (s : State) (straps : Straps) (hs : Keeps false a s) :
    Keeps false a (State.moduleReset s straps) := by
  unfold State.moduleReset
  try dsimp only
  repeat' first
    | with_reducible intro _ | with_reducible assumption | with_reducible apply State.fresh_keeps | with_reducible apply hs
    | simp only [keeps_upd_any] | with_reducible apply foldl_keeps | with_reducible apply ite_keeps | split
    | with_reducible refine keeps_snd (by assumption) ?_ | with_reducible refine keeps_fst (by assumption) ?_

theorem execModuleReset_keeps {a : State} (lowNs : ℕ) (straps : Straps) (s : State) (hs : Keeps false a s) :
    KeepsOut false a (execModuleReset lowNs straps s) := by
  unfold execModuleReset
  try dsimp only
  repeat' first
    | with_reducible intro _ | with_reducible assumption | with_reducible apply keeps_next | with_reducible apply State.moduleReset_keeps
    | with_reducible apply hs | simp only [keeps_upd_any] | with_reducible apply foldl_keeps | with_reducible apply ite_keepsOut
    | with_reducible apply ite_keeps | split | with_reducible refine keeps_snd (by assumption) ?_
    | with_reducible refine keeps_fst (by assumption) ?_

theorem State.powerOff_keeps {a : State} (s : State) (ph : PowerPhase) (trip : Bool) (hs : Keeps false a s) :
    Keeps false a (State.powerOff s ph trip) := by
  unfold State.powerOff
  try dsimp only
  repeat' first
    | with_reducible intro _ | with_reducible assumption | with_reducible apply State.fresh_keeps | with_reducible apply hs
    | simp only [keeps_upd_any] | with_reducible apply foldl_keeps | with_reducible apply ite_keeps | split
    | with_reducible refine keeps_snd (by assumption) ?_ | with_reducible refine keeps_fst (by assumption) ?_

theorem execPowerOffSequence_keeps {a : State} (thermtrip : Bool) (vinOff : Bool) (s : State) (hs : Keeps false a s) :
    KeepsOut false a (execPowerOffSequence thermtrip vinOff s) := by
  unfold execPowerOffSequence
  try dsimp only
  repeat' first
    | with_reducible intro _ | with_reducible assumption | with_reducible apply keeps_next | with_reducible apply State.powerOff_keeps
    | with_reducible apply hs | simp only [keeps_upd_any] | with_reducible apply foldl_keeps | with_reducible apply ite_keepsOut
    | with_reducible apply ite_keeps | split | with_reducible refine keeps_snd (by assumption) ?_
    | with_reducible refine keeps_fst (by assumption) ?_

theorem execInputOvervoltage_keeps {a : State} (millivolts : ℕ) (us : ℕ) (s : State) (hs : Keeps false a s) :
    KeepsOut false a (execInputOvervoltage millivolts us s) := by
  unfold execInputOvervoltage
  try dsimp only
  repeat' first
    | with_reducible intro _ | with_reducible assumption | with_reducible apply keeps_next | with_reducible apply State.powerOff_keeps
    | with_reducible apply hs | simp only [keeps_upd_any] | with_reducible apply foldl_keeps | with_reducible apply ite_keepsOut
    | with_reducible apply ite_keeps | split | with_reducible refine keeps_snd (by assumption) ?_
    | with_reducible refine keeps_fst (by assumption) ?_

theorem execStartUpAllowed_keeps {a : State} (millivolts : ℕ) (s : State) (hs : Keeps false a s) :
    KeepsOut false a (execStartUpAllowed millivolts s) := by
  unfold execStartUpAllowed
  try dsimp only
  repeat' first
    | with_reducible intro _ | with_reducible assumption | with_reducible apply keeps_next | with_reducible apply hs
    | simp only [keeps_upd_any] | with_reducible apply foldl_keeps | with_reducible apply ite_keepsOut | with_reducible apply ite_keeps
    | split | with_reducible refine keeps_snd (by assumption) ?_ | with_reducible refine keeps_fst (by assumption) ?_

theorem State.alert_keeps {a : State} (s : State) (i : ℕ) (hs : Keeps false a s) :
    Keeps false a (State.alert s i) := by
  unfold State.alert
  try dsimp only
  repeat' first
    | with_reducible intro _ | with_reducible assumption | with_reducible apply hs | simp only [keeps_upd_any]
    | with_reducible apply foldl_keeps | with_reducible apply ite_keeps | split | with_reducible refine keeps_snd (by assumption) ?_
    | with_reducible refine keeps_fst (by assumption) ?_

theorem State.failDie_keeps {a : State} (s : State) (d : Fin 8) (hs : Keeps false a s) :
    Keeps false a (State.failDie s d) := by
  unfold State.failDie
  try dsimp only
  repeat' first
    | with_reducible intro _ | with_reducible assumption | with_reducible apply State.alert_keeps | with_reducible apply State.modDie_keeps
    | with_reducible apply State.modMgt_keeps | with_reducible apply hs | simp only [keeps_upd_any] | with_reducible apply foldl_keeps
    | with_reducible apply ite_keeps | split | with_reducible refine keeps_snd (by assumption) ?_
    | with_reducible refine keeps_fst (by assumption) ?_

theorem State.trialFallback_keeps {a : State} (s : State) (cls : ℕ) (hs : Keeps false a s) :
    Keeps false a (State.trialFallback s cls) := by
  unfold State.trialFallback
  try dsimp only
  repeat' first
    | with_reducible intro _ | with_reducible assumption | with_reducible apply State.mgtEvent_keeps
    | with_reducible apply State.setStatus_keeps | with_reducible apply hs | simp only [keeps_upd_any] | with_reducible apply foldl_keeps
    | with_reducible apply ite_keeps | split | with_reducible refine keeps_snd (by assumption) ?_
    | with_reducible refine keeps_fst (by assumption) ?_

theorem State.loadFwState_keeps {a : State} (s : State) (hs : Keeps false a s) :
    Keeps false a (State.loadFwState s) := by
  unfold State.loadFwState
  try dsimp only
  repeat' first
    | with_reducible intro _ | with_reducible assumption | with_reducible apply State.setFwState_keeps | with_reducible apply hs
    | simp only [keeps_upd_any] | with_reducible apply foldl_keeps | with_reducible apply ite_keeps | split
    | with_reducible refine keeps_snd (by assumption) ?_ | with_reducible refine keeps_fst (by assumption) ?_

theorem execStageRom_keeps {a : State} (pllLock : BitVec 8) (serdesLock : BitVec 8) (die0Absent : Bool) (s : State) (hs : Keeps false a s) :
    KeepsOut false a (execStageRom pllLock serdesLock die0Absent s) := by
  unfold execStageRom
  try dsimp only
  repeat' first
    | with_reducible intro _ | with_reducible assumption | with_reducible apply keeps_next | with_reducible apply State.failDie_keeps
    | with_reducible apply State.trialFallback_keeps | with_reducible apply State.applyK_keeps | with_reducible apply State.setStage_keeps
    | with_reducible apply State.setStatus_keeps | with_reducible apply hs | simp only [keeps_upd_any] | with_reducible apply foldl_keeps
    | with_reducible apply ite_keepsOut | with_reducible apply ite_keeps | split | with_reducible refine keeps_snd (by assumption) ?_
    | with_reducible refine keeps_fst (by assumption) ?_

theorem execStageFirmware_keeps {a : State} (failedStart : List ℕ) (s : State) (hs : Keeps false a s) :
    KeepsOut false a (execStageFirmware failedStart s) := by
  unfold execStageFirmware
  try dsimp only
  repeat' first
    | with_reducible intro _ | with_reducible assumption | with_reducible apply keeps_next | with_reducible apply State.trialFallback_keeps
    | with_reducible apply State.setStatus_keeps | with_reducible apply State.loadFwState_keeps | with_reducible apply State.setStage_keeps
    | with_reducible apply hs | simp only [keeps_upd_any] | with_reducible apply foldl_keeps | with_reducible apply ite_keepsOut
    | with_reducible apply ite_keeps | split | with_reducible refine keeps_snd (by assumption) ?_
    | with_reducible refine keeps_fst (by assumption) ?_

theorem State.applyPrimer_keeps {a : State} (s : State) (p : Primer) (hs : Keeps false a s) :
    Keeps false a (State.applyPrimer s p) := by
  unfold State.applyPrimer
  try dsimp only
  repeat' first
    | with_reducible intro _ | with_reducible assumption | with_reducible apply State.applyK_keeps
    | with_reducible apply State.setSuiteState_keeps | with_reducible apply hs | simp only [keeps_upd_any]
    | with_reducible apply foldl_keeps | with_reducible apply ite_keeps | split | with_reducible refine keeps_snd (by assumption) ?_
    | with_reducible refine keeps_fst (by assumption) ?_

theorem execStagePrimer_keeps {a : State} (badA : Bool) (badB : Bool) (s : State) (hs : Keeps false a s) :
    KeepsOut false a (execStagePrimer badA badB s) := by
  unfold execStagePrimer
  try dsimp only
  repeat' first
    | with_reducible intro _ | with_reducible assumption | with_reducible apply keeps_next | with_reducible apply State.setStage_keeps
    | with_reducible apply State.applyPrimer_keeps | with_reducible apply State.modMgt_keeps | with_reducible apply hs
    | simp only [keeps_upd_any] | with_reducible apply foldl_keeps | with_reducible apply ite_keepsOut | with_reducible apply ite_keeps
    | split | with_reducible refine keeps_snd (by assumption) ?_ | with_reducible refine keeps_fst (by assumption) ?_

theorem State.loadStacks_keeps {a : State} (s : State) (d : Fin 8) (hs : Keeps false a s) :
    Keeps false a (State.loadStacks s d) := by
  unfold State.loadStacks
  try dsimp only
  repeat' first
    | with_reducible intro _ | with_reducible assumption | with_reducible apply State.modDie_keeps | with_reducible apply hs
    | simp only [keeps_upd_any] | with_reducible apply foldl_keeps | with_reducible apply ite_keeps | split
    | with_reducible refine keeps_snd (by assumption) ?_ | with_reducible refine keeps_fst (by assumption) ?_

theorem execStageMemory_keeps {a : State} (failedDies : BitVec 8) (badPcs : List (Fin 8 × Fin 12 × Fin 64)) (badGroups : List (Fin 8 × Fin 3 × Fin 16)) (s : State) (hs : Keeps false a s) :
    KeepsOut false a (execStageMemory failedDies badPcs badGroups s) := by
  unfold execStageMemory
  try dsimp only
  repeat' first
    | with_reducible intro _ | with_reducible assumption | with_reducible apply keeps_next | with_reducible apply State.loadStacks_keeps
    | with_reducible apply State.failPc_keeps | with_reducible apply State.commitStack_keeps | with_reducible apply State.retireGroup_keeps
    | with_reducible apply State.setStage_keeps | with_reducible apply State.failDie_keeps | with_reducible apply hs
    | simp only [keeps_upd_any] | with_reducible apply foldl_keeps | with_reducible apply ite_keepsOut | with_reducible apply ite_keeps
    | split | with_reducible refine keeps_snd (by assumption) ?_ | with_reducible refine keeps_fst (by assumption) ?_

theorem State.loadPanels_keeps {a : State} (s : State) (d : Fin 8) (hs : Keeps false a s) :
    Keeps false a (State.loadPanels s d) := by
  unfold State.loadPanels
  try dsimp only
  repeat' first
    | with_reducible intro _ | with_reducible assumption | with_reducible apply State.modDie_keeps | with_reducible apply hs
    | simp only [keeps_upd_any] | with_reducible apply foldl_keeps | with_reducible apply ite_keeps | split
    | with_reducible refine keeps_snd (by assumption) ?_ | with_reducible refine keeps_fst (by assumption) ?_

theorem State.bootRetire_keeps {a : State} (s : State) (d : Fin 8) (p : Fin 104) (hs : Keeps false a s) :
    Keeps false a (State.bootRetire s d p) := by
  unfold State.bootRetire
  try dsimp only
  repeat' first
    | with_reducible intro _ | with_reducible assumption | with_reducible apply State.retirePanel_keeps
    | with_reducible apply State.modPanel_keeps | with_reducible apply hs | simp only [keeps_upd_any] | with_reducible apply foldl_keeps
    | with_reducible apply ite_keeps | split | with_reducible refine keeps_snd (by assumption) ?_
    | with_reducible refine keeps_fst (by assumption) ?_

theorem execStagePanels_keeps {a : State} (failedDies : BitVec 8) (badPanels : List (Fin 8 × Fin 104)) (s : State) (hs : Keeps false a s) :
    KeepsOut false a (execStagePanels failedDies badPanels s) := by
  unfold execStagePanels
  try dsimp only
  repeat' first
    | with_reducible intro _ | with_reducible assumption | with_reducible apply keeps_next | with_reducible apply State.loadPanels_keeps
    | with_reducible apply State.bootRetire_keeps | with_reducible apply State.failDie_keeps | with_reducible apply State.setStage_keeps
    | with_reducible apply hs | simp only [keeps_upd_any] | with_reducible apply foldl_keeps | with_reducible apply ite_keepsOut
    | with_reducible apply ite_keeps | split | with_reducible refine keeps_snd (by assumption) ?_
    | with_reducible refine keeps_fst (by assumption) ?_

theorem State.eraseSuite_keeps {a : State} (s : State) (k : Fin 8) (hs : Keeps false a s) :
    Keeps false a (State.eraseSuite s k) := by
  unfold State.eraseSuite
  dsimp only
  exact State.modSuite_keeps _ _ _ (State.unlatch_keeps _ _ _ _ (keeps_mem_filter _ _ (foldl_keeps (State.newKey_keeps (State.setSuiteState_keeps _ _ _ hs))
    fun u x h => State.modDie_keeps _ _ _ h)))

theorem State.startFill_keeps {a : State} (s : State) (k : Fin 8) (resumed : Bool) (hs : Keeps false a s) :
    Keeps false a (State.startFill s k resumed) := by
  unfold State.startFill
  try dsimp only
  repeat' first
    | with_reducible intro _ | with_reducible assumption | with_reducible apply State.mgtEvent_keeps
    | with_reducible apply State.eraseSuite_keeps | with_reducible apply hs | simp only [keeps_upd_any] | with_reducible apply foldl_keeps
    | with_reducible apply ite_keeps | split | with_reducible refine keeps_snd (by assumption) ?_
    | with_reducible refine keeps_fst (by assumption) ?_

theorem execStageScrubTime_keeps {a : State} (s : State) (hs : Keeps false a s) :
    KeepsOut false a (execStageScrubTime s) := by
  unfold execStageScrubTime
  try dsimp only
  repeat' first
    | with_reducible intro _ | with_reducible assumption | with_reducible apply keeps_next | with_reducible apply State.startFill_keeps
    | with_reducible apply State.startPort_keeps | with_reducible apply hs | simp only [keeps_upd_any] | with_reducible apply foldl_keeps
    | with_reducible apply ite_keepsOut | with_reducible apply ite_keeps | split | with_reducible refine keeps_snd (by assumption) ?_
    | with_reducible refine keeps_fst (by assumption) ?_

theorem execScrubFillDone_keeps {a : State} (k : Fin 8) (s : State) (hs : Keeps false a s) :
    KeepsOut false a (execScrubFillDone k s) := by
  unfold execScrubFillDone
  dsimp only
  split
  · exact keeps_next hs
  · exact keeps_next (State.mgtEvent_keeps _ _ _ _ _ (State.setSuiteState_keeps _ _ _ (State.modSuite_keeps _ _ _ (State.setStatus_keeps _ _
      (keeps_mem_filter _ _ (foldl_keeps hs fun u x h => State.modDie_keeps _ _ _ h))))))

theorem execReady_keeps {a : State} (s : State) (hs : Keeps false a s) :
    KeepsOut false a (execReady s) := by
  unfold execReady
  try dsimp only
  repeat' first
    | with_reducible intro _ | with_reducible assumption | with_reducible apply keeps_next | with_reducible apply State.setStage_keeps
    | with_reducible apply hs | simp only [keeps_upd_any] | with_reducible apply foldl_keeps | with_reducible apply ite_keepsOut
    | with_reducible apply ite_keeps | split | with_reducible refine keeps_snd (by assumption) ?_
    | with_reducible refine keeps_fst (by assumption) ?_

theorem execScrub_keeps {a : State} (fn : Fin 9) (k : ℕ) (s : State) (hs : Keeps false a s) :
    KeepsOut false a (execScrub fn k s) := by
  unfold execScrub
  try dsimp only
  repeat' first
    | with_reducible intro _ | with_reducible assumption | with_reducible apply keeps_next | with_reducible apply State.command_keeps
    | with_reducible apply State.mbxEnd_keeps | with_reducible apply State.setStatus_keeps | with_reducible apply State.abortTasks_keeps
    | with_reducible apply State.completeTask_keeps | with_reducible apply State.startFill_keeps | with_reducible apply hs
    | simp only [keeps_upd_any] | with_reducible apply foldl_keeps | with_reducible apply ite_keepsOut | with_reducible apply ite_keeps
    | split | with_reducible refine keeps_snd (by assumption) ?_ | with_reducible refine keeps_fst (by assumption) ?_

theorem State.suiteReset_keeps {a : State} (s : State) (k : Fin 8) (hs : Keeps false a s) :
    Keeps false a (State.suiteReset s k) := by
  unfold State.suiteReset
  try dsimp only
  repeat' first
    | with_reducible intro _ | with_reducible assumption | with_reducible apply State.abortTasks_keeps
    | with_reducible apply State.poisonOutputs_keeps | with_reducible apply State.modDie_keeps
    | with_reducible apply State.setSuiteState_keeps | with_reducible apply State.modSuite_keeps | with_reducible apply State.unlatch_keeps
    | with_reducible apply State.armDefer_keeps | with_reducible apply hs | simp only [keeps_upd_any] | with_reducible apply foldl_keeps
    | with_reducible apply ite_keeps | split | with_reducible refine keeps_snd (by assumption) ?_
    | with_reducible refine keeps_fst (by assumption) ?_

theorem execSuiteReset_keeps {a : State} (k : Fin 8) (s : State) (hs : Keeps false a s) :
    KeepsOut false a (execSuiteReset k s) := by
  unfold execSuiteReset
  try dsimp only
  repeat' first
    | with_reducible intro _ | with_reducible assumption | with_reducible apply keeps_next | with_reducible apply State.modSuite_keeps
    | with_reducible apply State.suiteReset_keeps | with_reducible apply hs | simp only [keeps_upd_any] | with_reducible apply foldl_keeps
    | with_reducible apply ite_keepsOut | with_reducible apply ite_keeps | split | with_reducible refine keeps_snd (by assumption) ?_
    | with_reducible refine keeps_fst (by assumption) ?_

theorem State.abortOnDie_keeps {a : State} (s : State) (d : Fin 8) (hs : Keeps false a s) :
    Keeps false a (State.abortOnDie s d) := by
  unfold State.abortOnDie
  try dsimp only
  repeat' first
    | with_reducible intro _ | with_reducible assumption | with_reducible apply State.worsen_keeps
    | with_reducible apply State.abortTask_keeps | with_reducible apply State.modDie_keeps | with_reducible apply State.tilesGone_keeps
    | with_reducible apply State.cancelDie_keeps | with_reducible apply hs | simp only [keeps_upd_any] | with_reducible apply foldl_keeps
    | with_reducible apply ite_keeps | split | with_reducible refine keeps_snd (by assumption) ?_
    | with_reducible refine keeps_fst (by assumption) ?_

theorem State.afterOut_keeps {a : State} (s : State) (d : Fin 8) (hs : Keeps false a s) :
    Keeps false a (State.afterOut s d) := by
  unfold State.afterOut
  try dsimp only
  repeat' first
    | with_reducible intro _ | with_reducible assumption | with_reducible apply State.abortTasks_keeps
    | with_reducible apply State.setSuiteState_keeps | with_reducible apply State.barrierDone_keeps
    | with_reducible apply State.finish_keeps | with_reducible apply hs | simp only [keeps_upd_any] | with_reducible apply foldl_keeps
    | with_reducible apply ite_keeps | split | with_reducible refine keeps_snd (by assumption) ?_
    | with_reducible refine keeps_fst (by assumption) ?_

theorem execDieOut_keeps {a : State} (d : Fin 8) (cause : Fin 6) (s : State) (hs : Keeps false a s) :
    KeepsOut false a (execDieOut d cause s) := by
  unfold execDieOut
  try dsimp only
  repeat' first
    | with_reducible intro _ | with_reducible assumption | with_reducible apply keeps_next | with_reducible apply State.modDie_keeps
    | with_reducible apply State.abortOnDie_keeps | with_reducible apply State.setPort_keeps | with_reducible apply State.afterOut_keeps
    | with_reducible apply State.alert_keeps | with_reducible apply State.handedOver_keeps | with_reducible apply State.mgtEvent_keeps
    | with_reducible apply State.suiteEvent_keeps | with_reducible apply hs | simp only [keeps_upd_any] | with_reducible apply foldl_keeps
    | with_reducible apply ite_keepsOut | with_reducible apply ite_keeps | split | with_reducible refine keeps_snd (by assumption) ?_
    | with_reducible refine keeps_fst (by assumption) ?_

theorem execDieRecycle_keeps {a : State} (fn : Fin 9) (d : ℕ) (s : State) (hs : Keeps false a s) :
    KeepsOut false a (execDieRecycle fn d s) := by
  unfold execDieRecycle
  try dsimp only
  repeat' first
    | with_reducible intro _ | with_reducible assumption | with_reducible apply keeps_next | with_reducible apply State.command_keeps
    | with_reducible apply State.mbxEnd_keeps | with_reducible apply State.setPort_keeps | with_reducible apply State.abortOnDie_keeps
    | with_reducible apply State.afterOut_keeps | with_reducible apply State.modDie_keeps | with_reducible apply State.unlatch_keeps
    | with_reducible apply State.startPort_keeps | with_reducible apply hs | simp only [keeps_upd_any] | with_reducible apply foldl_keeps
    | with_reducible apply ite_keepsOut | with_reducible apply ite_keeps | split | with_reducible refine keeps_snd (by assumption) ?_
    | with_reducible refine keeps_fst (by assumption) ?_

theorem State.endRecycle_keeps {a : State} (s : State) (d : Fin 8) (ok : Bool) (hs : Keeps false a s) :
    Keeps false a (State.endRecycle s d ok) := by
  unfold State.endRecycle
  try dsimp only
  repeat' first
    | with_reducible intro _ | with_reducible assumption | with_reducible apply State.modDie_keeps | with_reducible apply State.modMgt_keeps
    | with_reducible apply State.setPort_keeps | with_reducible apply State.suiteReset_keeps | with_reducible apply State.armDefer_keeps
    | with_reducible apply hs | simp only [keeps_upd_any] | with_reducible apply foldl_keeps | with_reducible apply ite_keeps | split
    | with_reducible refine keeps_snd (by assumption) ?_ | with_reducible refine keeps_fst (by assumption) ?_

theorem execDieRecycleTimeout_keeps {a : State} (d : Fin 8) (s : State) (hs : Keeps false a s) :
    KeepsOut false a (execDieRecycleTimeout d s) := by
  unfold execDieRecycleTimeout
  try dsimp only
  repeat' first
    | with_reducible intro _ | with_reducible assumption | with_reducible apply keeps_next | with_reducible apply State.mbxEnd_keeps
    | with_reducible apply State.endRecycle_keeps | with_reducible apply hs | simp only [keeps_upd_any] | with_reducible apply foldl_keeps
    | with_reducible apply ite_keepsOut | with_reducible apply ite_keeps | split | with_reducible refine keeps_snd (by assumption) ?_
    | with_reducible refine keeps_fst (by assumption) ?_

theorem execMailboxCompletion_keeps {a : State} (fn : Fin 9) (s : State) (hs : Keeps false a s) :
    KeepsOut false a (execMailboxCompletion fn s) := by
  unfold execMailboxCompletion
  try dsimp only
  repeat' first
    | with_reducible intro _ | with_reducible assumption | with_reducible apply keeps_next | with_reducible apply State.raise_keeps
    | with_reducible apply State.modMailbox_keeps | with_reducible apply State.endRecycle_keeps | with_reducible apply hs
    | simp only [keeps_upd_any] | with_reducible apply foldl_keeps | with_reducible apply ite_keepsOut | with_reducible apply ite_keeps
    | split | with_reducible refine keeps_snd (by assumption) ?_ | with_reducible refine keeps_fst (by assumption) ?_

theorem execRecoveryLoad_keeps {a : State} (fn : Fin 9) (img : FwImage) (device0Answers : Bool) (s : State) (hs : Keeps false a s) :
    KeepsOut false a (execRecoveryLoad fn img device0Answers s) := by
  unfold execRecoveryLoad
  try dsimp only
  repeat' first
    | with_reducible intro _ | with_reducible assumption | with_reducible apply keeps_next | with_reducible apply State.command_keeps
    | with_reducible apply State.mbxEnd_keeps | with_reducible apply State.setStatus_keeps | with_reducible apply State.putFw_keeps
    | with_reducible apply State.fresh_keeps | with_reducible apply hs | simp only [keeps_upd_any] | with_reducible apply foldl_keeps
    | with_reducible apply ite_keepsOut | with_reducible apply ite_keeps | split | with_reducible refine keeps_snd (by assumption) ?_
    | with_reducible refine keeps_fst (by assumption) ?_

/-! ### Health -/

theorem execRetirementRecordWrite_keeps {a : State} (s : State) (hs : Keeps false a s) :
    KeepsOut false a (execRetirementRecordWrite s) := by
  unfold execRetirementRecordWrite
  try dsimp only
  repeat' first
    | with_reducible intro _ | with_reducible assumption | with_reducible apply keeps_next | with_reducible apply State.setStatus_keeps
    | with_reducible apply hs | simp only [keeps_upd_any] | with_reducible apply foldl_keeps | with_reducible apply ite_keepsOut
    | with_reducible apply ite_keeps | split | with_reducible refine keeps_snd (by assumption) ?_
    | with_reducible refine keeps_fst (by assumption) ?_

theorem execRetiredRelog_keeps {a : State} (s : State) (hs : Keeps false a s) :
    KeepsOut false a (execRetiredRelog s) := by
  unfold execRetiredRelog
  try dsimp only
  repeat' first
    | with_reducible intro _ | with_reducible assumption | with_reducible apply keeps_next | with_reducible apply State.withholdRet_keeps
    | with_reducible apply hs | simp only [keeps_upd_any] | with_reducible apply foldl_keeps | with_reducible apply ite_keepsOut
    | with_reducible apply ite_keeps | split | with_reducible refine keeps_snd (by assumption) ?_
    | with_reducible refine keeps_fst (by assumption) ?_

theorem State.eolWarning_keeps {a : State} (s : State) (kindIndex : ℕ) (port : ℕ) (p : Predict) (hs : Keeps false a s) :
    Keeps false a (State.eolWarning s kindIndex port p) := by
  unfold State.eolWarning
  try dsimp only
  repeat' first
    | with_reducible intro _ | with_reducible assumption | with_reducible apply State.mgtEvent_keeps | with_reducible apply hs
    | simp only [keeps_upd_any] | with_reducible apply foldl_keeps | with_reducible apply ite_keeps | split
    | with_reducible refine keeps_snd (by assumption) ?_ | with_reducible refine keeps_fst (by assumption) ?_

theorem State.setEol_keeps {a : State} (s : State) (c : Option Cross) (hs : Keeps false a s) :
    Keeps false a (State.setEol s c) := by
  unfold State.setEol
  try dsimp only
  repeat' first
    | with_reducible intro _ | with_reducible assumption | with_reducible apply State.alert_keeps
    | with_reducible apply State.eolWarning_keeps | with_reducible apply hs | simp only [keeps_upd_any] | with_reducible apply foldl_keeps
    | with_reducible apply ite_keeps | split | with_reducible refine keeps_snd (by assumption) ?_
    | with_reducible refine keeps_fst (by assumption) ?_

theorem State.warnPairs_keeps {a : State} (s : State) (others : List Crossing) (hs : Keeps false a s) :
    Keeps false a (State.warnPairs s others) := by
  unfold State.warnPairs
  try dsimp only
  repeat' first
    | with_reducible intro _ | with_reducible assumption | with_reducible apply State.alert_keeps
    | with_reducible apply State.eolWarning_keeps | with_reducible apply hs | simp only [keeps_upd_any] | with_reducible apply foldl_keeps
    | with_reducible apply ite_keeps | split | with_reducible refine keeps_snd (by assumption) ?_
    | with_reducible refine keeps_fst (by assumption) ?_

theorem State.addSample_keeps {a : State} (s : State) (days : ℕ) (a0 : AgeSample) (hs : Keeps false a s) :
    Keeps false a (State.addSample s days a0) := by
  unfold State.addSample
  try dsimp only
  repeat' first
    | with_reducible intro _ | with_reducible assumption | with_reducible apply State.setStatus_keeps
    | with_reducible apply State.modPanel_keeps | with_reducible apply State.retirePanel_keeps | with_reducible apply hs
    | simp only [keeps_upd_any] | with_reducible apply foldl_keeps | with_reducible apply ite_keeps | split
    | with_reducible refine keeps_snd (by assumption) ?_ | with_reducible refine keeps_fst (by assumption) ?_

theorem execAgeingSample_keeps {a : State} (samples : List AgeSample) (others : List Crossing) (days : ℕ) (s : State) (hs : Keeps false a s) :
    KeepsOut false a (execAgeingSample samples others days s) := by
  unfold execAgeingSample
  try dsimp only
  repeat' first
    | with_reducible intro _ | with_reducible assumption | with_reducible apply keeps_next | with_reducible apply State.addSample_keeps
    | with_reducible apply State.setStatus_keeps | with_reducible apply State.warnPairs_keeps | with_reducible apply State.setEol_keeps
    | with_reducible apply hs | simp only [keeps_upd_any] | with_reducible apply foldl_keeps | with_reducible apply ite_keepsOut
    | with_reducible apply ite_keeps | split | with_reducible refine keeps_snd (by assumption) ?_
    | with_reducible refine keeps_fst (by assumption) ?_

/-! ### Power -/

theorem State.throttle_keeps {a : State} (s : State) (hs : Keeps false a s) :
    Keeps false a (State.throttle s) := by
  unfold State.throttle
  try dsimp only
  repeat' first
    | with_reducible intro _ | with_reducible assumption | with_reducible apply State.applyK_keeps | with_reducible apply State.alert_keeps
    | with_reducible apply hs | simp only [keeps_upd_any] | with_reducible apply foldl_keeps | with_reducible apply ite_keeps | split
    | with_reducible refine keeps_snd (by assumption) ?_ | with_reducible refine keeps_fst (by assumption) ?_

theorem State.trip_keeps {a : State} (s : State) (hs : Keeps false a s) :
    Keeps false a (State.trip s) := by
  unfold State.trip
  try dsimp only
  repeat' first
    | with_reducible intro _ | with_reducible assumption | with_reducible apply State.powerOff_keeps | with_reducible apply hs
    | simp only [keeps_upd_any] | with_reducible apply foldl_keeps | with_reducible apply ite_keeps | split
    | with_reducible refine keeps_snd (by assumption) ?_ | with_reducible refine keeps_fst (by assumption) ?_

theorem execThermalTick_keeps {a : State} (junction : List ℕ) (stackTemps : List (List ℕ)) (s : State) (hs : Keeps false a s) :
    KeepsOut false a (execThermalTick junction stackTemps s) := by
  unfold execThermalTick
  try dsimp only
  repeat' first
    | with_reducible intro _ | with_reducible assumption | with_reducible apply keeps_next | with_reducible apply State.trip_keeps
    | with_reducible apply State.modDie_keeps | with_reducible apply State.alert_keeps | with_reducible apply State.throttle_keeps
    | with_reducible apply hs | simp only [keeps_upd_any] | with_reducible apply foldl_keeps | with_reducible apply ite_keepsOut
    | with_reducible apply ite_keeps | split | with_reducible refine keeps_snd (by assumption) ?_
    | with_reducible refine keeps_fst (by assumption) ?_

theorem execThermalTrip_keeps {a : State} (s : State) (hs : Keeps false a s) :
    KeepsOut false a (execThermalTrip s) := by
  unfold execThermalTrip
  try dsimp only
  repeat' first
    | with_reducible intro _ | with_reducible assumption | with_reducible apply keeps_next | with_reducible apply State.trip_keeps
    | with_reducible apply hs | simp only [keeps_upd_any] | with_reducible apply foldl_keeps | with_reducible apply ite_keepsOut
    | with_reducible apply ite_keeps | split | with_reducible refine keeps_snd (by assumption) ?_
    | with_reducible refine keeps_fst (by assumption) ?_

theorem execPowerControlTick_keeps {a : State} (r : PowerReading) (s : State) (hs : Keeps false a s) :
    KeepsOut false a (execPowerControlTick r s) := by
  unfold execPowerControlTick
  try dsimp only
  repeat' first
    | with_reducible intro _ | with_reducible assumption | with_reducible apply keeps_next | with_reducible apply State.throttle_keeps
    | with_reducible apply hs | simp only [keeps_upd_any] | with_reducible apply foldl_keeps | with_reducible apply ite_keepsOut
    | with_reducible apply ite_keeps | split | with_reducible refine keeps_snd (by assumption) ?_
    | with_reducible refine keeps_fst (by assumption) ?_

theorem execModuleCapEnforce_keeps {a : State} (s : State) (hs : Keeps false a s) :
    KeepsOut false a (execModuleCapEnforce s) := by
  unfold execModuleCapEnforce
  try dsimp only
  repeat' first
    | with_reducible intro _ | with_reducible assumption | with_reducible apply keeps_next | with_reducible apply State.alert_keeps
    | with_reducible apply State.throttle_keeps | with_reducible apply hs | simp only [keeps_upd_any] | with_reducible apply foldl_keeps
    | with_reducible apply ite_keepsOut | with_reducible apply ite_keeps | split | with_reducible refine keeps_snd (by assumption) ?_
    | with_reducible refine keeps_fst (by assumption) ?_

/-! ### Telemetry -/

theorem execSmbusSnapshotRefresh_keeps {a : State} (junction : List ℕ) (s : State) (hs : Keeps false a s) :
    KeepsOut false a (execSmbusSnapshotRefresh junction s) := by
  unfold execSmbusSnapshotRefresh
  try dsimp only
  repeat' first
    | with_reducible intro _ | with_reducible assumption | with_reducible apply keeps_next | with_reducible apply hs
    | simp only [keeps_upd_any] | with_reducible apply foldl_keeps | with_reducible apply ite_keepsOut | with_reducible apply ite_keeps
    | split | with_reducible refine keeps_snd (by assumption) ?_ | with_reducible refine keeps_fst (by assumption) ?_

theorem State.smbAnswer_keeps {a : State} (s : State) (bs : List Byte) (hs : Keeps false a s) :
    Keeps false a (State.smbAnswer s bs) := by
  unfold State.smbAnswer
  try dsimp only
  repeat' first
    | with_reducible intro _ | with_reducible assumption | with_reducible apply hs | simp only [keeps_upd_any]
    | with_reducible apply foldl_keeps | with_reducible apply ite_keeps | split | with_reducible refine keeps_snd (by assumption) ?_
    | with_reducible refine keeps_fst (by assumption) ?_

theorem execSmbusId_keeps {a : State} (s : State) (hs : Keeps false a s) :
    KeepsOut false a (execSmbusId s) := by
  unfold execSmbusId
  try dsimp only
  repeat' first
    | with_reducible intro _ | with_reducible assumption | with_reducible apply keeps_next | with_reducible apply State.smbAnswer_keeps
    | with_reducible apply hs | simp only [keeps_upd_any] | with_reducible apply foldl_keeps | with_reducible apply ite_keepsOut
    | with_reducible apply ite_keeps | split | with_reducible refine keeps_snd (by assumption) ?_
    | with_reducible refine keeps_fst (by assumption) ?_

theorem execSmbusStatus_keeps {a : State} (s : State) (hs : Keeps false a s) :
    KeepsOut false a (execSmbusStatus s) := by
  unfold execSmbusStatus
  try dsimp only
  repeat' first
    | with_reducible intro _ | with_reducible assumption | with_reducible apply keeps_next | with_reducible apply State.smbAnswer_keeps
    | with_reducible apply hs | simp only [keeps_upd_any] | with_reducible apply foldl_keeps | with_reducible apply ite_keepsOut
    | with_reducible apply ite_keeps | split | with_reducible refine keeps_snd (by assumption) ?_
    | with_reducible refine keeps_fst (by assumption) ?_

theorem execSmbusTemps_keeps {a : State} (s : State) (hs : Keeps false a s) :
    KeepsOut false a (execSmbusTemps s) := by
  unfold execSmbusTemps
  try dsimp only
  repeat' first
    | with_reducible intro _ | with_reducible assumption | with_reducible apply keeps_next | with_reducible apply State.smbAnswer_keeps
    | with_reducible apply hs | simp only [keeps_upd_any] | with_reducible apply foldl_keeps | with_reducible apply ite_keepsOut
    | with_reducible apply ite_keeps | split | with_reducible refine keeps_snd (by assumption) ?_
    | with_reducible refine keeps_fst (by assumption) ?_

theorem execSmbusPower_keeps {a : State} (s : State) (hs : Keeps false a s) :
    KeepsOut false a (execSmbusPower s) := by
  unfold execSmbusPower
  try dsimp only
  repeat' first
    | with_reducible intro _ | with_reducible assumption | with_reducible apply keeps_next | with_reducible apply State.smbAnswer_keeps
    | with_reducible apply hs | simp only [keeps_upd_any] | with_reducible apply foldl_keeps | with_reducible apply ite_keepsOut
    | with_reducible apply ite_keeps | split | with_reducible refine keeps_snd (by assumption) ?_
    | with_reducible refine keeps_fst (by assumption) ?_

theorem execSmbusHealth_keeps {a : State} (s : State) (hs : Keeps false a s) :
    KeepsOut false a (execSmbusHealth s) := by
  unfold execSmbusHealth
  try dsimp only
  repeat' first
    | with_reducible intro _ | with_reducible assumption | with_reducible apply keeps_next | with_reducible apply State.smbAnswer_keeps
    | with_reducible apply hs | simp only [keeps_upd_any] | with_reducible apply foldl_keeps | with_reducible apply ite_keepsOut
    | with_reducible apply ite_keeps | split | with_reducible refine keeps_snd (by assumption) ?_
    | with_reducible refine keeps_fst (by assumption) ?_

theorem execAlertStatus_keeps {a : State} (clear : Option Byte) (pecOk : Bool) (s : State) (hs : Keeps false a s) :
    KeepsOut false a (execAlertStatus clear pecOk s) := by
  unfold execAlertStatus
  try dsimp only
  repeat' first
    | with_reducible intro _ | with_reducible assumption | with_reducible apply keeps_next | with_reducible apply State.smbAnswer_keeps
    | with_reducible apply hs | simp only [keeps_upd_any] | with_reducible apply foldl_keeps | with_reducible apply ite_keepsOut
    | with_reducible apply ite_keeps | split | with_reducible refine keeps_snd (by assumption) ?_
    | with_reducible refine keeps_fst (by assumption) ?_

theorem execAlertMask_keeps {a : State} (write : Option Byte) (pecOk : Bool) (s : State) (hs : Keeps false a s) :
    KeepsOut false a (execAlertMask write pecOk s) := by
  unfold execAlertMask
  try dsimp only
  repeat' first
    | with_reducible intro _ | with_reducible assumption | with_reducible apply keeps_next | with_reducible apply State.smbAnswer_keeps
    | with_reducible apply hs | simp only [keeps_upd_any] | with_reducible apply foldl_keeps | with_reducible apply ite_keepsOut
    | with_reducible apply ite_keeps | split | with_reducible refine keeps_snd (by assumption) ?_
    | with_reducible refine keeps_fst (by assumption) ?_

theorem State.selectTap_keeps {a : State} (s : State) (d : Fin 8) (ir : TapInstr) (cells : List Bool) (driving : Bool) (hs : Keeps false a s) :
    Keeps false a (State.selectTap s d ir cells driving) := by
  unfold State.selectTap
  try dsimp only
  repeat' first
    | with_reducible intro _ | with_reducible assumption | with_reducible apply hs | simp only [keeps_upd_any]
    | with_reducible apply foldl_keeps | with_reducible apply ite_keeps | split | with_reducible refine keeps_snd (by assumption) ?_
    | with_reducible refine keeps_fst (by assumption) ?_

theorem execTapIdcode_keeps {a : State} (d : Fin 8) (s : State) (hs : Keeps false a s) :
    KeepsOut false a (execTapIdcode d s) := by
  unfold execTapIdcode
  try dsimp only
  repeat' first
    | with_reducible intro _ | with_reducible assumption | with_reducible apply keeps_next | with_reducible apply State.selectTap_keeps
    | with_reducible apply hs | simp only [keeps_upd_any] | with_reducible apply foldl_keeps | with_reducible apply ite_keepsOut
    | with_reducible apply ite_keeps | split | with_reducible refine keeps_snd (by assumption) ?_
    | with_reducible refine keeps_fst (by assumption) ?_

theorem execTapBypass_keeps {a : State} (d : Fin 8) (s : State) (hs : Keeps false a s) :
    KeepsOut false a (execTapBypass d s) := by
  unfold execTapBypass
  try dsimp only
  repeat' first
    | with_reducible intro _ | with_reducible assumption | with_reducible apply keeps_next | with_reducible apply State.selectTap_keeps
    | with_reducible apply hs | simp only [keeps_upd_any] | with_reducible apply foldl_keeps | with_reducible apply ite_keepsOut
    | with_reducible apply ite_keeps | split | with_reducible refine keeps_snd (by assumption) ?_
    | with_reducible refine keeps_fst (by assumption) ?_

theorem execTapExtest_keeps {a : State} (d : Fin 8) (cells : List Bool) (s : State) (hs : Keeps false a s) :
    KeepsOut false a (execTapExtest d cells s) := by
  unfold execTapExtest
  try dsimp only
  repeat' first
    | with_reducible intro _ | with_reducible assumption | with_reducible apply keeps_next | with_reducible apply State.selectTap_keeps
    | with_reducible apply hs | simp only [keeps_upd_any] | with_reducible apply foldl_keeps | with_reducible apply ite_keepsOut
    | with_reducible apply ite_keeps | split | with_reducible refine keeps_snd (by assumption) ?_
    | with_reducible refine keeps_fst (by assumption) ?_

theorem execTapSamplePreload_keeps {a : State} (d : Fin 8) (cells : List Bool) (s : State) (hs : Keeps false a s) :
    KeepsOut false a (execTapSamplePreload d cells s) := by
  unfold execTapSamplePreload
  try dsimp only
  repeat' first
    | with_reducible intro _ | with_reducible assumption | with_reducible apply keeps_next | with_reducible apply State.selectTap_keeps
    | with_reducible apply hs | simp only [keeps_upd_any] | with_reducible apply foldl_keeps | with_reducible apply ite_keepsOut
    | with_reducible apply ite_keeps | split | with_reducible refine keeps_snd (by assumption) ?_
    | with_reducible refine keeps_fst (by assumption) ?_

theorem execTapExtestPulse_keeps {a : State} (d : Fin 8) (cells : List Bool) (s : State) (hs : Keeps false a s) :
    KeepsOut false a (execTapExtestPulse d cells s) := by
  unfold execTapExtestPulse
  try dsimp only
  repeat' first
    | with_reducible intro _ | with_reducible assumption | with_reducible apply keeps_next | with_reducible apply State.selectTap_keeps
    | with_reducible apply hs | simp only [keeps_upd_any] | with_reducible apply foldl_keeps | with_reducible apply ite_keepsOut
    | with_reducible apply ite_keeps | split | with_reducible refine keeps_snd (by assumption) ?_
    | with_reducible refine keeps_fst (by assumption) ?_

theorem execTapExtestTrain_keeps {a : State} (d : Fin 8) (cells : List Bool) (s : State) (hs : Keeps false a s) :
    KeepsOut false a (execTapExtestTrain d cells s) := by
  unfold execTapExtestTrain
  try dsimp only
  repeat' first
    | with_reducible intro _ | with_reducible assumption | with_reducible apply keeps_next | with_reducible apply State.selectTap_keeps
    | with_reducible apply hs | simp only [keeps_upd_any] | with_reducible apply foldl_keeps | with_reducible apply ite_keepsOut
    | with_reducible apply ite_keeps | split | with_reducible refine keeps_snd (by assumption) ?_
    | with_reducible refine keeps_fst (by assumption) ?_

theorem execTapReset_keeps {a : State} (s : State) (hs : Keeps false a s) :
    KeepsOut false a (execTapReset s) := by
  unfold execTapReset
  try dsimp only
  repeat' first
    | with_reducible intro _ | with_reducible assumption | with_reducible apply keeps_next | with_reducible apply hs
    | simp only [keeps_upd_any] | with_reducible apply foldl_keeps | with_reducible apply ite_keepsOut | with_reducible apply ite_keeps
    | split | with_reducible refine keeps_snd (by assumption) ?_ | with_reducible refine keeps_fst (by assumption) ?_

/-! ### Attest -/

theorem State.doeAnswer_keeps {a : State} (s : State) (fn : Fin 9) (codes : List ℕ) (payload : List Byte) (hs : Keeps false a s) :
    Keeps false a (State.doeAnswer s fn codes payload) := by
  unfold State.doeAnswer
  try dsimp only
  repeat' first
    | with_reducible intro _ | with_reducible assumption | with_reducible apply State.raise_keeps | with_reducible apply hs
    | simp only [keeps_upd_any] | with_reducible apply foldl_keeps | with_reducible apply ite_keeps | split
    | with_reducible refine keeps_snd (by assumption) ?_ | with_reducible refine keeps_fst (by assumption) ?_

theorem execDoeAbort_keeps {a : State} (fn : Fin 9) (s : State) (hs : Keeps false a s) :
    KeepsOut false a (execDoeAbort fn s) := by
  unfold execDoeAbort
  try dsimp only
  repeat' first
    | with_reducible intro _ | with_reducible assumption | with_reducible apply keeps_next | with_reducible apply hs
    | simp only [keeps_upd_any] | with_reducible apply foldl_keeps | with_reducible apply ite_keepsOut | with_reducible apply ite_keeps
    | split | with_reducible refine keeps_snd (by assumption) ?_ | with_reducible refine keeps_fst (by assumption) ?_

theorem execDoeDiscovery_keeps {a : State} (fn : Fin 9) (index : ℕ) (s : State) (hs : Keeps false a s) :
    KeepsOut false a (execDoeDiscovery fn index s) := by
  unfold execDoeDiscovery
  try dsimp only
  repeat' first
    | with_reducible intro _ | with_reducible assumption | with_reducible apply keeps_next | with_reducible apply State.doeAnswer_keeps
    | with_reducible apply hs | simp only [keeps_upd_any] | with_reducible apply foldl_keeps | with_reducible apply ite_keepsOut
    | with_reducible apply ite_keeps | split | with_reducible refine keeps_snd (by assumption) ?_
    | with_reducible refine keeps_fst (by assumption) ?_

theorem execGetVersion_keeps {a : State} (fn : Fin 9) (s : State) (hs : Keeps false a s) :
    KeepsOut false a (execGetVersion fn s) := by
  unfold execGetVersion
  try dsimp only
  repeat' first
    | with_reducible intro _ | with_reducible assumption | with_reducible apply keeps_next | with_reducible apply State.doeAnswer_keeps
    | with_reducible apply hs | simp only [keeps_upd_any] | with_reducible apply foldl_keeps | with_reducible apply ite_keepsOut
    | with_reducible apply ite_keeps | split | with_reducible refine keeps_snd (by assumption) ?_
    | with_reducible refine keeps_fst (by assumption) ?_

theorem execGetCapabilities_keeps {a : State} (fn : Fin 9) (s : State) (hs : Keeps false a s) :
    KeepsOut false a (execGetCapabilities fn s) := by
  unfold execGetCapabilities
  try dsimp only
  repeat' first
    | with_reducible intro _ | with_reducible assumption | with_reducible apply keeps_next | with_reducible apply State.doeAnswer_keeps
    | with_reducible apply hs | simp only [keeps_upd_any] | with_reducible apply foldl_keeps | with_reducible apply ite_keepsOut
    | with_reducible apply ite_keeps | split | with_reducible refine keeps_snd (by assumption) ?_
    | with_reducible refine keeps_fst (by assumption) ?_

theorem execNegotiateAlgorithms_keeps {a : State} (fn : Fin 9) (ecdsaP384 : Bool) (sha384 : Bool) (s : State) (hs : Keeps false a s) :
    KeepsOut false a (execNegotiateAlgorithms fn ecdsaP384 sha384 s) := by
  unfold execNegotiateAlgorithms
  try dsimp only
  repeat' first
    | with_reducible intro _ | with_reducible assumption | with_reducible apply keeps_next | with_reducible apply State.doeAnswer_keeps
    | with_reducible apply hs | simp only [keeps_upd_any] | with_reducible apply foldl_keeps | with_reducible apply ite_keepsOut
    | with_reducible apply ite_keeps | split | with_reducible refine keeps_snd (by assumption) ?_
    | with_reducible refine keeps_fst (by assumption) ?_

theorem execGetDigests_keeps {a : State} (fn : Fin 9) (s : State) (hs : Keeps false a s) :
    KeepsOut false a (execGetDigests fn s) := by
  unfold execGetDigests
  try dsimp only
  repeat' first
    | with_reducible intro _ | with_reducible assumption | with_reducible apply keeps_next | with_reducible apply State.doeAnswer_keeps
    | with_reducible apply hs | simp only [keeps_upd_any] | with_reducible apply foldl_keeps | with_reducible apply ite_keepsOut
    | with_reducible apply ite_keeps | split | with_reducible refine keeps_snd (by assumption) ?_
    | with_reducible refine keeps_fst (by assumption) ?_

theorem execGetCertificate_keeps {a : State} (fn : Fin 9) (slot : ℕ) (s : State) (hs : Keeps false a s) :
    KeepsOut false a (execGetCertificate fn slot s) := by
  unfold execGetCertificate
  try dsimp only
  repeat' first
    | with_reducible intro _ | with_reducible assumption | with_reducible apply keeps_next | with_reducible apply State.doeAnswer_keeps
    | with_reducible apply hs | simp only [keeps_upd_any] | with_reducible apply foldl_keeps | with_reducible apply ite_keepsOut
    | with_reducible apply ite_keeps | split | with_reducible refine keeps_snd (by assumption) ?_
    | with_reducible refine keeps_fst (by assumption) ?_

theorem State.sign_keeps {a : State} (s : State) (hs : Keeps false a s) :
    Keeps false a (State.sign s).2 := by
  unfold State.sign
  try dsimp only
  repeat' first
    | with_reducible intro _ | with_reducible assumption | with_reducible apply State.freeBytes_keeps | with_reducible apply hs
    | simp only [keeps_upd_any] | with_reducible apply foldl_keeps | with_reducible apply ite_keeps | split
    | with_reducible refine keeps_snd (by assumption) ?_ | with_reducible refine keeps_fst (by assumption) ?_

theorem execChallenge_keeps {a : State} (fn : Fin 9) (nonce : List Byte) (s : State) (hs : Keeps false a s) :
    KeepsOut false a (execChallenge fn nonce s) := by
  unfold execChallenge
  try dsimp only
  repeat' first
    | with_reducible intro _ | with_reducible assumption | with_reducible apply keeps_next | with_reducible apply State.freeBytes_keeps
    | with_reducible apply State.sign_keeps | with_reducible apply State.doeAnswer_keeps | with_reducible apply hs
    | simp only [keeps_upd_any] | with_reducible apply foldl_keeps | with_reducible apply ite_keepsOut | with_reducible apply ite_keeps
    | split | with_reducible refine keeps_snd (by assumption) ?_ | with_reducible refine keeps_fst (by assumption) ?_

theorem State.measure_keeps {a : State} (s : State) (fn : Fin 9) (index : ℕ) (hs : Keeps false a s) :
    Keeps false a (State.measure s fn index) := by
  unfold State.measure
  try dsimp only
  repeat' first
    | with_reducible intro _ | with_reducible assumption | with_reducible apply State.doeAnswer_keeps
    | with_reducible apply State.sign_keeps | with_reducible apply hs | simp only [keeps_upd_any] | with_reducible apply foldl_keeps
    | with_reducible apply ite_keeps | split | with_reducible refine keeps_snd (by assumption) ?_
    | with_reducible refine keeps_fst (by assumption) ?_

theorem execGetMeasurements_keeps {a : State} (fn : Fin 9) (index : ℕ) (s : State) (hs : Keeps false a s) :
    KeepsOut false a (execGetMeasurements fn index s) := by
  unfold execGetMeasurements
  try dsimp only
  repeat' first
    | with_reducible intro _ | with_reducible assumption | with_reducible apply keeps_next | with_reducible apply State.modMgt_keeps
    | with_reducible apply State.doeAnswer_keeps | with_reducible apply State.measure_keeps | with_reducible apply hs
    | simp only [keeps_upd_any] | with_reducible apply foldl_keeps | with_reducible apply ite_keepsOut | with_reducible apply ite_keeps
    | split | with_reducible refine keeps_snd (by assumption) ?_ | with_reducible refine keeps_fst (by assumption) ?_

theorem execRespondIfReady_keeps {a : State} (fn : Fin 9) (s : State) (hs : Keeps false a s) :
    KeepsOut false a (execRespondIfReady fn s) := by
  unfold execRespondIfReady
  try dsimp only
  repeat' first
    | with_reducible intro _ | with_reducible assumption | with_reducible apply keeps_next | with_reducible apply State.doeAnswer_keeps
    | with_reducible apply State.measure_keeps | with_reducible apply State.modMgt_keeps | with_reducible apply hs
    | simp only [keeps_upd_any] | with_reducible apply foldl_keeps | with_reducible apply ite_keepsOut | with_reducible apply ite_keeps
    | split | with_reducible refine keeps_snd (by assumption) ?_ | with_reducible refine keeps_fst (by assumption) ?_

theorem execSpdm_keeps {a : State} (fn : Fin 9) (host : ℕ) (len : ℕ) (s : State) (hs : Keeps false a s) :
    KeepsOut false a (execSpdm fn host len s) := by
  unfold execSpdm
  try dsimp only
  repeat' first
    | with_reducible intro _ | with_reducible assumption | with_reducible apply keeps_next | with_reducible apply State.command_keeps
    | with_reducible apply State.drawFree_keeps | with_reducible apply State.freeBytes_keeps | with_reducible apply State.mbxEnd_keeps
    | with_reducible apply State.hostWrite_keeps | with_reducible apply hs | simp only [keeps_upd_any] | with_reducible apply foldl_keeps
    | with_reducible apply ite_keepsOut | with_reducible apply ite_keeps | split | with_reducible refine keeps_snd (by assumption) ?_
    | with_reducible refine keeps_fst (by assumption) ?_

theorem execMeasLog_keeps {a : State} (fn : Fin 9) (k : ℕ) (log : ℕ) (host : ℕ) (capacity : ℕ) (s : State) (hs : Keeps false a s) :
    KeepsOut false a (execMeasLog fn k log host capacity s) := by
  unfold execMeasLog
  try dsimp only
  repeat' first
    | with_reducible intro _ | with_reducible assumption | with_reducible apply keeps_next | with_reducible apply State.command_keeps
    | with_reducible apply State.mbxEnd_keeps | with_reducible apply State.hostWrite_keeps | with_reducible apply hs
    | simp only [keeps_upd_any] | with_reducible apply foldl_keeps | with_reducible apply ite_keepsOut | with_reducible apply ite_keeps
    | split | with_reducible refine keeps_snd (by assumption) ?_ | with_reducible refine keeps_fst (by assumption) ?_

/-! ### Security -/

theorem State.onSuite_keeps {a : State} (s : State) (fn : Fin 9) (k : ℕ) (f : Fin 8 → State) (hs : Keeps false a s) (hf : ∀ x0, Keeps false a (f x0)) :
    Keeps false a (State.onSuite s fn k f) := by
  unfold State.onSuite
  try dsimp only
  repeat' first
    | with_reducible intro _ | with_reducible assumption | with_reducible apply State.mbxEnd_keeps | with_reducible apply hs
    | with_reducible apply hf | simp only [keeps_upd_any] | with_reducible apply foldl_keeps | with_reducible apply ite_keeps | split
    | with_reducible refine keeps_snd (by assumption) ?_ | with_reducible refine keeps_fst (by assumption) ?_

theorem execProvision_keeps {a : State} (fn : Fin 9) (k : ℕ) (record : ProvisionRecord) (ownerSigOk : Bool) (s : State) (hs : Keeps false a s) :
    KeepsOut false a (execProvision fn k record ownerSigOk s) := by
  unfold execProvision
  try dsimp only
  repeat' first
    | with_reducible intro _ | with_reducible assumption | with_reducible apply keeps_next | with_reducible apply State.command_keeps
    | with_reducible apply State.onSuite_keeps | with_reducible apply State.mbxEnd_keeps | with_reducible apply State.modSuite_keeps
    | with_reducible apply hs | simp only [keeps_upd_any] | with_reducible apply foldl_keeps | with_reducible apply ite_keepsOut
    | with_reducible apply ite_keeps | split | with_reducible refine keeps_snd (by assumption) ?_
    | with_reducible refine keeps_fst (by assumption) ?_

theorem State.logUnwrapped_keeps {a : State} (s : State) (k : Fin 8) (tensor : ℕ) (result : ℕ) (dig : List Byte) (hs : Keeps false a s) :
    Keeps false a (State.logUnwrapped s k tensor result dig) := by
  unfold State.logUnwrapped
  try dsimp only
  repeat' first
    | with_reducible intro _ | with_reducible assumption | with_reducible apply State.suiteEvent_keeps | with_reducible apply hs
    | simp only [keeps_upd_any] | with_reducible apply foldl_keeps | with_reducible apply ite_keeps | split
    | with_reducible refine keeps_snd (by assumption) ?_ | with_reducible refine keeps_fst (by assumption) ?_

theorem State.writeImage_keeps {a : State} (s : State) (rs : List (ℕ × ℕ × ℕ)) (img : List Byte) (n : ℕ) (hs : Keeps false a s) :
    Keeps false a (State.writeImage s rs img n) := by
  unfold State.writeImage
  try dsimp only
  repeat' first
    | with_reducible intro _ | with_reducible assumption | with_reducible apply State.write_keeps | with_reducible apply hs
    | simp only [keeps_upd_any] | with_reducible apply foldl_keeps | with_reducible apply ite_keeps | split
    | with_reducible refine keeps_snd (by assumption) ?_ | with_reducible refine keeps_fst (by assumption) ?_

theorem State.imageOverSlots_keeps {a : State} (s : State) (k : Fin 8) (rs : List (ℕ × ℕ × ℕ)) (n : ℕ) (hs : Keeps false a s) :
    Keeps false a (State.imageOverSlots s k rs n) := by
  unfold State.imageOverSlots
  try dsimp only
  repeat' first
    | with_reducible intro _ | with_reducible assumption | with_reducible apply State.slotWrite_keeps | with_reducible apply hs
    | simp only [keeps_upd_any] | with_reducible apply foldl_keeps | with_reducible apply ite_keeps | split
    | with_reducible refine keeps_snd (by assumption) ?_ | with_reducible refine keeps_fst (by assumption) ?_

theorem State.poisonWritten_keeps {a : State} (s : State) (rs : List (ℕ × ℕ × ℕ)) (n : ℕ) (hs : Keeps false a s) :
    Keeps false a (State.poisonWritten s rs n) := by
  unfold State.poisonWritten
  try dsimp only
  repeat' first
    | with_reducible intro _ | with_reducible assumption | with_reducible apply State.poisonRange_keeps | with_reducible apply hs
    | simp only [keeps_upd_any] | with_reducible apply foldl_keeps | with_reducible apply ite_keeps | split
    | with_reducible refine keeps_snd (by assumption) ?_ | with_reducible refine keeps_fst (by assumption) ?_

theorem execUnwrap_keeps {a : State} (fn : Fin 9) (k : ℕ) (tensor : ℕ) (pkg : BindingPackage) (s : State) (hs : Keeps false a s) :
    KeepsOut false a (execUnwrap fn k tensor pkg s) := by
  unfold execUnwrap
  try dsimp only
  repeat' first
    | with_reducible intro _ | with_reducible assumption | with_reducible apply keeps_next | with_reducible apply State.command_keeps
    | with_reducible apply State.onSuite_keeps | with_reducible apply State.mbxEnd_keeps | with_reducible apply State.logUnwrapped_keeps
    | with_reducible apply State.confine_keeps | with_reducible apply State.writeImage_keeps
    | with_reducible apply State.poisonWritten_keeps | with_reducible apply State.imageOverSlots_keeps
    | with_reducible apply State.modSuite_keeps | with_reducible apply State.setEntryFlag_keeps | with_reducible apply hs
    | simp only [keeps_upd_any] | with_reducible apply foldl_keeps | with_reducible apply ite_keepsOut | with_reducible apply ite_keeps
    | split | with_reducible refine keeps_snd (by assumption) ?_ | with_reducible refine keeps_fst (by assumption) ?_

theorem State.pkgRecipients_keeps {a : State} (s : State) (y1 : List (List Byte)) (hs : Keeps false a s) :
    Keeps false a (State.pkgRecipients s y1).2 := by
  induction y1 generalizing s with
  | nil => exact hs
  | cons d ds ih =>
    unfold State.pkgRecipients
    dsimp only
    with_reducible exact ih _ (State.freeBytes_keeps _ (State.freeBytes_keeps _ hs))

theorem execWrapExport_keeps {a : State} (fn : Fin 9) (k : ℕ) (tensor : ℕ) (host : ℕ) (capacity : ℕ) (s : State) (hs : Keeps false a s) :
    KeepsOut false a (execWrapExport fn k tensor host capacity s) := by
  unfold execWrapExport
  try dsimp only
  repeat' first
    | with_reducible intro _ | with_reducible assumption | with_reducible apply keeps_next | with_reducible apply State.command_keeps
    | with_reducible apply State.onSuite_keeps | with_reducible apply State.mbxEnd_keeps | with_reducible apply State.drawFree_keeps
    | with_reducible apply State.pkgRecipients_keeps | with_reducible apply State.freeBytes_keeps
    | with_reducible apply State.hostWrite_keeps | with_reducible apply hs | simp only [keeps_upd_any] | with_reducible apply foldl_keeps
    | with_reducible apply ite_keepsOut | with_reducible apply ite_keeps | split | with_reducible refine keeps_snd (by assumption) ?_
    | with_reducible refine keeps_fst (by assumption) ?_

theorem execRotateMem_keeps {a : State} (fn : Fin 9) (k : ℕ) (s : State) (hs : Keeps false a s) :
    KeepsOut false a (execRotateMem fn k s) := by
  unfold execRotateMem
  try dsimp only
  repeat' first
    | with_reducible intro _ | with_reducible assumption | with_reducible apply keeps_next | with_reducible apply State.command_keeps
    | with_reducible apply State.onSuite_keeps | with_reducible apply State.mbxEnd_keeps | with_reducible apply State.rotateSuite_keeps
    | with_reducible apply hs | simp only [keeps_upd_any] | with_reducible apply foldl_keeps | with_reducible apply ite_keepsOut
    | with_reducible apply ite_keeps | split | with_reducible refine keeps_snd (by assumption) ?_
    | with_reducible refine keeps_fst (by assumption) ?_

end Sys2Proof.Machine
end

