-- ==== Sys2Proof/Laws/State.lean ====
section
/-! SUPPORT. What each update of the state leaves in each field: one lemma per field per update, so that no later proof unfolds a record update. -/

namespace Sys2Proof.Machine

/-! ### modMgt -/

@[simp] theorem State.modMgt_fuses (s : State) (f : Mgt → Mgt) : (s.modMgt f).fuses = s.fuses := rfl
@[simp] theorem State.modMgt_flash (s : State) (f : Mgt → Mgt) : (s.modMgt f).flash = s.flash := rfl
@[simp] theorem State.modMgt_power (s : State) (f : Mgt → Mgt) : (s.modMgt f).power = s.power := rfl
@[simp] theorem State.modMgt_clk (s : State) (f : Mgt → Mgt) : (s.modMgt f).clk = s.clk := rfl
@[simp] theorem State.modMgt_mgt (s : State) (f : Mgt → Mgt) : (s.modMgt f).mgt = f s.mgt := rfl
@[simp] theorem State.modMgt_mbx (s : State) (f : Mgt → Mgt) : (s.modMgt f).mbx = s.mbx := rfl
@[simp] theorem State.modMgt_sec (s : State) (f : Mgt → Mgt) : (s.modMgt f).sec = s.sec := rfl
@[simp] theorem State.modMgt_hlt (s : State) (f : Mgt → Mgt) : (s.modMgt f).hlt = s.hlt := rfl
@[simp] theorem State.modMgt_layout (s : State) (f : Mgt → Mgt) : (s.modMgt f).layout = s.layout := rfl
@[simp] theorem State.modMgt_primer (s : State) (f : Mgt → Mgt) : (s.modMgt f).primer = s.primer := rfl
@[simp] theorem State.modMgt_dies (s : State) (f : Mgt → Mgt) : (s.modMgt f).dies = s.dies := rfl
@[simp] theorem State.modMgt_suites (s : State) (f : Mgt → Mgt) : (s.modMgt f).suites = s.suites := rfl
@[simp] theorem State.modMgt_mem (s : State) (f : Mgt → Mgt) : (s.modMgt f).mem = s.mem := rfl
@[simp] theorem State.modMgt_poison (s : State) (f : Mgt → Mgt) : (s.modMgt f).poison = s.poison := rfl
@[simp] theorem State.modMgt_host (s : State) (f : Mgt → Mgt) : (s.modMgt f).host = s.host := rfl
@[simp] theorem State.modMgt_latch (s : State) (f : Mgt → Mgt) : (s.modMgt f).latch = s.latch := rfl
@[simp] theorem State.modMgt_msix (s : State) (f : Mgt → Mgt) : (s.modMgt f).msix = s.msix := rfl
@[simp] theorem State.modMgt_smbus (s : State) (f : Mgt → Mgt) : (s.modMgt f).smbus = s.smbus := rfl
@[simp] theorem State.modMgt_taps (s : State) (f : Mgt → Mgt) : (s.modMgt f).taps = s.taps := rfl
@[simp] theorem State.modMgt_doe (s : State) (f : Mgt → Mgt) : (s.modMgt f).doe = s.doe := rfl
@[simp] theorem State.modMgt_bscanLocked (s : State) (f : Mgt → Mgt) : (s.modMgt f).bscanLocked = s.bscanLocked := rfl
@[simp] theorem State.modMgt_unlocked (s : State) (f : Mgt → Mgt) : (s.modMgt f).unlocked = s.unlocked := rfl
@[simp] theorem State.modMgt_keyGen (s : State) (f : Mgt → Mgt) : (s.modMgt f).keyGen = s.keyGen := rfl
@[simp] theorem State.modMgt_free (s : State) (f : Mgt → Mgt) : (s.modMgt f).free = s.free := rfl
@[simp] theorem State.modMgt_pending (s : State) (f : Mgt → Mgt) : (s.modMgt f).pending = s.pending := rfl

/-! ### modSuite -/

@[simp] theorem State.modSuite_fuses (s : State) (k : Fin 8) (f : Suite → Suite) : (s.modSuite k f).fuses = s.fuses := rfl
@[simp] theorem State.modSuite_flash (s : State) (k : Fin 8) (f : Suite → Suite) : (s.modSuite k f).flash = s.flash := rfl
@[simp] theorem State.modSuite_power (s : State) (k : Fin 8) (f : Suite → Suite) : (s.modSuite k f).power = s.power := rfl
@[simp] theorem State.modSuite_clk (s : State) (k : Fin 8) (f : Suite → Suite) : (s.modSuite k f).clk = s.clk := rfl
@[simp] theorem State.modSuite_mgt (s : State) (k : Fin 8) (f : Suite → Suite) : (s.modSuite k f).mgt = s.mgt := rfl
@[simp] theorem State.modSuite_mbx (s : State) (k : Fin 8) (f : Suite → Suite) : (s.modSuite k f).mbx = s.mbx := rfl
@[simp] theorem State.modSuite_sec (s : State) (k : Fin 8) (f : Suite → Suite) : (s.modSuite k f).sec = s.sec := rfl
@[simp] theorem State.modSuite_hlt (s : State) (k : Fin 8) (f : Suite → Suite) : (s.modSuite k f).hlt = s.hlt := rfl
@[simp] theorem State.modSuite_layout (s : State) (k : Fin 8) (f : Suite → Suite) : (s.modSuite k f).layout = s.layout := rfl
@[simp] theorem State.modSuite_primer (s : State) (k : Fin 8) (f : Suite → Suite) : (s.modSuite k f).primer = s.primer := rfl
@[simp] theorem State.modSuite_dies (s : State) (k : Fin 8) (f : Suite → Suite) : (s.modSuite k f).dies = s.dies := rfl
@[simp] theorem State.modSuite_suites (s : State) (k : Fin 8) (f : Suite → Suite) : (s.modSuite k f).suites = s.suites.set k (f s.suites[k]) := rfl
@[simp] theorem State.modSuite_mem (s : State) (k : Fin 8) (f : Suite → Suite) : (s.modSuite k f).mem = s.mem := rfl
@[simp] theorem State.modSuite_poison (s : State) (k : Fin 8) (f : Suite → Suite) : (s.modSuite k f).poison = s.poison := rfl
@[simp] theorem State.modSuite_host (s : State) (k : Fin 8) (f : Suite → Suite) : (s.modSuite k f).host = s.host := rfl
@[simp] theorem State.modSuite_latch (s : State) (k : Fin 8) (f : Suite → Suite) : (s.modSuite k f).latch = s.latch := rfl
@[simp] theorem State.modSuite_msix (s : State) (k : Fin 8) (f : Suite → Suite) : (s.modSuite k f).msix = s.msix := rfl
@[simp] theorem State.modSuite_smbus (s : State) (k : Fin 8) (f : Suite → Suite) : (s.modSuite k f).smbus = s.smbus := rfl
@[simp] theorem State.modSuite_taps (s : State) (k : Fin 8) (f : Suite → Suite) : (s.modSuite k f).taps = s.taps := rfl
@[simp] theorem State.modSuite_doe (s : State) (k : Fin 8) (f : Suite → Suite) : (s.modSuite k f).doe = s.doe := rfl
@[simp] theorem State.modSuite_bscanLocked (s : State) (k : Fin 8) (f : Suite → Suite) : (s.modSuite k f).bscanLocked = s.bscanLocked := rfl
@[simp] theorem State.modSuite_unlocked (s : State) (k : Fin 8) (f : Suite → Suite) : (s.modSuite k f).unlocked = s.unlocked := rfl
@[simp] theorem State.modSuite_keyGen (s : State) (k : Fin 8) (f : Suite → Suite) : (s.modSuite k f).keyGen = s.keyGen := rfl
@[simp] theorem State.modSuite_free (s : State) (k : Fin 8) (f : Suite → Suite) : (s.modSuite k f).free = s.free := rfl
@[simp] theorem State.modSuite_pending (s : State) (k : Fin 8) (f : Suite → Suite) : (s.modSuite k f).pending = s.pending := rfl

/-! ### modTask -/

@[simp] theorem State.modTask_fuses (s : State) (k : Fin 8) (h : Nat) (f : Task → Task) : (s.modTask k h f).fuses = s.fuses := rfl
@[simp] theorem State.modTask_flash (s : State) (k : Fin 8) (h : Nat) (f : Task → Task) : (s.modTask k h f).flash = s.flash := rfl
@[simp] theorem State.modTask_power (s : State) (k : Fin 8) (h : Nat) (f : Task → Task) : (s.modTask k h f).power = s.power := rfl
@[simp] theorem State.modTask_clk (s : State) (k : Fin 8) (h : Nat) (f : Task → Task) : (s.modTask k h f).clk = s.clk := rfl
@[simp] theorem State.modTask_mgt (s : State) (k : Fin 8) (h : Nat) (f : Task → Task) : (s.modTask k h f).mgt = s.mgt := rfl
@[simp] theorem State.modTask_mbx (s : State) (k : Fin 8) (h : Nat) (f : Task → Task) : (s.modTask k h f).mbx = s.mbx := rfl
@[simp] theorem State.modTask_sec (s : State) (k : Fin 8) (h : Nat) (f : Task → Task) : (s.modTask k h f).sec = s.sec := rfl
@[simp] theorem State.modTask_hlt (s : State) (k : Fin 8) (h : Nat) (f : Task → Task) : (s.modTask k h f).hlt = s.hlt := rfl
@[simp] theorem State.modTask_layout (s : State) (k : Fin 8) (h : Nat) (f : Task → Task) : (s.modTask k h f).layout = s.layout := rfl
@[simp] theorem State.modTask_primer (s : State) (k : Fin 8) (h : Nat) (f : Task → Task) : (s.modTask k h f).primer = s.primer := rfl
@[simp] theorem State.modTask_dies (s : State) (k : Fin 8) (h : Nat) (f : Task → Task) : (s.modTask k h f).dies = s.dies := rfl
@[simp] theorem State.modTask_mem (s : State) (k : Fin 8) (h : Nat) (f : Task → Task) : (s.modTask k h f).mem = s.mem := rfl
@[simp] theorem State.modTask_poison (s : State) (k : Fin 8) (h : Nat) (f : Task → Task) : (s.modTask k h f).poison = s.poison := rfl
@[simp] theorem State.modTask_host (s : State) (k : Fin 8) (h : Nat) (f : Task → Task) : (s.modTask k h f).host = s.host := rfl
@[simp] theorem State.modTask_latch (s : State) (k : Fin 8) (h : Nat) (f : Task → Task) : (s.modTask k h f).latch = s.latch := rfl
@[simp] theorem State.modTask_msix (s : State) (k : Fin 8) (h : Nat) (f : Task → Task) : (s.modTask k h f).msix = s.msix := rfl
@[simp] theorem State.modTask_smbus (s : State) (k : Fin 8) (h : Nat) (f : Task → Task) : (s.modTask k h f).smbus = s.smbus := rfl
@[simp] theorem State.modTask_taps (s : State) (k : Fin 8) (h : Nat) (f : Task → Task) : (s.modTask k h f).taps = s.taps := rfl
@[simp] theorem State.modTask_doe (s : State) (k : Fin 8) (h : Nat) (f : Task → Task) : (s.modTask k h f).doe = s.doe := rfl
@[simp] theorem State.modTask_bscanLocked (s : State) (k : Fin 8) (h : Nat) (f : Task → Task) : (s.modTask k h f).bscanLocked = s.bscanLocked := rfl
@[simp] theorem State.modTask_unlocked (s : State) (k : Fin 8) (h : Nat) (f : Task → Task) : (s.modTask k h f).unlocked = s.unlocked := rfl
@[simp] theorem State.modTask_keyGen (s : State) (k : Fin 8) (h : Nat) (f : Task → Task) : (s.modTask k h f).keyGen = s.keyGen := rfl
@[simp] theorem State.modTask_free (s : State) (k : Fin 8) (h : Nat) (f : Task → Task) : (s.modTask k h f).free = s.free := rfl
@[simp] theorem State.modTask_pending (s : State) (k : Fin 8) (h : Nat) (f : Task → Task) : (s.modTask k h f).pending = s.pending := rfl

/-! ### finish -/

@[simp] theorem State.finish_fuses (s : State) (k : Fin 8) (h : Nat) (x : Status) : (s.finish k h x).fuses = s.fuses := rfl
@[simp] theorem State.finish_flash (s : State) (k : Fin 8) (h : Nat) (x : Status) : (s.finish k h x).flash = s.flash := rfl
@[simp] theorem State.finish_power (s : State) (k : Fin 8) (h : Nat) (x : Status) : (s.finish k h x).power = s.power := rfl
@[simp] theorem State.finish_clk (s : State) (k : Fin 8) (h : Nat) (x : Status) : (s.finish k h x).clk = s.clk := rfl
@[simp] theorem State.finish_mgt (s : State) (k : Fin 8) (h : Nat) (x : Status) : (s.finish k h x).mgt = s.mgt := rfl
@[simp] theorem State.finish_mbx (s : State) (k : Fin 8) (h : Nat) (x : Status) : (s.finish k h x).mbx = s.mbx := rfl
@[simp] theorem State.finish_sec (s : State) (k : Fin 8) (h : Nat) (x : Status) : (s.finish k h x).sec = s.sec := rfl
@[simp] theorem State.finish_hlt (s : State) (k : Fin 8) (h : Nat) (x : Status) : (s.finish k h x).hlt = s.hlt := rfl
@[simp] theorem State.finish_layout (s : State) (k : Fin 8) (h : Nat) (x : Status) : (s.finish k h x).layout = s.layout := rfl
@[simp] theorem State.finish_primer (s : State) (k : Fin 8) (h : Nat) (x : Status) : (s.finish k h x).primer = s.primer := rfl
@[simp] theorem State.finish_dies (s : State) (k : Fin 8) (h : Nat) (x : Status) : (s.finish k h x).dies = s.dies := rfl
@[simp] theorem State.finish_mem (s : State) (k : Fin 8) (h : Nat) (x : Status) : (s.finish k h x).mem = s.mem := rfl
@[simp] theorem State.finish_poison (s : State) (k : Fin 8) (h : Nat) (x : Status) : (s.finish k h x).poison = s.poison := rfl
@[simp] theorem State.finish_host (s : State) (k : Fin 8) (h : Nat) (x : Status) : (s.finish k h x).host = s.host := rfl
@[simp] theorem State.finish_latch (s : State) (k : Fin 8) (h : Nat) (x : Status) : (s.finish k h x).latch = s.latch := rfl
@[simp] theorem State.finish_msix (s : State) (k : Fin 8) (h : Nat) (x : Status) : (s.finish k h x).msix = s.msix := rfl
@[simp] theorem State.finish_smbus (s : State) (k : Fin 8) (h : Nat) (x : Status) : (s.finish k h x).smbus = s.smbus := rfl
@[simp] theorem State.finish_taps (s : State) (k : Fin 8) (h : Nat) (x : Status) : (s.finish k h x).taps = s.taps := rfl
@[simp] theorem State.finish_doe (s : State) (k : Fin 8) (h : Nat) (x : Status) : (s.finish k h x).doe = s.doe := rfl
@[simp] theorem State.finish_bscanLocked (s : State) (k : Fin 8) (h : Nat) (x : Status) : (s.finish k h x).bscanLocked = s.bscanLocked := rfl
@[simp] theorem State.finish_unlocked (s : State) (k : Fin 8) (h : Nat) (x : Status) : (s.finish k h x).unlocked = s.unlocked := rfl
@[simp] theorem State.finish_keyGen (s : State) (k : Fin 8) (h : Nat) (x : Status) : (s.finish k h x).keyGen = s.keyGen := rfl
@[simp] theorem State.finish_free (s : State) (k : Fin 8) (h : Nat) (x : Status) : (s.finish k h x).free = s.free := rfl
@[simp] theorem State.finish_pending (s : State) (k : Fin 8) (h : Nat) (x : Status) : (s.finish k h x).pending = s.pending := rfl

/-! ### modDie -/

@[simp] theorem State.modDie_fuses (s : State) (d : Fin 8) (f : Die → Die) : (s.modDie d f).fuses = s.fuses := rfl
@[simp] theorem State.modDie_flash (s : State) (d : Fin 8) (f : Die → Die) : (s.modDie d f).flash = s.flash := rfl
@[simp] theorem State.modDie_power (s : State) (d : Fin 8) (f : Die → Die) : (s.modDie d f).power = s.power := rfl
@[simp] theorem State.modDie_clk (s : State) (d : Fin 8) (f : Die → Die) : (s.modDie d f).clk = s.clk := rfl
@[simp] theorem State.modDie_mgt (s : State) (d : Fin 8) (f : Die → Die) : (s.modDie d f).mgt = s.mgt := rfl
@[simp] theorem State.modDie_mbx (s : State) (d : Fin 8) (f : Die → Die) : (s.modDie d f).mbx = s.mbx := rfl
@[simp] theorem State.modDie_sec (s : State) (d : Fin 8) (f : Die → Die) : (s.modDie d f).sec = s.sec := rfl
@[simp] theorem State.modDie_hlt (s : State) (d : Fin 8) (f : Die → Die) : (s.modDie d f).hlt = s.hlt := rfl
@[simp] theorem State.modDie_layout (s : State) (d : Fin 8) (f : Die → Die) : (s.modDie d f).layout = s.layout := rfl
@[simp] theorem State.modDie_primer (s : State) (d : Fin 8) (f : Die → Die) : (s.modDie d f).primer = s.primer := rfl
@[simp] theorem State.modDie_dies (s : State) (d : Fin 8) (f : Die → Die) : (s.modDie d f).dies = s.dies.set d (f s.dies[d]) := rfl
@[simp] theorem State.modDie_suites (s : State) (d : Fin 8) (f : Die → Die) : (s.modDie d f).suites = s.suites := rfl
@[simp] theorem State.modDie_mem (s : State) (d : Fin 8) (f : Die → Die) : (s.modDie d f).mem = s.mem := rfl
@[simp] theorem State.modDie_poison (s : State) (d : Fin 8) (f : Die → Die) : (s.modDie d f).poison = s.poison := rfl
@[simp] theorem State.modDie_host (s : State) (d : Fin 8) (f : Die → Die) : (s.modDie d f).host = s.host := rfl
@[simp] theorem State.modDie_latch (s : State) (d : Fin 8) (f : Die → Die) : (s.modDie d f).latch = s.latch := rfl
@[simp] theorem State.modDie_msix (s : State) (d : Fin 8) (f : Die → Die) : (s.modDie d f).msix = s.msix := rfl
@[simp] theorem State.modDie_smbus (s : State) (d : Fin 8) (f : Die → Die) : (s.modDie d f).smbus = s.smbus := rfl
@[simp] theorem State.modDie_taps (s : State) (d : Fin 8) (f : Die → Die) : (s.modDie d f).taps = s.taps := rfl
@[simp] theorem State.modDie_doe (s : State) (d : Fin 8) (f : Die → Die) : (s.modDie d f).doe = s.doe := rfl
@[simp] theorem State.modDie_bscanLocked (s : State) (d : Fin 8) (f : Die → Die) : (s.modDie d f).bscanLocked = s.bscanLocked := rfl
@[simp] theorem State.modDie_unlocked (s : State) (d : Fin 8) (f : Die → Die) : (s.modDie d f).unlocked = s.unlocked := rfl
@[simp] theorem State.modDie_keyGen (s : State) (d : Fin 8) (f : Die → Die) : (s.modDie d f).keyGen = s.keyGen := rfl
@[simp] theorem State.modDie_free (s : State) (d : Fin 8) (f : Die → Die) : (s.modDie d f).free = s.free := rfl
@[simp] theorem State.modDie_pending (s : State) (d : Fin 8) (f : Die → Die) : (s.modDie d f).pending = s.pending := rfl

/-! ### modPanel -/

@[simp] theorem State.modPanel_fuses (s : State) (d : Fin 8) (p : Fin 104) (f : Panel → Panel) : (s.modPanel d p f).fuses = s.fuses := rfl
@[simp] theorem State.modPanel_flash (s : State) (d : Fin 8) (p : Fin 104) (f : Panel → Panel) : (s.modPanel d p f).flash = s.flash := rfl
@[simp] theorem State.modPanel_power (s : State) (d : Fin 8) (p : Fin 104) (f : Panel → Panel) : (s.modPanel d p f).power = s.power := rfl
@[simp] theorem State.modPanel_clk (s : State) (d : Fin 8) (p : Fin 104) (f : Panel → Panel) : (s.modPanel d p f).clk = s.clk := rfl
@[simp] theorem State.modPanel_mgt (s : State) (d : Fin 8) (p : Fin 104) (f : Panel → Panel) : (s.modPanel d p f).mgt = s.mgt := rfl
@[simp] theorem State.modPanel_mbx (s : State) (d : Fin 8) (p : Fin 104) (f : Panel → Panel) : (s.modPanel d p f).mbx = s.mbx := rfl
@[simp] theorem State.modPanel_sec (s : State) (d : Fin 8) (p : Fin 104) (f : Panel → Panel) : (s.modPanel d p f).sec = s.sec := rfl
@[simp] theorem State.modPanel_hlt (s : State) (d : Fin 8) (p : Fin 104) (f : Panel → Panel) : (s.modPanel d p f).hlt = s.hlt := rfl
@[simp] theorem State.modPanel_layout (s : State) (d : Fin 8) (p : Fin 104) (f : Panel → Panel) : (s.modPanel d p f).layout = s.layout := rfl
@[simp] theorem State.modPanel_primer (s : State) (d : Fin 8) (p : Fin 104) (f : Panel → Panel) : (s.modPanel d p f).primer = s.primer := rfl
@[simp] theorem State.modPanel_suites (s : State) (d : Fin 8) (p : Fin 104) (f : Panel → Panel) : (s.modPanel d p f).suites = s.suites := rfl
@[simp] theorem State.modPanel_mem (s : State) (d : Fin 8) (p : Fin 104) (f : Panel → Panel) : (s.modPanel d p f).mem = s.mem := rfl
@[simp] theorem State.modPanel_poison (s : State) (d : Fin 8) (p : Fin 104) (f : Panel → Panel) : (s.modPanel d p f).poison = s.poison := rfl
@[simp] theorem State.modPanel_host (s : State) (d : Fin 8) (p : Fin 104) (f : Panel → Panel) : (s.modPanel d p f).host = s.host := rfl
@[simp] theorem State.modPanel_latch (s : State) (d : Fin 8) (p : Fin 104) (f : Panel → Panel) : (s.modPanel d p f).latch = s.latch := rfl
@[simp] theorem State.modPanel_msix (s : State) (d : Fin 8) (p : Fin 104) (f : Panel → Panel) : (s.modPanel d p f).msix = s.msix := rfl
@[simp] theorem State.modPanel_smbus (s : State) (d : Fin 8) (p : Fin 104) (f : Panel → Panel) : (s.modPanel d p f).smbus = s.smbus := rfl
@[simp] theorem State.modPanel_taps (s : State) (d : Fin 8) (p : Fin 104) (f : Panel → Panel) : (s.modPanel d p f).taps = s.taps := rfl
@[simp] theorem State.modPanel_doe (s : State) (d : Fin 8) (p : Fin 104) (f : Panel → Panel) : (s.modPanel d p f).doe = s.doe := rfl
@[simp] theorem State.modPanel_bscanLocked (s : State) (d : Fin 8) (p : Fin 104) (f : Panel → Panel) : (s.modPanel d p f).bscanLocked = s.bscanLocked := rfl
@[simp] theorem State.modPanel_unlocked (s : State) (d : Fin 8) (p : Fin 104) (f : Panel → Panel) : (s.modPanel d p f).unlocked = s.unlocked := rfl
@[simp] theorem State.modPanel_keyGen (s : State) (d : Fin 8) (p : Fin 104) (f : Panel → Panel) : (s.modPanel d p f).keyGen = s.keyGen := rfl
@[simp] theorem State.modPanel_free (s : State) (d : Fin 8) (p : Fin 104) (f : Panel → Panel) : (s.modPanel d p f).free = s.free := rfl
@[simp] theorem State.modPanel_pending (s : State) (d : Fin 8) (p : Fin 104) (f : Panel → Panel) : (s.modPanel d p f).pending = s.pending := rfl

/-! ### modStack -/

@[simp] theorem State.modStack_fuses (s : State) (d : Fin 8) (i : Fin 12) (f : Stack → Stack) : (s.modStack d i f).fuses = s.fuses := rfl
@[simp] theorem State.modStack_flash (s : State) (d : Fin 8) (i : Fin 12) (f : Stack → Stack) : (s.modStack d i f).flash = s.flash := rfl
@[simp] theorem State.modStack_power (s : State) (d : Fin 8) (i : Fin 12) (f : Stack → Stack) : (s.modStack d i f).power = s.power := rfl
@[simp] theorem State.modStack_clk (s : State) (d : Fin 8) (i : Fin 12) (f : Stack → Stack) : (s.modStack d i f).clk = s.clk := rfl
@[simp] theorem State.modStack_mgt (s : State) (d : Fin 8) (i : Fin 12) (f : Stack → Stack) : (s.modStack d i f).mgt = s.mgt := rfl
@[simp] theorem State.modStack_mbx (s : State) (d : Fin 8) (i : Fin 12) (f : Stack → Stack) : (s.modStack d i f).mbx = s.mbx := rfl
@[simp] theorem State.modStack_sec (s : State) (d : Fin 8) (i : Fin 12) (f : Stack → Stack) : (s.modStack d i f).sec = s.sec := rfl
@[simp] theorem State.modStack_hlt (s : State) (d : Fin 8) (i : Fin 12) (f : Stack → Stack) : (s.modStack d i f).hlt = s.hlt := rfl
@[simp] theorem State.modStack_layout (s : State) (d : Fin 8) (i : Fin 12) (f : Stack → Stack) : (s.modStack d i f).layout = s.layout := rfl
@[simp] theorem State.modStack_primer (s : State) (d : Fin 8) (i : Fin 12) (f : Stack → Stack) : (s.modStack d i f).primer = s.primer := rfl
@[simp] theorem State.modStack_suites (s : State) (d : Fin 8) (i : Fin 12) (f : Stack → Stack) : (s.modStack d i f).suites = s.suites := rfl
@[simp] theorem State.modStack_mem (s : State) (d : Fin 8) (i : Fin 12) (f : Stack → Stack) : (s.modStack d i f).mem = s.mem := rfl
@[simp] theorem State.modStack_poison (s : State) (d : Fin 8) (i : Fin 12) (f : Stack → Stack) : (s.modStack d i f).poison = s.poison := rfl
@[simp] theorem State.modStack_host (s : State) (d : Fin 8) (i : Fin 12) (f : Stack → Stack) : (s.modStack d i f).host = s.host := rfl
@[simp] theorem State.modStack_latch (s : State) (d : Fin 8) (i : Fin 12) (f : Stack → Stack) : (s.modStack d i f).latch = s.latch := rfl
@[simp] theorem State.modStack_msix (s : State) (d : Fin 8) (i : Fin 12) (f : Stack → Stack) : (s.modStack d i f).msix = s.msix := rfl
@[simp] theorem State.modStack_smbus (s : State) (d : Fin 8) (i : Fin 12) (f : Stack → Stack) : (s.modStack d i f).smbus = s.smbus := rfl
@[simp] theorem State.modStack_taps (s : State) (d : Fin 8) (i : Fin 12) (f : Stack → Stack) : (s.modStack d i f).taps = s.taps := rfl
@[simp] theorem State.modStack_doe (s : State) (d : Fin 8) (i : Fin 12) (f : Stack → Stack) : (s.modStack d i f).doe = s.doe := rfl
@[simp] theorem State.modStack_bscanLocked (s : State) (d : Fin 8) (i : Fin 12) (f : Stack → Stack) : (s.modStack d i f).bscanLocked = s.bscanLocked := rfl
@[simp] theorem State.modStack_unlocked (s : State) (d : Fin 8) (i : Fin 12) (f : Stack → Stack) : (s.modStack d i f).unlocked = s.unlocked := rfl
@[simp] theorem State.modStack_keyGen (s : State) (d : Fin 8) (i : Fin 12) (f : Stack → Stack) : (s.modStack d i f).keyGen = s.keyGen := rfl
@[simp] theorem State.modStack_free (s : State) (d : Fin 8) (i : Fin 12) (f : Stack → Stack) : (s.modStack d i f).free = s.free := rfl
@[simp] theorem State.modStack_pending (s : State) (d : Fin 8) (i : Fin 12) (f : Stack → Stack) : (s.modStack d i f).pending = s.pending := rfl

/-! ### modPort -/

@[simp] theorem State.modPort_fuses (s : State) (d : Fin 8) (q : Fin 2) (f : Port → Port) : (s.modPort d q f).fuses = s.fuses := rfl
@[simp] theorem State.modPort_flash (s : State) (d : Fin 8) (q : Fin 2) (f : Port → Port) : (s.modPort d q f).flash = s.flash := rfl
@[simp] theorem State.modPort_power (s : State) (d : Fin 8) (q : Fin 2) (f : Port → Port) : (s.modPort d q f).power = s.power := rfl
@[simp] theorem State.modPort_clk (s : State) (d : Fin 8) (q : Fin 2) (f : Port → Port) : (s.modPort d q f).clk = s.clk := rfl
@[simp] theorem State.modPort_mgt (s : State) (d : Fin 8) (q : Fin 2) (f : Port → Port) : (s.modPort d q f).mgt = s.mgt := rfl
@[simp] theorem State.modPort_mbx (s : State) (d : Fin 8) (q : Fin 2) (f : Port → Port) : (s.modPort d q f).mbx = s.mbx := rfl
@[simp] theorem State.modPort_sec (s : State) (d : Fin 8) (q : Fin 2) (f : Port → Port) : (s.modPort d q f).sec = s.sec := rfl
@[simp] theorem State.modPort_hlt (s : State) (d : Fin 8) (q : Fin 2) (f : Port → Port) : (s.modPort d q f).hlt = s.hlt := rfl
@[simp] theorem State.modPort_layout (s : State) (d : Fin 8) (q : Fin 2) (f : Port → Port) : (s.modPort d q f).layout = s.layout := rfl
@[simp] theorem State.modPort_primer (s : State) (d : Fin 8) (q : Fin 2) (f : Port → Port) : (s.modPort d q f).primer = s.primer := rfl
@[simp] theorem State.modPort_suites (s : State) (d : Fin 8) (q : Fin 2) (f : Port → Port) : (s.modPort d q f).suites = s.suites := rfl
@[simp] theorem State.modPort_mem (s : State) (d : Fin 8) (q : Fin 2) (f : Port → Port) : (s.modPort d q f).mem = s.mem := rfl
@[simp] theorem State.modPort_poison (s : State) (d : Fin 8) (q : Fin 2) (f : Port → Port) : (s.modPort d q f).poison = s.poison := rfl
@[simp] theorem State.modPort_host (s : State) (d : Fin 8) (q : Fin 2) (f : Port → Port) : (s.modPort d q f).host = s.host := rfl
@[simp] theorem State.modPort_latch (s : State) (d : Fin 8) (q : Fin 2) (f : Port → Port) : (s.modPort d q f).latch = s.latch := rfl
@[simp] theorem State.modPort_msix (s : State) (d : Fin 8) (q : Fin 2) (f : Port → Port) : (s.modPort d q f).msix = s.msix := rfl
@[simp] theorem State.modPort_smbus (s : State) (d : Fin 8) (q : Fin 2) (f : Port → Port) : (s.modPort d q f).smbus = s.smbus := rfl
@[simp] theorem State.modPort_taps (s : State) (d : Fin 8) (q : Fin 2) (f : Port → Port) : (s.modPort d q f).taps = s.taps := rfl
@[simp] theorem State.modPort_doe (s : State) (d : Fin 8) (q : Fin 2) (f : Port → Port) : (s.modPort d q f).doe = s.doe := rfl
@[simp] theorem State.modPort_bscanLocked (s : State) (d : Fin 8) (q : Fin 2) (f : Port → Port) : (s.modPort d q f).bscanLocked = s.bscanLocked := rfl
@[simp] theorem State.modPort_unlocked (s : State) (d : Fin 8) (q : Fin 2) (f : Port → Port) : (s.modPort d q f).unlocked = s.unlocked := rfl
@[simp] theorem State.modPort_keyGen (s : State) (d : Fin 8) (q : Fin 2) (f : Port → Port) : (s.modPort d q f).keyGen = s.keyGen := rfl
@[simp] theorem State.modPort_free (s : State) (d : Fin 8) (q : Fin 2) (f : Port → Port) : (s.modPort d q f).free = s.free := rfl
@[simp] theorem State.modPort_pending (s : State) (d : Fin 8) (q : Fin 2) (f : Port → Port) : (s.modPort d q f).pending = s.pending := rfl

/-! ### modEdge -/

@[simp] theorem State.modEdge_fuses (s : State) (d : Fin 8) (e : Fin 3) (f : Edge → Edge) : (s.modEdge d e f).fuses = s.fuses := rfl
@[simp] theorem State.modEdge_flash (s : State) (d : Fin 8) (e : Fin 3) (f : Edge → Edge) : (s.modEdge d e f).flash = s.flash := rfl
@[simp] theorem State.modEdge_power (s : State) (d : Fin 8) (e : Fin 3) (f : Edge → Edge) : (s.modEdge d e f).power = s.power := rfl
@[simp] theorem State.modEdge_clk (s : State) (d : Fin 8) (e : Fin 3) (f : Edge → Edge) : (s.modEdge d e f).clk = s.clk := rfl
@[simp] theorem State.modEdge_mgt (s : State) (d : Fin 8) (e : Fin 3) (f : Edge → Edge) : (s.modEdge d e f).mgt = s.mgt := rfl
@[simp] theorem State.modEdge_mbx (s : State) (d : Fin 8) (e : Fin 3) (f : Edge → Edge) : (s.modEdge d e f).mbx = s.mbx := rfl
@[simp] theorem State.modEdge_sec (s : State) (d : Fin 8) (e : Fin 3) (f : Edge → Edge) : (s.modEdge d e f).sec = s.sec := rfl
@[simp] theorem State.modEdge_hlt (s : State) (d : Fin 8) (e : Fin 3) (f : Edge → Edge) : (s.modEdge d e f).hlt = s.hlt := rfl
@[simp] theorem State.modEdge_layout (s : State) (d : Fin 8) (e : Fin 3) (f : Edge → Edge) : (s.modEdge d e f).layout = s.layout := rfl
@[simp] theorem State.modEdge_primer (s : State) (d : Fin 8) (e : Fin 3) (f : Edge → Edge) : (s.modEdge d e f).primer = s.primer := rfl
@[simp] theorem State.modEdge_suites (s : State) (d : Fin 8) (e : Fin 3) (f : Edge → Edge) : (s.modEdge d e f).suites = s.suites := rfl
@[simp] theorem State.modEdge_mem (s : State) (d : Fin 8) (e : Fin 3) (f : Edge → Edge) : (s.modEdge d e f).mem = s.mem := rfl
@[simp] theorem State.modEdge_poison (s : State) (d : Fin 8) (e : Fin 3) (f : Edge → Edge) : (s.modEdge d e f).poison = s.poison := rfl
@[simp] theorem State.modEdge_host (s : State) (d : Fin 8) (e : Fin 3) (f : Edge → Edge) : (s.modEdge d e f).host = s.host := rfl
@[simp] theorem State.modEdge_latch (s : State) (d : Fin 8) (e : Fin 3) (f : Edge → Edge) : (s.modEdge d e f).latch = s.latch := rfl
@[simp] theorem State.modEdge_msix (s : State) (d : Fin 8) (e : Fin 3) (f : Edge → Edge) : (s.modEdge d e f).msix = s.msix := rfl
@[simp] theorem State.modEdge_smbus (s : State) (d : Fin 8) (e : Fin 3) (f : Edge → Edge) : (s.modEdge d e f).smbus = s.smbus := rfl
@[simp] theorem State.modEdge_taps (s : State) (d : Fin 8) (e : Fin 3) (f : Edge → Edge) : (s.modEdge d e f).taps = s.taps := rfl
@[simp] theorem State.modEdge_doe (s : State) (d : Fin 8) (e : Fin 3) (f : Edge → Edge) : (s.modEdge d e f).doe = s.doe := rfl
@[simp] theorem State.modEdge_bscanLocked (s : State) (d : Fin 8) (e : Fin 3) (f : Edge → Edge) : (s.modEdge d e f).bscanLocked = s.bscanLocked := rfl
@[simp] theorem State.modEdge_unlocked (s : State) (d : Fin 8) (e : Fin 3) (f : Edge → Edge) : (s.modEdge d e f).unlocked = s.unlocked := rfl
@[simp] theorem State.modEdge_keyGen (s : State) (d : Fin 8) (e : Fin 3) (f : Edge → Edge) : (s.modEdge d e f).keyGen = s.keyGen := rfl
@[simp] theorem State.modEdge_free (s : State) (d : Fin 8) (e : Fin 3) (f : Edge → Edge) : (s.modEdge d e f).free = s.free := rfl
@[simp] theorem State.modEdge_pending (s : State) (d : Fin 8) (e : Fin 3) (f : Edge → Edge) : (s.modEdge d e f).pending = s.pending := rfl

/-! ### Reading an updated part back -/

@[simp] theorem State.modSuite_self (s : State) (k : Fin 8) (f : Suite → Suite) : (s.modSuite k f).suites[k] = f s.suites[k] := by
  simp [State.modSuite]

theorem State.modSuite_other (s : State) (j k : Fin 8) (f : Suite → Suite) (h : j ≠ k) : (s.modSuite k f).suites[j] = s.suites[j] := by
  have : k.val ≠ j.val := fun e => h (Fin.ext e.symm)
  simp [State.modSuite, this]

@[simp] theorem State.modDie_self (s : State) (d : Fin 8) (f : Die → Die) : (s.modDie d f).dies[d] = f s.dies[d] := by
  simp [State.modDie]

theorem State.modDie_other (s : State) (e d : Fin 8) (f : Die → Die) (h : e ≠ d) : (s.modDie d f).dies[e] = s.dies[e] := by
  have : d.val ≠ e.val := fun x => h (Fin.ext x.symm)
  simp [State.modDie, this]

@[simp] theorem State.modPanel_self (s : State) (d : Fin 8) (p : Fin 104) (f : Panel → Panel) : (s.modPanel d p f).panel d p = f (s.panel d p) := by
  simp [State.modPanel, State.panel, State.modDie]

@[simp] theorem State.modStack_self (s : State) (d : Fin 8) (i : Fin 12) (f : Stack → Stack) : (s.modStack d i f).stack d i = f (s.stack d i) := by
  simp [State.modStack, State.stack, State.modDie]

@[simp] theorem State.modPort_self (s : State) (d : Fin 8) (q : Fin 2) (f : Port → Port) : (s.modPort d q f).port d q = f (s.port d q) := by
  simp [State.modPort, State.port, State.modDie]

/-! ### Raising an interrupt vector changes only the messages and the cause bits -/

@[simp] theorem State.raise_fuses (s : State) (fn i : Nat) : (s.raise fn i).fuses = s.fuses := by
  unfold State.raise; dsimp only; repeat' split <;> try rfl
@[simp] theorem State.raise_flash (s : State) (fn i : Nat) : (s.raise fn i).flash = s.flash := by
  unfold State.raise; dsimp only; repeat' split <;> try rfl
@[simp] theorem State.raise_power (s : State) (fn i : Nat) : (s.raise fn i).power = s.power := by
  unfold State.raise; dsimp only; repeat' split <;> try rfl
@[simp] theorem State.raise_clk (s : State) (fn i : Nat) : (s.raise fn i).clk = s.clk := by
  unfold State.raise; dsimp only; repeat' split <;> try rfl
@[simp] theorem State.raise_mbx (s : State) (fn i : Nat) : (s.raise fn i).mbx = s.mbx := by
  unfold State.raise; dsimp only; repeat' split <;> try rfl
@[simp] theorem State.raise_sec (s : State) (fn i : Nat) : (s.raise fn i).sec = s.sec := by
  unfold State.raise; dsimp only; repeat' split <;> try rfl
@[simp] theorem State.raise_hlt (s : State) (fn i : Nat) : (s.raise fn i).hlt = s.hlt := by
  unfold State.raise; dsimp only; repeat' split <;> try rfl
@[simp] theorem State.raise_layout (s : State) (fn i : Nat) : (s.raise fn i).layout = s.layout := by
  unfold State.raise; dsimp only; repeat' split <;> try rfl
@[simp] theorem State.raise_primer (s : State) (fn i : Nat) : (s.raise fn i).primer = s.primer := by
  unfold State.raise; dsimp only; repeat' split <;> try rfl
@[simp] theorem State.raise_dies (s : State) (fn i : Nat) : (s.raise fn i).dies = s.dies := by
  unfold State.raise; dsimp only; repeat' split <;> try rfl
@[simp] theorem State.raise_mem (s : State) (fn i : Nat) : (s.raise fn i).mem = s.mem := by
  unfold State.raise; dsimp only; repeat' split <;> try rfl
@[simp] theorem State.raise_poison (s : State) (fn i : Nat) : (s.raise fn i).poison = s.poison := by
  unfold State.raise; dsimp only; repeat' split <;> try rfl
@[simp] theorem State.raise_host (s : State) (fn i : Nat) : (s.raise fn i).host = s.host := by
  unfold State.raise; dsimp only; repeat' split <;> try rfl
@[simp] theorem State.raise_latch (s : State) (fn i : Nat) : (s.raise fn i).latch = s.latch := by
  unfold State.raise; dsimp only; repeat' split <;> try rfl
@[simp] theorem State.raise_smbus (s : State) (fn i : Nat) : (s.raise fn i).smbus = s.smbus := by
  unfold State.raise; dsimp only; repeat' split <;> try rfl
@[simp] theorem State.raise_taps (s : State) (fn i : Nat) : (s.raise fn i).taps = s.taps := by
  unfold State.raise; dsimp only; repeat' split <;> try rfl
@[simp] theorem State.raise_doe (s : State) (fn i : Nat) : (s.raise fn i).doe = s.doe := by
  unfold State.raise; dsimp only; repeat' split <;> try rfl
@[simp] theorem State.raise_bscanLocked (s : State) (fn i : Nat) : (s.raise fn i).bscanLocked = s.bscanLocked := by
  unfold State.raise; dsimp only; repeat' split <;> try rfl
@[simp] theorem State.raise_unlocked (s : State) (fn i : Nat) : (s.raise fn i).unlocked = s.unlocked := by
  unfold State.raise; dsimp only; repeat' split <;> try rfl
@[simp] theorem State.raise_keyGen (s : State) (fn i : Nat) : (s.raise fn i).keyGen = s.keyGen := by
  unfold State.raise; dsimp only; repeat' split <;> try rfl
@[simp] theorem State.raise_free (s : State) (fn i : Nat) : (s.raise fn i).free = s.free := by
  unfold State.raise; dsimp only; repeat' split <;> try rfl
@[simp] theorem State.raise_pending (s : State) (fn i : Nat) : (s.raise fn i).pending = s.pending := by
  unfold State.raise; dsimp only; repeat' split <;> try rfl

/-! ### Logging an event -/

@[simp] theorem State.mgtEvent_fuses (s : State) (c d u : Nat) (b : List Byte) : (s.mgtEvent c d u b).fuses = s.fuses := by simp [State.mgtEvent]
@[simp] theorem State.mgtEvent_flash (s : State) (c d u : Nat) (b : List Byte) : (s.mgtEvent c d u b).flash = s.flash := by simp [State.mgtEvent]
@[simp] theorem State.mgtEvent_power (s : State) (c d u : Nat) (b : List Byte) : (s.mgtEvent c d u b).power = s.power := by simp [State.mgtEvent]
@[simp] theorem State.mgtEvent_clk (s : State) (c d u : Nat) (b : List Byte) : (s.mgtEvent c d u b).clk = s.clk := by simp [State.mgtEvent]
@[simp] theorem State.mgtEvent_mbx (s : State) (c d u : Nat) (b : List Byte) : (s.mgtEvent c d u b).mbx = s.mbx := by simp [State.mgtEvent]
@[simp] theorem State.mgtEvent_sec (s : State) (c d u : Nat) (b : List Byte) : (s.mgtEvent c d u b).sec = s.sec := by simp [State.mgtEvent]
@[simp] theorem State.mgtEvent_hlt (s : State) (c d u : Nat) (b : List Byte) : (s.mgtEvent c d u b).hlt = s.hlt := by simp [State.mgtEvent]
@[simp] theorem State.mgtEvent_layout (s : State) (c d u : Nat) (b : List Byte) : (s.mgtEvent c d u b).layout = s.layout := by simp [State.mgtEvent]
@[simp] theorem State.mgtEvent_primer (s : State) (c d u : Nat) (b : List Byte) : (s.mgtEvent c d u b).primer = s.primer := by simp [State.mgtEvent]
@[simp] theorem State.mgtEvent_dies (s : State) (c d u : Nat) (b : List Byte) : (s.mgtEvent c d u b).dies = s.dies := by simp [State.mgtEvent]
@[simp] theorem State.mgtEvent_mem (s : State) (c d u : Nat) (b : List Byte) : (s.mgtEvent c d u b).mem = s.mem := by simp [State.mgtEvent]
@[simp] theorem State.mgtEvent_poison (s : State) (c d u : Nat) (b : List Byte) : (s.mgtEvent c d u b).poison = s.poison := by simp [State.mgtEvent]
@[simp] theorem State.mgtEvent_host (s : State) (c d u : Nat) (b : List Byte) : (s.mgtEvent c d u b).host = s.host := by simp [State.mgtEvent]
@[simp] theorem State.mgtEvent_latch (s : State) (c d u : Nat) (b : List Byte) : (s.mgtEvent c d u b).latch = s.latch := by simp [State.mgtEvent]
@[simp] theorem State.mgtEvent_smbus (s : State) (c d u : Nat) (b : List Byte) : (s.mgtEvent c d u b).smbus = s.smbus := by simp [State.mgtEvent]
@[simp] theorem State.mgtEvent_taps (s : State) (c d u : Nat) (b : List Byte) : (s.mgtEvent c d u b).taps = s.taps := by simp [State.mgtEvent]
@[simp] theorem State.mgtEvent_doe (s : State) (c d u : Nat) (b : List Byte) : (s.mgtEvent c d u b).doe = s.doe := by simp [State.mgtEvent]
@[simp] theorem State.mgtEvent_bscanLocked (s : State) (c d u : Nat) (b : List Byte) : (s.mgtEvent c d u b).bscanLocked = s.bscanLocked := by simp [State.mgtEvent]
@[simp] theorem State.mgtEvent_unlocked (s : State) (c d u : Nat) (b : List Byte) : (s.mgtEvent c d u b).unlocked = s.unlocked := by simp [State.mgtEvent]
@[simp] theorem State.mgtEvent_keyGen (s : State) (c d u : Nat) (b : List Byte) : (s.mgtEvent c d u b).keyGen = s.keyGen := by simp [State.mgtEvent]
@[simp] theorem State.mgtEvent_free (s : State) (c d u : Nat) (b : List Byte) : (s.mgtEvent c d u b).free = s.free := by simp [State.mgtEvent]
@[simp] theorem State.mgtEvent_pending (s : State) (c d u : Nat) (b : List Byte) : (s.mgtEvent c d u b).pending = s.pending := by simp [State.mgtEvent]

end Sys2Proof.Machine
end

