-- ==== Sys2Proof/Tests/Slice0.lean ====
section
/-! SUPPORT. Tests: ill-formed commands are refused; worked examples of the spec, one operation or one step each; and, for every statement with
hypotheses, states and operands that meet them. -/

namespace Sys2Proof.Tests

open Sys2Proof Sys2Proof.Machine

set_option maxRecDepth 100000
set_option Elab.async false

/-! ## Ill-formed commands -/

/-- A frame header for tests: type 0x12, class C1, from die 0 of a neighbour to die 0. -/
def tFrame : Frame :=
  { type := 0x12, vc := 4, cells := 1, flags := 1, dstCoord := [0, 0, 0, 0], dstDie := 0, dstSuite := 0, srcDie := 0, srcSuite := 0,
    srcCoord := [1, 0, 0, 0], hops := 0, suiteDies := 1, keyEpoch := 1, frameCtr := 1, arg := List.replicate 8 0, tagOk := true }

theorem test_wf_taskFetch : (Instr.taskFetch 0 (.queue 0 (List.replicate 127 0))).wf = false := by decide
theorem test_wf_taskFetch_good : (Instr.taskFetch 0 (.queue 0 (List.replicate 128 0))).wf = true := by decide
theorem test_wf_registerWrite_size : (Instr.registerWrite 0 0x40 3 0xF 0).wf = false := by decide
theorem test_wf_registerWrite_offset : (Instr.registerWrite 0 0x2000000 4 0xF 0).wf = false := by decide
theorem test_wf_registerWrite_suite : (Instr.registerWrite 1 0x100000 4 0xF 0).wf = false := by decide
theorem test_wf_rwbWrite : (Instr.rwbWrite 2 0x100000 0).wf = false := by decide
theorem test_wf_latchedReadLo : (Instr.latchedReadLo 0 0x2000000).wf = false := by decide
theorem test_wf_guardedWrite : (Instr.guardedWrite 0x40 0 0x2000000 0 0 false).wf = false := by decide
theorem test_wf_relayHostIn : (Instr.relayHostIn 0 0 [1]).wf = false := by decide
theorem test_wf_markLoad : (Instr.markLoad 0 0 (List.replicate 64 0)).wf = false := by decide
theorem test_wf_mergeAdd : (Instr.mergeAdd 0 0 0 [(1, 4)]).wf = false := by decide
theorem test_wf_exchData : (Instr.exchData 0 0 { tFrame with srcCoord := [1] } [] [] []).wf = false := by decide
theorem test_wf_exchCarry : (Instr.exchCarry 0 0 { tFrame with cells := 256 } []).wf = false := by decide
theorem test_wf_exchCtrl : (Instr.exchCtrl 0 0 { tFrame with dstDie := 256 } (.ack 0 0 0)).wf = false := by decide
theorem test_wf_getReq : (Instr.getReq 0 0 { tFrame with arg := [] } []).wf = false := by decide
theorem test_wf_frameForward : (Instr.frameForward none 0 { tFrame with dstCoord := [] }).wf = false := by decide
theorem test_wf_frameForward_good : (Instr.frameForward none 0 tFrame).wf = true := by decide
theorem test_wf_memoryWrite : (Instr.memoryWrite 0 0 none none 5 64 [1] 0 [] 0 false).wf = false := by decide
theorem test_wf_memoryWrite_empty : (Instr.memoryWrite 0 0 none none 5 0 [] 0 [] 0 false).wf = false := by decide
theorem test_wf_memoryRead : (Instr.memoryRead 0 0 none none 0 17 [] 0 0 false false false).wf = false := by decide
theorem test_wf_link : (Instr.link 0 0 none [] false).wf = false := by decide
theorem test_wf_getRsp : (Instr.getRsp 0 0 tFrame 0 [1]).wf = false := by decide
theorem test_wf_put : (Instr.put 0 0 tFrame [1]).wf = false := by decide

/-! ## Worked examples of the spec -/

/-- The block of 03's first example: 13/64, −23/256, 1/32, 1/256 and 28 zeros, with the rounding mode of the second element. -/
def tBlock (m : RMode) : List Src :=
  [⟨.fin false 13 (-6), false, .rne⟩, ⟨.fin true 23 (-8), false, m⟩, ⟨.fin false 1 (-5), false, .rne⟩, ⟨.fin false 1 (-8), false, .rne⟩] ++
    List.replicate 28 ⟨.zero, false, .rne⟩

/-- 03, after R64: the block converts with e = 0x7D to 0x5, 0xB, 0x1, 0; CONV 32, UFL 1, SAT 0. -/
theorem test_convert_example : (convBlock .e2m1 (-2) (tBlock .rne)).e8 = 0x7D ∧
    (convBlock .e2m1 (-2) (tBlock .rne)).codes.take 4 = [5, 0xB, 1, 0] ∧ (convBlock .e2m1 (-2) (tBlock .rne)).cnt = ⟨32, 0, 1, 0⟩ := by decide

/-- 03, after R68: with U = 0x9C0000 the second element is stored as 0xB, with U = 0xF00000 as 0xA. -/
theorem test_stochastic_example : (convBlock .e2m1 (-2) (tBlock (.sr 0x9C0000))).codes.getD 1 0 = 0xB ∧
    (convBlock .e2m1 (-2) (tBlock (.sr 0xF00000))).codes.getD 1 0 = 0xA := by decide

/-- R55: QMAX of E4M3 is 448 = 14 × 2^5 at code 0x7E, and 0x7F is not a number. -/
theorem test_e4m3 : decNarrow .e4m3 0x7E = ⟨.fin false 14 5, none⟩ ∧ decNarrow .e4m3 0x7F = ⟨.zero, some 1⟩ := by decide

/-- R92: a sum that leaves the range, and a sum with a mark, is the mark. -/
theorem test_raw_add : rawAdd 0x7FFFFFFF 1 = 0x80000000 ∧ rawAdd 0x80000000 5 = 0x80000000 ∧ rawAdd 0xFFFFFFFE 5 = 3 := by decide

/-- R9: the severity of statuses; POISONED does not displace ABORTED. -/
theorem test_severity : Status.worse .aborted .done = .aborted ∧ Status.worse .done .saturated = .saturated := by decide

/-- The CRC-32 of IEEE 802.3 over the digits 1 to 9. -/
theorem test_crc32 : crc32 ([0x31, 0x32, 0x33, 0x34, 0x35, 0x36, 0x37, 0x38, 0x39]) = 0xCBF43926 := by decide

/-- 09, after R194: unit 0x10_FE10_0000 is homed on die 5, stack 7; it is mapped at full capacity and not after one retirement. -/
theorem test_home_example : homeOf 0x10FE100000 = some (5, 7) ∧ State.reset.mapped 0x10FE100000 = true ∧
    (State.reset.modStack 5 7 fun x => { x with cap := 0x3E040000 }).mapped 0x10FE100000 = false := by decide

/-- R400: 750 MHz keeps 24 of 32 edges. -/
theorem test_edges : edgesOf 750 = 24 ∧ edgesOf 1000 = 32 := by decide

/-- opcode_table.json: no row of the command table gives bits, so no word spells a command. -/
theorem test_decode : decodeTableWord 32 0 = none := by decide

/-- R363, the example of 15: the read at cycle 30 breaks the pair; without it the lock is set. -/
theorem test_guarded_example :
    (match exec (.guardedWrite 0x40 1 0x44 0xFFFFFFFE 52 true) State.reset with | .next t => (t.mgt.lock, t.mgt.accCnt) | _ => (true, 0)) = (false, 1) ∧
    (match exec (.guardedWrite 0x40 1 0x44 0xFFFFFFFE 52 false) State.reset with | .next t => t.mgt.lock | _ => false) = true := by decide

/-! ## States for the witnesses -/

/-- A module that is READY, with all its dies in suite 0, which runs with its stacks filled, its queues and a completion ring of 16 entries. -/
def tBase : State :=
  { State.reset with
    layout := Vector.replicate 8 0
    mgt := { Mgt.reset with stage := .ready }
    dies := Vector.replicate 8 { Die.reset with stks := Vector.replicate 12 { Stack.reset with filled := true } }
    suites := State.reset.suites.set 0 { Suite.reset with
      st := .running, key := some 0
      cq := { CompRing.reset with size := 4 }
      sq := Vector.replicate 4 { SubQueue.reset with size := 4, fn := FnState.running } } }

/-- A task of queue 0 of TYPE `ty` and MODE `m` on die 0, with handle 0. -/
def tTask (ty m : Nat) (st : TaskState) : Task :=
  { newTask 0
      { parseTask (leBytes 1 ty ++ leBytes 1 m) with
        dieMask := 1, waitCtr := 0xFFFF, signalCtr := 3, signalInc := 1, tensors := List.replicate 8 0xFFFF } 0 false .done 0 with
    state := st, reserved := true }

/-- `tBase` with one task. -/
def tWith (x : Task) : State := tBase.modSuite 0 fun u => { u with tasks := [x], nextH := 1 }

/-- The hypothesis `State.Runs` of suite 0 and handle 0, as a Bool. -/
def tRuns (s : State) (type mode : Nat) (t : Task) : Bool :=
  decide (s.task? 0 0 = some t ∧ t.state = .running ∧ t.desc.type = type ∧ t.desc.mode = mode)

/-- `tBase` with one task of a TYPE and MODE. -/
def tRun (ty m : Nat) (st : TaskState) : State := tWith (tTask ty m st)

/-- The cells of blocks of bytes at rising addresses. -/
def tCells (l : List (Nat × List Byte)) : List Host.Cell :=
  l.flatMap fun x => (x.2.zipIdx.filter fun b => b.1 != 0).map fun b => (x.1 + b.2, b.1)

/-- A tensor table at unit 64 with the tensors of a small product at entries 0 to 2: A, an INT8 ST matrix of one row and two columns whose two
strips lie in two lanes; B, an INT8 D matrix of two rows and one column; and C, one INT8 element. At entries 3 and 4 the zero operands of a product
of 512 K positions. -/
def tBlocks : List (Nat × List Byte) :=
  let ent := fun (id layout nc nr base index : Nat) =>
    let row := if layout = 0 then 2 * cdiv nc 64 else 0
    (64 * (64 + id), pack [(2, id), (1, 3), (1, layout), (1, 2), (1, 0), (2, 0xFFFF), (4, nc), (4, nr), (4, 1), (4, 1), (4, 1), (4, row),
      (4, row * nr), (4, row * nr), (4, row * nr), (5, base), (5, index), (5, 0), (5, 0)])
  let hdr := pack [(4, 2), (4, 1), (8, 2), (4, 2), (1, 1), (1, 0), (2, 0), (4, 1), (4, 2), (4, 3), (4, 0), (20, 0)]
  let strip := fun (c : Nat) => pack [(48, c), (4, 0), (4, 2 ^ 20)]
  [ent 0 2 2 1 256 200, ent 1 0 1 2 260 0, ent 2 0 1 1 264 0, ent 3 0 512 1 400 0, ent 4 0 1 512 1000 0, (64 * 200, hdr ++ leBytes 4 (crc32 hdr)),
    (64 * 201 + 4, leBytes 4 2), (64 * 202, pack [(4, 0), (2, 1), (1, 1), (1, 0), (4, 1), (2, 1), (1, 1), (1, 0)]), (64 * 203, strip 0), (64 * 204, strip 1)]

/-- The memory of the small product. -/
def tMem : List Host.Cell := tCells tBlocks

/-- More entries and records. 5, 6 and 8: INT32 D of one element, one and two; 7: an M16 D element; 9: an M16 ST matrix of the shape of entry 0
with its index; 10: an E8M7 D element; 11 and 12: INT8 D elements with a skim copy; 13: a T2 D element; 14 to 16: D elements of its own region, of entry 2's
and of an unmapped one; 17: entry 9 with RETAIN; 18 and 19: INT8 ST matrices, with an index of its own and with a twin list;
20: an INT8 D row of two. At 5500 and 5501 update records,
without and with retained values; at 5510 and 5520 mask records of period 1 and 2. -/
def tMore : List (Nat × List Byte) :=
  let ent := fun (id fmt flags row nc base index skim : Nat) =>
    (64 * (64 + id), pack [(2, id), (1, fmt), (1, 0), (1, 2), (1, flags), (2, 0xFFFF), (4, nc), (4, 1), (4, 1), (4, 1), (4, 1), (4, row), (4, row),
      (4, row), (4, row), (5, base), (5, index), (5, 0), (5, skim)])
  let st := fun (id fmt flags base index twin : Nat) =>
    (64 * (64 + id), pack [(2, id), (1, fmt), (1, 2), (1, 2), (1, flags), (2, 0xFFFF), (4, 2), (4, 1), (4, 1), (4, 1), (4, 1), (16, 0), (5, base), (5, index),
      (5, twin), (5, 0)])
  let crc := fun (n : Nat) (bs : List Byte) => bs ++ leBytes 4 (crc32 (bs.take n))
  let upd := fun (retain : Nat) => crc 60 (pack [(4, 0), (4, 0), (4, 0), (4, 0x3F800000), (4, 0), (4, 0), (4, 0), (4, 0x3F800000), (5, 5600), (5, retain),
    (4, 2), (14, 0)])
  let mask := fun (period : Nat) => crc 124 (pack [(2, 9), (2, 0xFFFF), (2, 0xFFFF), (1, 1), (1, 0), (2, period), (2, 0), (1, 1), (1, 0), (2, 1), (2, 0), (2, 0),
    (4, 0), (4, 0), (4, 0), (5, 6000), (5, 0), (5, 6100), (5, 0), (5, 0), (5, 0), (2, 0), (4, 64), (4, 64), (4, 64), (4, 64), (4, 64), (4, 64), (5, 6200),
    (3, 0), (12, 0), (4, 0), (12, 0)])
  [ent 5 8 0 1 1 3000 3001 0, ent 6 8 0 1 1 3002 3003 0, ent 7 7 0 2 1 3100 0 0, ent 8 8 0 1 2 3004 3005 0, ent 10 6 0 1 1 3300 0 0, ent 11 3 4 2 1 3400 0 3500,
    ent 12 3 4 2 1 3402 0 3510, ent 13 0 0 2 1 3404 0 0, ent 14 3 0 2 1 3420 0 0, ent 15 4 0 2 1 264 0 0, ent 16 4 0 2 1 (96 * 2 ^ 30) 0 0,
    st 9 7 0 3200 200 0, st 17 7 16 3200 200 0, st 18 3 0 7100 7200 0, st 19 3 8 7100 200 7300, ent 20 3 0 2 2 3430 0 0, (64 * 5500, upd 0), (64 * 5501, upd 5700), (64 * 5510, mask 1),
    (64 * 5520, mask 2)]

/-- The memory with some of the entries and of the other units, both in rising order. -/
def tMemOf (ids units : List Nat) : List Host.Cell :=
  let all := tBlocks ++ tMore
  tCells ((ids.map (64 + ·) ++ units).flatMap fun u => all.filter fun x => x.1 / 64 == u)

/-- The units of the index that the ST matrices share. -/
def tIndex : List Nat := [200, 201, 202, 203, 204]

/-- A PLAIN product of those tensors with a merge area of one row at unit 300. -/
def tProd : Task :=
  { tTask 1 0 .running with
    desc := { (tTask 1 0 .running).desc with
      tensors := [0, 1, 2, 0xFFFF, 0xFFFF, 0xFFFF, 0xFFFF, 0xFFFF], shape := [1, 1, 2, 1, 1, 0, 0, 0]
      args := List.replicate 16 0 ++ leBytes 8 300 ++ leBytes 4 1 ++ List.replicate 16 0 } }

/-- A PLAIN product of 512 K positions. -/
def tLong : Task :=
  { tTask 1 0 .running with
    desc := { (tTask 1 0 .running).desc with
      tensors := [3, 4, 2, 0xFFFF, 0xFFFF, 0xFFFF, 0xFFFF, 0xFFFF], shape := [1, 1, 512, 1, 1, 0, 0, 0], args := List.replicate 44 0 } }

/-- The product's tile. -/
def tTile : Tile := { k := 0, h := 0, row := 0, col := 0, batch := 0, part := 0 }

/-- A thread that holds the tile. -/
def tThread (i prio : Nat) : Thread :=
  { id := i, tile := tTile, prio := prio, order := i, readyAt := 0, boosts := 0, started := false, slice := 0, tries := 0, saved := none }

/-- `tBase` with the product, its tensors, and panel 0 of die 0 as given. -/
def tPanel (x : Panel) : State :=
  { tWith tProd with mem := tMem, dies := (tWith tProd).dies.set 0 { Die.reset with
      stks := Vector.replicate 12 { Stack.reset with filled := true }, panels := (Vector.replicate 104 Panel.reset).set 0 x } }.modSuite 0 fun u =>
    { u with lastTable := some (0, 0, 64), tensSet := [0, 1, 2, 3, 4] }

/-- Panel 0, RUNNING, with a thread that waits, and both banks free. -/
def tStart : State := tPanel { Panel.reset with fn := .running, threads := [tThread 0 1] }

/-- `tBase` with 15 entries in queue 0. -/
def tQueue : State := tBase.modSuite 0 fun u => { u with sq := u.sq.set 0 { u.sq[0] with tail := 15 } }

/-- Panel 0 whose thread 0 owns the array, with bank A waiting for the recompute of its tile and bank B computing the same one. -/
def tDrain : State :=
  tPanel { Panel.reset with
    fn := .running, threads := [{ tThread 0 3 with started := true }, tThread 1 1], owner := some 0
    bankA := { Bank.free with state := .draining, tile := some tTile }, bankB := { Bank.free with state := .computing, tile := some tTile } }

/-- `tDrain` with the long product, whose tile thread 0 has begun; thread 1 holds saved banks where `saved` says so. -/
def tPreempt (saved : Bool) : State :=
  (tPanel { Panel.reset with
    fn := .running
    threads := [{ tThread 0 3 with started := true }, { tThread 1 1 with started := saved, saved := if saved then some (.free, .free) else none }]
    owner := some 0, bankA := { Bank.free with state := .computing, tile := some tTile } }).modSuite 0 fun u => { u with tasks := [tLong] }

/-! ## Witnesses: the queue, the reset state, formats, registers -/

theorem witness_StepOnEmptyQueueIsOneTclk : State.reset.pending = [] ∧ State.reset.clk.slew = 0 := by decide
theorem witness_StepKeepsInvariant : State.reset.inv ∧ ∃ t, step State.reset = .next t := ⟨by unfold State.inv State.memInv; decide, _, rfl⟩
theorem witness_EffectsOnlyBlowFuses : ∃ t, exec (.idle 0 0) State.reset = .next t := ⟨_, rfl⟩
theorem witness_ConversionRules : 0 < 1 ∧ Fmt.e4m3.narrow = true ∧ 0x7E < 2 ^ Fmt.e4m3.bits ∧ (decNarrow .e4m3 0x7E).bad = none ∧
    (decNarrow .e4m3 0x7E).v = .fin false 14 5 ∧ dyLe 14 5 Fmt.e4m3.qmax 0 = true ∧ dyLe 15 5 Fmt.e4m3.qmax 0 = false := by decide
theorem witness_Binary32RoundTrip : (f32dec 0x7F7FFFFF).isNan = false ∧ (f32dec 0xFF800000).isNan = false := by decide
theorem witness_RawPartialsAddExactly : -accMax ≤ accMax ∧ accMax ≤ accMax ∧ -accMax ≤ -accMax := by decide

theorem witness_OddAndLockedWrites : ¬((8 : Nat) = 4 ∧ 0x40 % 4 = 0 ∧ (0xF : BitVec 4) = 0xF) ∧ tBase.mgt.stage ≠ .recovery ∧ tBase.mgt.lock = false ∧
    (let s := tBase.modMgt fun m => { m with lock := true }
     s.mgt.lock = true ∧ s.mgt.stage ≠ .recovery ∧ ∃ t, exec (.registerWrite 0 0x30004 4 0xF 5) s = .next t) :=
  ⟨by decide, by decide, by decide, by decide, by decide, _, rfl⟩
theorem witness_GuardedPairs : tBase.mgt.guard = none ∧ (256 : Nat) ≤ 256 ∧ (∃ t, exec (.guardedWrite 0x40 1 0x40 2 5 false) tBase = .next t) ∧
    (∃ t, exec (.guardedWrite 0x40 1 0x44 2 5 false) tBase = .next t) ∧
    (let s := { tBase.modMgt fun m => { m with guard := some (0, 1, false) } with clk := { tBase.clk with time := 321 } }
     s.mgt.guard = some (0, 1, false) ∧ 0 + guardWindow < s.clk.time) :=
  ⟨by decide, by decide, ⟨_, rfl⟩, ⟨_, rfl⟩, by decide, by decide⟩
theorem witness_LatchedReadsAndInterruptClear : latchPair 0 0x100100 = true ∧ ¬((0 : Fin 9).val = 0 ∧ (0x100100 : Nat) < 0x10000) ∧
    (tBase.readRaw 0 (0x100100 + 4)).isSome = true ∧ tBase.sfnAbsent 0 = false ∧ (tBase.readRaw 1 0x500).isSome = true := by decide
theorem witness_BufferedWritesTakeEffectTogether : (tBase.readRaw 0 (0x100000 + 0x80000 + 0x10)).isSome = true ∧ tBase.trwWaits 7 = true ∧
    ({ tBase with layout := Vector.replicate 8 15 } : State).trwWaits 7 = false := by decide

/-! ## Witnesses: queues and completion -/

theorem witness_DoorbellRule : tBase.sfnAbsent 0 = false ∧ ringUsed 16 0 0 + ringUsed 16 15 0 ≤ 15 ∧ ¬((16 : Nat) < 16) ∧
    (tBase.modSuite 0 fun u => { u with sq := u.sq.set 0 { u.sq[0] with err := true } }).suites[0].sq[0].err = true := by decide
theorem witness_HostWritesAndResets : tBase.sfnAbsent 0 = false ∧ ((tBase.suiteDies 0).any fun d => tBase.dies[d].recycling) = false ∧
    (tRun 3 4 .running).Runs 0 0 3 4 (tTask 3 4 .running) ∧ (tRun 10 3 .running).Runs 0 0 10 3 (tTask 10 3 .running) ∧
    (let s := { tBase with mbx := { Mailbox.reset with busy := true } }; s.mbx.busy = true ∧ s.mbx.outcome = none) ∧
    (let s := tQueue
     (s.coordinator 0).isSome = true ∧ s.suites[0].st = .running ∧ s.suites[0].sq[0].err = false ∧ s.suites[0].sq[0].fn.st ≠ .stopped ∧
     ringLen s.suites[0].sq[0].size ≠ 0 ∧ s.suites[0].sq[0].head ≠ s.suites[0].sq[0].tail) := by
  unfold State.Runs; decide
theorem witness_TaskFetchRules : (List.replicate 128 (0 : Byte)).length = 128 ∧ tQueue.suites[0].sq[0].head ≠ tQueue.suites[0].sq[0].tail ∧
    (let s := tBase.modSuite 0 fun u => { u with st := .draining, run := some (Run.mk 0 5 1 0 1 0 0) }
     (s.coordinator 0).isSome = true ∧ s.suites[0].st = .draining ∧ s.suites[0].run = some (Run.mk 0 5 1 0 1 0 0) ∧
     s.poisonIn (64 * 5 + 128 * 0) 128 = false) := by decide
theorem witness_TaskDispatchAndSync :
    ((tRun 9 1 .fetched).Has 0 0 .fetched (tTask 9 1 .fetched) ∧ (tRun 9 1 .fetched).mayDispatch 0 (tTask 9 1 .fetched) = true ∧
      (tRun 9 1 .fetched).refusal 0 (tTask 9 1 .fetched) = none) ∧
    (let x := { tTask 9 1 .fetched with status := .formatError }
     (tWith x).Has 0 0 .fetched x ∧ (tWith x).mayDispatch 0 x = true ∧ (tWith x).refusal 0 x = some .formatError) ∧
    ((tRun 1 0 .waiting).Has 0 0 .waiting (tTask 1 0 .waiting) ∧ (tRun 1 0 .waiting).suites[0].st = .running ∧
      (tRun 1 0 .waiting).mayStart 0 (tTask 1 0 .waiting) = true) ∧
    (let x := { tTask 1 0 .waiting with desc := { (tTask 1 0 .waiting).desc with waitCtr := 0, waitValue := 1 } }
     (tWith x).Has 0 0 .waiting x ∧ (tWith x).mayStart 0 x = false ∧
     (let s := (tWith x).modSuite 0 fun u => { u with st := .draining }; s.Has 0 0 .waiting x ∧ x.program = false ∧ s.suites[0].st ≠ .running)) ∧
    (let s := (tRun 1 0 .running).modSuite 0 fun u => { u with cq := CompRing.reset }
     s.suites[0].cq.room = false ∧ s.Runs 0 0 1 0 (tTask 1 0 .running)) := by
  unfold State.Has State.Runs; decide

theorem witness_TaskCompletion : (tRun 1 0 .finished).Has 0 0 .finished (tTask 1 0 .finished) ∧ (tTask 1 0 .finished).reserved = true ∧
    (tTask 1 0 .finished).needsRecord = true ∧
    (let x := { tTask 9 0 .finished with program := true }; (tWith x).Has 0 0 .finished x ∧ x.reserved = true ∧ x.needsRecord = false) := by
  unfold State.Has; decide

theorem witness_WatchdogAndTimeout :
    (let x := { tTask 1 0 .waiting with desc := { (tTask 1 0 .waiting).desc with waitCtr := 7, waitValue := 1, timeout := 1 } }
     let s := { tWith x with clk := { Clk.reset with time := 2 ^ 40 } }
     s.task? 0 0 = some x ∧ s.waitsOn 0 x = some 7 ∧ x.desc.timeout ≠ 0 ∧ x.waitFrom + 16384 * x.desc.timeout < s.clk.time) ∧
    (let x := { tTask 1 0 .waiting with desc := { (tTask 1 0 .waiting).desc with waitCtr := 7, waitValue := 1 } }
     let s := { tWith x with clk := { Clk.reset with time := 2 ^ 40 } }
     s.task? 0 0 = some x ∧ s.waitsOn 0 x = some 7 ∧ s.dies[x.die0].trw.wdog.toNat % 2 ^ 24 ≠ 0 ∧ x.wdLogged = false ∧ x.desc.timeout = 0 ∧
     x.waitFrom + 16384 * (s.dies[x.die0].trw.wdog.toNat % 2 ^ 24) < s.clk.time) ∧
    (let x := { tTask 4 0 .running with desc := { (tTask 4 0 .running).desc with timeout := 1 } }
     let s := { tWith x with clk := { Clk.reset with time := 2 ^ 40 } }
     s.task? 0 0 = some x ∧ x.desc.timeout ≠ 0 ∧ x.waitFrom + 16384 * x.desc.timeout < s.clk.time ∧ x.state = .running ∧ x.desc.type = 4) := by
  decide
theorem witness_BarriersRunsAndSteps :
    ((tRun 8 0 .running).Has 0 0 .running (tTask 8 0 .running) ∧ (tTask 8 0 .running).desc.type = 8 ∧
      (tTask 8 0 .running).desc.dieMask.getLsbD (0 : Fin 8) = true ∧ (tTask 8 0 .running).arrived.getLsbD (0 : Fin 8) = false ∧
      (tRun 8 0 .running).dies[0].inService = true) ∧
    ((tRun 10 0 .running).Runs 0 0 10 0 (tTask 10 0 .running) ∧ (tRun 10 0 .running).suites[0].run = none ∧
      ((tRun 10 0 .running).suites[0].programs.any fun p => p.intact) = false) ∧
    (let x := { tTask 10 0 .running with desc := { (tTask 10 0 .running).desc with args := List.replicate 14 0 ++ [1] } }
     let s := (tWith x).modSuite 0 fun u => { u with programs := [{ addr := 0, count := 0, digest := [], intact := true }] }
     s.Runs 0 0 10 0 x ∧ s.suites[0].run = none ∧ x.program = false ∧
     (s.suites[0].programs.any fun p => p.addr == x.desc.arg 0 5 && p.count == x.desc.arg 5 4 && p.intact) = true ∧ x.desc.arg 14 4 ≠ 0) ∧
    (tRun 10 1 .running).Runs 0 0 10 1 (tTask 10 1 .running) ∧ (tRun 10 2 .running).Runs 0 0 10 2 (tTask 10 2 .running) := by
  unfold State.Has State.Runs; decide
theorem witness_FunctionsDrainAndRun :
    (tBase.fnOf (.queue 0 1) = some .running ∧ tBase.fnRefused (.queue 0 1) = none ∧ tBase.inFlight (.queue 0 1) = false) ∧
    (let s := tBase.setFn (.queue 0 1) { st := .draining, held := false, since := 0 }
     (s.fnOf (.queue 0 1)).map (·.st) = some .draining ∧ s.inFlight (.queue 0 1) = false) ∧
    (let s := (tRun 1 0 .running).setFn (.queue 0 0) { st := .draining, held := false, since := 0 }
     let z := { s with clk := { s.clk with time := 2 ^ 60 } }
     (z.fnOf (.queue 0 0)).map (·.st) = some .draining ∧ z.inFlight (.queue 0 0) = true ∧ 0 + z.drainLimit (.queue 0 0) ≤ z.clk.time) ∧
    (let s := { tBase with fuses := { Fuses.reset with dies := 4 } }
     s.fnRefused (.port 7 1) = some 1 ∧ (s.fnOf (.port 7 1)).isSome = true) ∧
    (let s := tBase.setFn (.suite 0) { st := .stopped, held := false, since := 0 }
     s.fnRefused (.suite 0) = none ∧ (s.fnOf (.suite 0)).map (·.st) = some .stopped ∧ s.suiteHeld 0 = false) ∧
    (let s := tBase.setFn (.panel 0 5) { st := .stopped, held := false, since := 0 }
     s.fnRefused (.panel 0 5) = none ∧ (s.fnOf (.panel 0 5)).map (·.st) = some .stopped ∧ (s.panel 0 5).role = .enabled) ∧
    tBase.fnRefused (.port 0 1) = none ∧ (tBase.fnOf (.port 0 1)).isSome = true := by decide

/-! ## Witnesses: tasks and panels -/

theorem witness_TasksLeaveForeignLinesAlone : tBase.inv ∧ (Instr.productPlain 1 0).taskSuite = some 1 ∧ (∃ t, exec (.productPlain 1 0) tBase = .next t) ∧
    tBase.reachable 1 (320 / 64) = false := ⟨by unfold State.inv State.memInv; decide, by decide, ⟨_, rfl⟩, by decide⟩
theorem witness_TasksLeaveTheModuleAlone : (Instr.updateApply 0 0).taskSuite = some 0 ∧ ∃ t, exec (.updateApply 0 0) tBase = .next t :=
  ⟨by decide, _, rfl⟩
theorem witness_BoundaryAndUnits :
    (let s := tBase.modSuite 0 fun u => { u with run := some (Run.mk 0 5 0 0 1 0 0xFF) }
     s.suites[0].run = some (Run.mk 0 5 0 0 1 0 0xFF) ∧ s.stepOver 0 (Run.mk 0 5 0 0 1 0 0xFF) = true ∧ s.suites[0].st ≠ .draining) ∧
    (let s := tBase.modSuite 0 fun u => { u with run := some (Run.mk 0 5 0 0 2 0 0xFF), st := .draining }
     s.stepOver 0 (Run.mk 0 5 0 0 2 0 0xFF) = true ∧ s.suites[0].st = .draining) ∧
    tBase.owner 0 = some 0 ∧ (tRun 5 0 .running).task? 0 0 = some (tTask 5 0 .running) ∧ (tTask 5 0 .running).desc.type = 5 ∧
    (tTask 5 0 .running).desc.mode = 0 ∧ (tTask 5 0 .running).state ≠ .finished := by decide
theorem witness_TileStartAndPromotion :
    ((tStart.panel 0 0).ready.find? (fun y => y.id == (0 : Fin 64).val) = some (tThread 0 1) ∧ (tStart.panel 0 0).role = .enabled ∧
      (tStart.panel 0 0).fn.st = .running ∧ ((tStart.panel 0 0).ready.any fun y => y.id != (0 : Fin 64).val && tStart.before 0 0 y (tThread 0 1)) = false ∧
      (let s0 := tStart.settleOwner 0 0
       (s0.panel 0 0).bankA.state = .free ∧
       (match s0.unitCtx tTile with
        | none => false
        | some c =>
          let s1 := (s0.openTask tTile c).1
          let ts := if c.p.r.epi.groupEn then rowTiles c.rows else []
          let s2 := s1.merge 0 ((s1.view 0).reportExtremes 0 0 c.q ts)
          (s0.openTask tTile c).2 && s2.groupReady 0 0 c.q ts) = true)) ∧
    (let th := { tThread 0 1 with started := true, saved := some (.free, .free) }
     let s := tPanel { Panel.reset with fn := .running, threads := [th] }
     (s.panel 0 0).ready.find? (fun y => y.id == (0 : Fin 64).val) = some th ∧ ((s.settleOwner 0 0).panel 0 0).bankB.state = .free) ∧
    (let s := { tStart with clk := { Clk.reset with time := 2 ^ 40 } }
     (s.panel 0 0).ready.find? (fun y => y.id == (0 : Fin 64).val) = some (tThread 0 1) ∧ s.isDeferred 0 (tThread 0 1) = false ∧
     (tThread 0 1).readyAt + s.dies[0].trw.age.toNat % 2 ^ 20 * 16384 * ((tThread 0 1).boosts + 1) < s.clk.time) := by decide +kernel
theorem witness_ThreadPreemption : [false, true].all (fun b =>
    let s := tPreempt b
    let th := { tThread 1 1 with started := b, saved := if b then some (Bank.free, Bank.free) else none }
    decide ((s.panel 0 0).owner.bind (s.panel 0 0).thread? = some { tThread 0 3 with started := true } ∧
      (s.panel 0 0).ready.find? (fun y => y.id == (1 : Fin 64).val) = some th ∧ s.isDeferred 0 th = false ∧
      (th.prio : Int) - th.boosts < ((3 : Nat) : Int) - (0 : Nat) ∧ ((s.panel 0 0).ready.any fun y => y.id != (1 : Fin 64).val && s.before 0 0 y th) = false) &&
    (match s.unitCtx tTile with | none => false | some c => decide ((s.panel 0 0).bankA.tile = some tTile ∧ (s.panel 0 0).bankA.boundary < c.kEnd))) = true := by
  decide +kernel
theorem witness_TileDrainAndRecompute : (tDrain.panel 0 0).drainTile = some tTile ∧ (tDrain.panel 0 0).failedTile = some tTile ∧
    (match tDrain.unitCtx tTile with
     | none => false
     | some c =>
       let b := tDrain.settleBank (tDrain.newBank tTile c)
       let bad := upsetCells [(0, 0, 1)] b.cells b.checker
       let s := tDrain.modPanel 0 1 fun y => { y with fn := .running }
       !(tDrain.view 0).streamWaits 0 c.p && decide (failRow b.cells b.checker = none ∧ failRow bad.1 bad.2 = some 0 ∧ (tDrain.panel 0 0).triesOf tTile < 2 ∧
         (tDrain.failUnit 0 0 tTile c 0 true).otherPanel 0 0 = none ∧ (s.failUnit 0 0 tTile c 0 true).otherPanel 0 0 = some 1) &&
         (((s.failUnit 0 0 tTile c 0 true).panel 0 0).holder tTile).isSome) = true ∧
    (let s := tDrain.modPanel 0 0 fun y => { y with threads := y.threads.map fun w => { w with tries := 2 } }
     2 ≤ (s.panel 0 0).triesOf tTile) := by decide +kernel
theorem witness_SparesStoreErrorsAndStealing :
    (let s := tPanel { Panel.reset with role := .spare, selfTest := true }
     (s.panel 0 0).role = .spare ∧ (s.panel 0 0).selfTest = true ∧ (s.panel 0 0).thread? 5 = none ∧ (s.panel 0 0).lastDouble = none) ∧
    (let s := { tBase with dies := tBase.dies.set 1 { Die.reset with panels := Vector.replicate 104 { Panel.reset with role := .spare, selfTest := true } } }
     s.roleCount 1 .enabled < 96) ∧
    (let s := tStart.modPanel 0 1 fun x => { x with fn := .running }
     s.dies[0].trw.slice.getLsbD 31 = true ∧ (s.panel 0 1).threads = [] ∧ (s.panel 0 1).role = .enabled ∧ (s.panel 0 1).fn.st = .running ∧
     s.busiest 0 = some 0 ∧ ((s.panel 0 0).threads.filter fun w => !w.started && (s.panel 0 0).sliceFree w.tile.k w.tile.h w.slice).getLast? =
       some (tThread 0 1)) := by decide
theorem witness_MergeRows :
    (let x : RawPart := { row := 0, vals := [1, 2], pois := false, die := 0, panel := 0 }
     let t := { tProd with parts := [x] }
     let s := tStart.modSuite 0 fun u => { u with tasks := [t] }
     let z := tStart.modSuite 0 fun u => { u with tasks := [{ t with merged := [(0, 1)] }] }
     s.Has 0 0 .running t ∧ t.parts.find? (fun y => y.row == 0) = some x ∧ t.merged.lookup 0 = none ∧ z.Has 0 0 .running { t with merged := [(0, 1)] }) ∧
    (let t := { tProd with merged := [(0, 2)] }
     let s := tStart.modSuite 0 fun u => { u with tasks := [t] }
     s.Has 0 0 .running t ∧ (match (s.view 0).panelCheck 0 t with
       | .ok p => ((s.view 0).mergeDone 0 0 p).contains 0 && !(s.view 0).streamWaits 0 p && ((s.view 0).mergedOut (s.view 0) 0 t p 0).isSome
       | .error _ => false) = true) := by
  unfold State.Has; decide +kernel

/-! ## Witnesses: memory -/

theorem witness_ReadsKeepMemory : tBase.mayRequest 0 0 (some 7) none = true ∧ tBase.mayRequest 0 0 none none = true ∧ tBase.reachable 0 5 = true ∧
    homeOf 5 = some (0, 0) ∧ tBase.route 0 0 0 = some ([], false) ∧ (tBase.stack 0 0).filled = true ∧ tBase.poisoned 5 = false ∧ tBase.poisoned 6 = false ∧
    5 / 16 = (5 + 2 - 1) / 16 := by decide
theorem witness_WriteStoresItsBytes : tBase.inv ∧ (List.replicate 130 (1 : Byte)) ≠ [] ∧ 63 < 64 ∧
    5 / 16 = (5 + cdiv (63 + (List.replicate 130 (1 : Byte)).length) 64 - 1) / 16 ∧ tBase.mayRequest 0 1 none none = true ∧
    tBase.reachable 0 5 = true ∧ homeOf 5 = some (0, 0) ∧ (tBase.route 0 1 0).isSome = true ∧ (tBase.stack 0 0).filled = true ∧
    tBase.suites[0].run = none ∧ ∀ j : Fin 8, tBase.suites[j].table? = none := by unfold State.inv State.memInv; decide
theorem witness_WritesKeepFlagsAndForeignLines : (tStart.inv ∧ tStart.suites[0].run = none ∧ tStart.isFlagByte (64 * 64 + 5) = true ∧
      ∃ t, exec (.memoryWrite 0 0 none none 64 5 [3] 0 [] 0 false) tStart = .next t) ∧
    tBase.mayRequest 0 0 none none = true ∧ tBase.reachable 0 (96 * 2 ^ 30) = false ∧ 96 * 2 ^ 30 / 16 = (96 * 2 ^ 30 + 1 - 1) / 16 ∧
    96 * 2 ^ 30 / 16 = (96 * 2 ^ 30 + cdiv (0 + [(1 : Byte)].length) 64 - 1) / 16 :=
  ⟨⟨by unfold State.inv State.memInv; decide, by decide, by decide, _, rfl⟩, by decide⟩
theorem witness_MemoryServiceCommands :
    (let s := tBase.modStack 2 3 fun x => { x with pcPending := [(7, 1)], reenc := true }
     let z := { s with layout := Vector.replicate 8 15 }
     ((s.stack 2 3).pcPending.any fun q => q.1 == (7 : Fin 64).val) = true ∧ s.owner 2 ≠ none ∧ (s.stack 2 3).reenc = true ∧
     ((z.stack 2 3).pcPending.any fun q => q.1 == (7 : Fin 64).val) = true ∧ z.owner 2 = none) ∧
    tBase.edgePresent 0 0 = true ∧ 16 * min (tBase.hlt.ctrl.toNat / 256 % 256) tBase.policy.edgeRetry < 5000 ∧
    (let s := tBase.modSuite 0 fun u => { u with memRot := 1 }; s.suites[0].memRot ≠ 0 ∧ s.suites[0].key ≠ none ∧ s.suites[0].st ≠ .absent) := by
  decide
theorem witness_KeyRotations : (3 : Fin 8) ∈ tBase.liveDies 0 ∧ tBase.Accepts 0 0x24 ∧ tBase.suites[0].st ≠ .absent ∧ tBase.suites[0].st ≠ .scrubbing ∧
    (tBase.stack 3 0).reenc = false ∧ (let s := tBase.modStack 3 0 fun x => { x with reenc := true, epoch := 0xFFFF, rotQueued := true }
      (s.stack 3 0).reenc = true ∧ (s.stack 3 0).epoch = 0xFFFF) := by unfold State.Accepts; decide

/-! ## Witnesses: links, frames and time -/

/-- `tBase` with both ports of die 0 in a state. -/
def tPort (st : PortState) : State := tBase.modDie 0 fun x => { x with ports := Vector.replicate 2 { Port.reset with st := st, chosen := 0x1F } }

/-- `tBase` in module (1,0,0,0) of a ring of four whose time root is (0,0,0,0), with all ports ACTIVE and peers at (0,0,0,0)
and (2,0,0,0). -/
def tRing : State :=
  { tBase with
    primer := some { magic := 0x50524C43, schema := 0, secver := 1, length := 0, ownerDigest := [], bodyOk := true, sigOk := true, sectionsOk := true,
                     layout := some (List.replicate 8 0), ledEn := false, topology := some { sizes := [4, 1, 1, 1], coord := [1, 0, 0, 0], root := [0, 0, 0, 0] },
                     power := none, policy := none, ownerCosign := false, hitlessEn := true, scheduledEn := true, digest := [] }
    dies := Vector.replicate 8 { Die.reset with
      stks := Vector.replicate 12 { Stack.reset with filled := true }, ports := Vector.replicate 2 { Port.reset with st := .active } }
    suites := tBase.suites.set 0 { tBase.suites[0] with
      peers := [{ coord := [0, 0, 0, 0], suite := 0, digest := [7] }, { coord := [2, 0, 0, 0], suite := 0, digest := [8] }]
      groups := [{ id := 0, dims := 1, dies := 0xFF }]
      pairs := [0, 1].map fun i => { peer := i, epoch := 1, sent := 0, prevAlive := false, firstSeen := false, seen := [] } } }

/-- A frame of that peer to this module. -/
def tIn : Frame := { tFrame with dstCoord := [1, 0, 0, 0], srcCoord := [0, 0, 0, 0] }

/-- The peer's pair key. -/
def tPair : PairKey := { peer := 0, epoch := 1, sent := 0, prevAlive := false, firstSeen := false, seen := [] }

theorem witness_CodewordsAndLinkCells : ((tPort .active).port 0 0).st = .active ∧ (0 : BitVec 10).toNat = ((tPort .active).port 0 0).rxSeq ∧
    (5 : BitVec 10).toNat ≠ ((tPort .active).port 0 0).rxSeq ∧ ((tPort .down).port 0 0).st ≠ .active ∧ ((tPort .handshake).port 0 0).st = .handshake ∧
    (tPort .handshake).helloFits 0 0 { coord := [0, 0, 0, 0], port := 0, pairs := 0x3FF, sizes := [1, 1, 1, 1], iface := 3 } = true ∧
    (tPort .handshake).helloFits 0 0 { coord := [1, 0, 0, 0], port := 0, pairs := 0x3FF, sizes := [1, 1, 1, 1], iface := 3 } = false := by decide
theorem witness_LinkTrainingAndLoss : ((tPort .detect).port 0 1).st = .detect ∧ 5 ≤ popcount (0x3FF &&& 0x1F : BitVec 10).toNat 10 ∧
    ((tPort .detect).port 0 1).fn.st = .running ∧ ((tPort .equalize).port 0 1).st = .equalize ∧ ((tPort .align).port 0 1).st = .align ∧
    (let x := (tPort .equalize).port 0 1
     popcount (x.pairs &&& ~~~(x.chosen &&& ~~~(0 : BitVec 10))).toNat 10 = 5 ∧ popcount (x.chosen &&& (0 : BitVec 10)).toNat 10 < 5 ∧
     popcount (x.chosen &&& (0x1F : BitVec 10)).toNat 10 = 5) ∧
    (let s := { tPort .active with clk := { Clk.reset with time := 2 ^ 40 } }
     (s.port 0 0).st = .active ∧ (s.port 0 0).lastGood + lossLimit ≤ s.clk.time ∧ (s.port 0 0).autoDegrade = true ∧
     (s.port 0 0).degrade.toNat < 5000 ∧ (s.port 0 0).pairs.getLsbD (3 : Fin 10) = true) ∧
    ((tPort .down).port 0 0).st = .down ∧ ((tPort .down).port 0 0).autoRetry = true ∧ ((tPort .down).port 0 0).fn.st = .running := by decide
/-- An ALLREDUCE of entry 5 into entry 6 over the group 0, whose one chunk has been sent `n` times again. -/
def tReduce (n : Nat) : Task :=
  { tTask 4 0 .running with
    desc := { (tTask 4 0 .running).desc with tensors := [5, 6, 0xFFFF, 0xFFFF, 0xFFFF, 0xFFFF, 0xFFFF, 0xFFFF] }
    sent := [{ stage := 1, step := 1, chunk := 0, rail := 0, plus := true, time := 0, resends := n }] }

/-- `tRing` with that ALLREDUCE. -/
def tReducing (n : Nat) : State :=
  { tRing.modSuite 0 fun u => { u with tasks := [tReduce n], nextH := 1, lastTable := some (0, 0, 64), tensSet := [5, 6] } with mem := tMemOf [5, 6] [] }

/-- The ALLREDUCE when the chunk of the step before has come and it has sent nothing. -/
def tSending : State := (tReducing 0).modSuite 0 fun u =>
  { u with tasks := [{ tReduce 0 with sent := [] }],
           chunks := [{ group := 0, seq := 0, stage := 1, step := 0, chunk := 0, sums := [5], marks := [false], grids := [0], acked := true }] }

/-- The chunk that it sends next. -/
def tChunk : Frame := chunkFrame 0x10 (tSending.ringNext 0 true) 0 0 0 (tReduce 0)
  { stage := 1, step := 1, chunk := 0, rail := 0, plus := true, time := 0, resends := 0 }

theorem witness_FrameForwarding :
    (!linkTypes.contains tFrame.type.toNat && !frameMalformed tFrame && forwardTypes.contains tFrame.type.toNat &&
     tRing.nextDim { tFrame with dstCoord := [1, 0, 0, 0] } == none && tRing.nextDim tFrame == some 0 && (tRing.outPort none tFrame 0).isSome &&
     ((tRing.port 0 0).send 0 0 tFrame).isSome && ((tPort .down).outPort none tFrame 0).isNone && tRing.owner 0 == some 0 &&
     (tRing.stamp 0 tFrame).bind tRing.nextDim == some 0 && tRing.stamp 0 { tFrame with dstCoord := [1, 0, 0, 0] } == none &&
     (tRing.forward (some 1) 0 tFrame 0).isSome && (match tSending.stamp 0 tChunk with
     | some g => (tSending.chunkGoes 0 g).isSome && (tSending.forward none 0 g 0).isSome && tSending.nextDim g == some 0
     | none => false)) = true := by decide +kernel
theorem witness_ExchangeFramesAndResends : tRing.TakesFrame 0 tIn 0 tPair 0 ∧
    (((tReducing 0).exchTask? 0 0 0).isSome && (tRing.exchTask? 0 0 0).isNone && [0, 8].all (fun (n : Nat) =>
      let t := tReduce n
      let s : State := { tReducing n with clk := { Clk.reset with time := 2 ^ 40 } }
      tRuns s 4 0 t &&
      (match t.sent.find? (fun y => y.stage == 1 && y.step == 1 && y.chunk == 0), s.reduceOf 0 t with
       | some x, some r => decide (x.time + t.desc.resend ≤ s.clk.time) && x.resends == n && (match s.chunkWay r 1 1 0 with
         | some (dim, _, plus) =>
           let rail := if s.otherRail r.g dim x.rail plus then 1 - x.rail else x.rail
           (s.sendAgain (fin8 (2 * dim + rail)) (chunkFrame 0x10 (s.ringNext dim plus) (fin8 (2 * dim + rail)) 0 rail t x)).isSome
         | none => false)
       | _, _ => false))) = true := ⟨by unfold State.TakesFrame; decide, by decide +kernel⟩
theorem witness_RemoteReadsAndWrites : tRing.TakesFrame 0 tIn 0 tPair 0 ∧ (tRing.taken 0 0 0 tIn tPair 0).regionOk 0 5 2 = true ∧
    (tRing.taken 0 0 0 tIn tPair 0).regionOk 0 (96 * 2 ^ 30) 1 = false := by unfold State.TakesFrame; decide

/-- A GET of tensor 2 of the small product in flight in `tRing`. -/
def tGet : Task := { tTask 4 6 .running with desc := { (tTask 4 6 .running).desc with tensors := [0xFFFF, 2, 0xFFFF, 0xFFFF, 0xFFFF, 0xFFFF, 0xFFFF, 0xFFFF] } }

/-- `tRing` with that GET. -/
def tGetting : State := { tRing.modSuite 0 fun u => { u with tasks := [tGet], lastTable := some (0, 0, 64) } with mem := tMem }

theorem witness_RemoteReadsAndWrites_getRsp : tGetting.TakesFrame 0 tIn 0 tPair 0 ∧ (tGetting.taken 0 0 0 tIn tPair 0).Runs 0 0 4 6 tGet ∧
    ((((tGetting.taken 0 0 0 tIn tPair 0).view 0).tensor? 0 (tGet.desc.tensor 1)).bind (((tGetting.taken 0 0 0 tIn tPair 0).view 0).baseRegion 0)) =
      some (264, 2) ∧ tGet.desc.arg 12 5 ≤ 0 ∧ 0 - tGet.desc.arg 12 5 + cdiv 64 64 ≤ 2 ∧ tGet.desc.peer = tIn.srcCoord := by
  unfold State.TakesFrame State.Runs; decide
theorem witness_UnauthenticFramesChangeNothing : (∀ k p base, ¬tRing.TakesFrame 0 { tIn with tagOk := false } k p base) ∧
    ∃ t, exec (.put 0 0 { tIn with tagOk := false } [1]) tRing = .next t := ⟨fun _ _ _ h => by unfold State.TakesFrame at h; simp at h, _, rfl⟩
theorem witness_PairKeysAndTimeSync : tRing.suites[0].st ≠ .scrubbing ∧ tRing.suites[0].st ≠ .absent ∧ tRing.suites[0].peerIdx [0, 0, 0, 0] 0 = some 0 ∧
    (tRing.suites[0].pairs.find? fun x => x.peer == 0) = some tPair ∧ tPair.sent < tRing.pairLimit ∧
    tRing.pairLimit ≤ ({ tPair with sent := 2 ^ 60 } : PairKey).sent ∧ tRing.timeParent = some (2 * (0 : Fin 8).val + (1 : Fin 2).val) ∧
    (let c := { Clk.reset with t1 := some 5, parent := 1, syncState := .acquire }; c.t1.isSome = true ∧ c.parent = 1 ∧ c.syncState ≠ .free) := by decide

/-! ## Witnesses: tasks -/

/-- A started task of TYPE `type` and MODE `mode` with its tensors, its shape and the argument bytes that are not zero. -/
def tDo (type mode : Nat) (tensors shape : List Nat) (args : List (Nat × Nat)) : Task :=
  { tTask type mode .running with
    desc := { (tTask type mode .running).desc with
      tensors := tensors ++ List.replicate (8 - tensors.length) 0xFFFF, shape := shape, gridFix := 0x80000000
      args := (List.range 64).map fun i => BitVec.ofNat 8 ((args.lookup i).getD 0) } }

/-- `tRing` with some entries and units, two scale slots, two skim slots, a learning-rate slot, and tasks. -/
def tAll (ids units : List Nat) (ts : List Task) : State :=
  { tRing.modSuite 0 fun u => { u with
      tasks := ts, nextH := 2, lastTable := some (0, 0, 64), tensSet := ids, skmSlots := 2, sclSlots := 2, sclLo := 7000, lrSlots := 1 }
    with mem := tMemOf ids units }

/-- How a task on the panels goes: refused, or whether its frame header matches, its grid group has its extremes, and its values must wait. -/
def tGoes (s : State) (t : Task) : Option (Bool × Bool × Bool) :=
  match (s.view 0).panelCheck 0 t with
  | .ok p => some (((s.view 0).beginProd 0 t p).2, ((s.view 0).prodStart 0 t p).groupReady 0 t.h p p.groupTiles, ((s.view 0).prodStart 0 t p).streamWaits 0 p)
  | .error _ => none

/-- A product of the small one's shape with one byte of its epilogue. -/
def tPlain (mode i v : Nat) : Task := tDo 1 mode [0, 1, 2] [1, 1, 2, 1, 1, 0, 0, 0] [(16, 44), (17, 1), (24, 1), (i, v)]

/-- A SAMPLED RAW product at the mask of entry 0 into entry 8. -/
def tSampled : Task := tDo 1 2 [2, 1, 8, 0] [1, 2, 1, 1, 1, 0, 0, 0] [(33, 1)]

/-- A product that pops the activation stack, whose descriptor is entry 10. -/
def tPop : Task := { tDo 1 0 [0, 1, 2, 0xFFFF, 10] [1, 1, 2, 1, 1, 0, 0, 0] [(16, 44), (17, 1), (24, 1), (32, 0x22)] with program := true }

/-- That task with the frames of the stack. -/
def tStack (frames : List AstFrame) : State := (tAll [0, 1, 2, 10] tIndex [tPop]).modSuite 0 fun u => { u with ast := { u.ast with ctrl := 0x8000000A, baseLo := 5000, frames := frames } }

theorem witness_ProductTasks_runs :
    (let s := tAll [0, 1, 2] tIndex [tPlain 0 40 0]
     tRuns s 1 0 (tPlain 0 40 0) && tGoes s (tPlain 0 40 0) == some (true, true, false) && !(s.view 0).underflow 0 (tPlain 0 40 0) (tPlain 0 40 0).desc.panelReq ) = true := by decide +kernel
theorem witness_ProductTasks_sampled :
    (let s := tAll [0, 1, 2, 8, 9] tIndex [tSampled, { tDo 5 0 [9, 0xFFFF, 0xFFFF, 8] [] [(5, 1)] with h := 1 }]
     tRuns s 1 2 tSampled && tGoes s tSampled == some (true, true, true) && !(s.view 0).underflow 0 tSampled tSampled.desc.panelReq) = true := by decide +kernel
theorem witness_ProductTasks_grouped :
    (let s := tAll [0, 1, 2] tIndex [tPlain 0 33 8]
     tRuns s 1 0 (tPlain 0 33 8) && tGoes s (tPlain 0 33 8) == some (true, false, false)) = true := by decide +kernel
theorem witness_ProductTasks_refused :
    (let s := tAll [0, 1, 2] tIndex [tPlain 1 40 0]
     tRuns s 1 1 (tPlain 1 40 0) && tGoes s (tPlain 1 40 0) == none && !(s.view 0).underflow 0 (tPlain 1 40 0) (tPlain 1 40 0).desc.panelReq) = true := by
  decide +kernel
theorem witness_ProductTasks_mismatch :
    (let s := tStack [{ pos := 0, units := 2, start := 0, pushTask := 9, popTask := some 0, lost := false }]
     tRuns s 1 0 tPop && tGoes s tPop == some (false, true, false) && !(s.view 0).underflow 0 tPop tPop.desc.panelReq) = true := by decide +kernel
theorem witness_ProductTasks_underflow : (tRuns (tStack []) 1 0 tPop && ((tStack []).view 0).underflow 0 tPop tPop.desc.panelReq) = true := by decide +kernel

/-- A SKIM of entries 11 and 12 into the map of entry 13, and FUSED also into entry 2. -/
def tSkim (mode : Nat) : Task := tDo 2 mode ([11, 12, 13] ++ List.replicate mode 2) [1, 1, 1, 1, 1, 0, 0, 0] [(32, 1)]

theorem witness_SkimTasks_predict_fused : [0, 1].all (fun m =>
    let s := tAll [2, 11, 12, 13] [] [tSkim m]
    let v := s.view 0
    tRuns s 2 m (tSkim m) && tGoes s (tSkim m) == some (true, true, false) && !v.underflow 0 (tSkim m) (tSkim m).desc.panelReq &&
    (tSkim m).desc.panelReq.predict == (m == 0) && !v.suites[0].bindFull 13 &&
    (v.modSuite 0 fun u => { u with bindings := List.replicate 1024 (7, 0) }).suites[0].bindFull 13) = true := by decide +kernel
theorem witness_SkimTasks_running :
    ((maskDies (tSkim 0).desc.dieMask).any (fun d => ((tAll [] [] []).view 0).dies[d].skm.fn.st == .running) &&
     (let s := tBase.modDie 0 fun x => { x with skm := { x.skm with fn := { x.skm.fn with st := .stopped } } }
      !(maskDies (tSkim 0).desc.dieMask).any fun d => (s.view 0).dies[d].skm.fn.st == .running)) = true := by decide +kernel
theorem witness_SkimTasks :
    ([(2, 1), (2, 2), (3, 2), (2, 0)].all (fun x =>
       let t := tDo 2 x.1 [] [] [(2, x.2), (6, 4), (7, 1), (10, 1)]
       tRuns (tAll [] [] [t]) 2 x.1 t && t.desc.arg 2 2 == x.2 && decide (t.desc.arg 0 2 + x.2 ≤ ((tAll [] [] [t]).view 0).suites[0].skimSlots) &&
       skimSlotOk (leBytes 1 (t.desc.arg 4 1) ++ leBytes 1 (t.desc.arg 5 1) ++ leBytes 1 (t.desc.arg 6 1) ++ leBytes 1 (t.desc.arg 7 1) ++
         leBytes 2 (t.desc.arg 8 2) ++ leBytes 2 (t.desc.arg 10 2) ++ List.replicate 120 0)) &&
     (let t := tDo 2 4 [] [] [(2, 3)]
      tRuns (tAll [] [] [t]) 2 4 t && decide (((tAll [] [] [t]).view 0).suites[0].skimSlots < t.desc.arg 0 2 + t.desc.arg 2 2)) &&
     (let t := tDo 2 5 [] [] []; tRuns (tAll [] [] [t]) 2 5 t && ((tAll [] [] [t]).view 0).savedOk 0 (t.desc.arg 2 2) skimSlotOk)) = true := by decide +kernel
theorem witness_ScaleTasksAndLoad :
    ((let t := tDo 9 0 [] [] [(2, 2), (6, 1), (7, 1), (8, 0x80), (9, 0x3F), (14, 1)]
      let d := t.desc
      tRuns (tAll [] [] [t]) 9 0 t && d.arg 2 2 != 0 && decide (d.arg 0 2 + d.arg 2 2 ≤ ((tAll [] [] [t]).view 0).suites[0].slots) && d.arg 4 1 != 128 &&
      decide (1 ≤ d.arg 6 1) && decide (d.arg 6 1 ≤ 16) && decide (1 ≤ d.arg 7 1) && decide (d.arg 7 1 ≤ 8) && headroomOk (d.arg 8 2) &&
      decide (1 ≤ d.arg 14 1)) &&
     (let t := tDo 9 1 [] [] [(2, 3), (4, 127)]
      tRuns (tAll [] [] [t]) 9 1 t && t.desc.arg 4 1 != 128 && decide (((tAll [] [] [t]).view 0).suites[0].slots < t.desc.arg 0 2 + t.desc.arg 2 2)) &&
     (let t := tDo 9 1 [] [] [(2, 1), (4, 128)]; tRuns (tAll [] [] [t]) 9 1 t && t.desc.arg 4 1 == 128) &&
     (let t := tDo 9 3 [] [] [(2, 1), (4, 100)]
      tRuns (tAll [] [] [t]) 9 3 t && !((tAll [] [] [t]).view 0).savedOk (64 * t.desc.arg 4 5) (t.desc.arg 2 2) scaleSlotOk) &&
     (let t := tDo 9 2 [] [] []; tRuns (tAll [] [] [t]) 9 2 t && t.desc.arg 2 2 == 0) &&
     (let t := tDo 10 3 [] [] [(8, 5), (13, 1)]; tRuns (tAll [] [] [t]) 10 3 t && ((tAll [] [] [t]).view 0).regionOk 0 (t.desc.arg 8 5) (2 * t.desc.arg 13 4)) &&
     (let t := tDo 10 3 [] [] [(12, 255), (13, 1)]
      tRuns (tAll [] [] [t]) 10 3 t && !((tAll [] [] [t]).view 0).regionOk 0 (t.desc.arg 8 5) (2 * t.desc.arg 13 4))) = true := by decide +kernel

/-- A MASK task of the record at unit `rec` for a step. -/
def tMask (mode rec step : Nat) : Task := tDo 6 mode (if mode = 0 then [9, 2, 1, 8] else [9, 0xFFFF, 0xFFFF, 8]) [] [(0, rec % 256), (1, rec / 256), (8, step)]

/-- What a MASK task of a mode meets on a small record. -/
def tMaskCase (m : Nat) : Bool :=
    let t := tMask m 5510 0
    let s := tAll (if m = 0 then [1, 2, 8, 9] else [8, 9]) (tIndex ++ [5510]) [t]
    let v := s.view 0
    tRuns s 6 m t && (v.firstBad 0 (t.desc.arg 0 5) 2).isNone && v.poison.isEmpty && (match v.maskCheck 0 t with
    | .ok c => c.change && c.r.sandOnly && decide (v.dies[c.d].msk.fn.st = .running) && (v.tensor? 0 8).isSome &&
        ((List.range (c.m.nBlocks c.st)).all fun g => v.tagOf c.m g == c.t % 2 ^ 24) && (v.builtNow 0).isEmpty &&
        (v.bindTo 0 ((v.maskLive 0 c).map fun y => (y.1, y.2.1)) c.r.alts []).isSome && (m != 0 || (match v.tensor? 0 2, v.tensor? 0 1 with
        | some dz, some x => v.sampleOk 0 c dz x
        | _, _ => false))
    | .error _ => false)

theorem witness_MaskAndScanTasks_sample : tMaskCase 0 = true := by decide +kernel

theorem witness_MaskAndScanTasks_rank : tMaskCase 1 = true := by decide +kernel

theorem witness_MaskAndScanTasks_build : tMaskCase 2 = true := by decide +kernel
theorem witness_MaskAndScanTasks_unchanged :
    (let t := tMask 1 5520 1
     let s := tAll [8, 9] (tIndex ++ [5520]) [t]
     tRuns s 6 1 t && (match (s.view 0).maskCheck 0 t with | .ok c => !c.change | .error _ => false) &&
     (let t' := tMask 1 5530 1
      match (s.view 0).maskCheck 0 t' with | .ok _ => false | .error _ => true)) = true := by decide +kernel
theorem witness_MaskAndScanTasks :
    (let t := tDo 7 0 [2, 10, 6] [] [(0, 1), (4, 1)]
     let s := tAll [2, 6, 10] [] [t]
     let v := s.view 0
     tRuns s 7 0 t && (match v.tensor? 0 2, v.tensor? 0 10, v.tensor? 0 6 with
      | some src, some x, some y => (match v.opStruct 0 src with | .ok _ => true | .error _ => false) && src.elems % t.desc.arg 0 4 == 0 &&
          topOutOk x y (src.elems / t.desc.arg 0 4 * t.desc.arg 4 2)
      | _, _, _ => false)) = true := by decide +kernel
theorem witness_MaskAndScanTasks_product :
    (let t := tDo 7 1 [0, 1, 0xFFFF, 0xFFFF, 0xFFFF, 0xFFFF, 10, 6] [1, 1, 2, 1, 1, 0, 0, 0] [(16, 44), (17, 1), (24, 1), (42, 1)]
     let s := tAll [0, 1, 6, 10] tIndex [t]
     tRuns s 7 1 t && tGoes s t == some (true, true, false) && !(s.view 0).underflow 0 t t.desc.panelReq) = true := by decide +kernel

/-- What a RELAY plan does: it ends, or it works with its regions meeting, mapped, and its binding having room. -/
def tPlan (s : State) (t : Task) : Option (Bool × Bool × Bool) :=
  let v := s.view 0
  match (match t.desc.mode with
    | 0 => v.storePlan 0 t | 1 => v.valuesPlan 0 t | 2 => v.onehotPlan 0 t | 3 => v.copyPlan 0 t | 4 => v.hostInPlan 0 t [] | 5 => v.hostOutPlan 0 t
    | _ => v.twinPlan 0 t) with
  | .ends _ => none
  | .works dst rs ws _ _ => some (anyMeet rs ws, (rs ++ ws).all fun r => (s.view 0).regionOk 0 r.1 r.2, ((s.view 0).bindTo 0 rs ws [dst]).isSome)

/-- A RELAY task from one tensor to another with three capacities. -/
def tRelay (mode a b : Nat) : Task := tDo 3 mode [a, b] [] (if mode = 4 ∨ mode = 5 then [(16, 2)] else [(0, 9), (4, 9), (8, 9)])

theorem witness_RelayTasks_works : [(0, 2, 14), (2, 6, 18), (3, 2, 14), (4, 0xFFFF, 14), (5, 14, 0xFFFF)].all (fun x =>
    let t := tRelay x.1 x.2.1 x.2.2
    let s := tAll (if x.1 = 2 then [6, 18] else [2, 14]) [] [t]
    tRuns s 3 x.1 t && tPlan s t == some (false, true, true) && (s.view 0).suites[0].tasks == [t] && t.logged.isEmpty) = true := by decide +kernel
theorem witness_RelayTasks_shared : [(1, 20, 9), (7, 0, 19)].all (fun x =>
    let t := tRelay x.1 x.2.1 x.2.2
    let s := tAll (if x.1 = 1 then [9, 20] else [0, 19]) tIndex [t]
    tRuns s 3 x.1 t && tPlan s t == some (false, true, true)) = true := by decide +kernel
theorem witness_RelayTasks_stops :
    (let t := tRelay 3 2 14
     let s := tAll [2, 14, 15, 16] [] [t]
     tPlan (s.modSuite 0 fun u => { u with bound := (List.range 1024).map fun i => { lo := 264 + 4000 * i, hi := 265 + 4000 * i, set := [9] } }) t ==
       some (false, true, false)) = true := by decide +kernel

theorem witness_RelayTasks_refuses :
    (let s := tAll [2, 14, 15, 16] [] [tRelay 3 2 14]
     tPlan s (tRelay 3 2 15) == some (true, true, true) && tPlan s (tRelay 3 2 16) == some (false, false, true)) = true := by decide +kernel

theorem witness_RelayTasks_denied :
    (let s := tAll [2, 14, 15, 16] [] [tRelay 3 2 14]
     [0, 1, 2, 3, 4, 5, 7].all (fun m => tPlan s (tRelay m 50 51) == none)) = true := by decide +kernel
theorem witness_RelayTasks :
    ((let t := tRelay 4 0xFFFF 14
      let v := (tAll [14] [] [t]).view 0
      match v.tensor? 0 14 with
      | none => false
      | some x =>
        let us := (hostRegions x t.desc).map fun r => (r.1, r.2.1)
        !x.bound && (v.suites[0].boundSet us).isNone && (us.all fun r => v.regionOk 0 r.1 r.2) && (v.bindTo 0 [] us [x]).isSome &&
          (v.bindTo 0 us [] [x]).isSome && (v.intruders 0 t us).isEmpty && (v.poisonOf us).isNone) &&
     (let t := tRelay 6 0 0xFFFF
      let s := tAll [0] tIndex [t]
      tRuns s 3 6 t && (match (s.view 0).tensor? 0 0 with
       | some x => (match (s.view 0).struct 0 x with | .ok _ => !x.hasTwin | .error _ => false)
       | none => false))) = true := by decide +kernel

/-- An EXCHANGE task over group 0, with PEER (0,0,0,0). -/
def tExch (mode a b root : Nat) : Task := tDo 4 mode [a, b] [] [(3, root)]

/-- The chunks of all stages and steps of such a task. -/
def tChunks : List ExchChunk := (List.range 3).flatMap fun st => (List.range 4).map fun sp =>
  { group := 0, seq := 0, stage := st, step := sp, chunk := 0, sums := [5], marks := [false], grids := [0], acked := true }

theorem witness_ExchangeTasks_sums : [0, 1].all (fun m =>
    let t := tExch m 5 6 0
    let s := tAll [5, 6] [] [t]
    let v := s.view 0
    let z := (s.modSuite 0 fun u => { u with chunks := tChunks }).view 0
    tRuns s 4 m t && t.allAcked && !{ t with sent := (tReduce 0).sent }.allAcked &&
    (match v.suites[0].group? 0, v.reduceOf 0 t, v.tensor? 0 5, v.tensor? 0 6 with
     | some _, some r, some src, some dst => v.exchDstOk 0 false src dst && (m == 1 || (v.totals 0 r true).isNone) &&
         (z.totals 0 r (m == 0)).isSome && (z.bindTo 0 src.rawRegions (z.exchBound false dst) [dst]).isSome
     | _, _, _, _ => false)) = true := by decide +kernel
theorem witness_ExchangeTasks_regions :
    (let v := (tAll [2, 3] [] [tExch 2 2 3 0]).view 0
     match v.suites[0].group? 0, v.tensor? 0 2, v.tensor? 0 3 with
     | some g, some src, some dst => (match v.baseRegion 0 src, v.baseRegion 0 dst with
       | some r, some w => decide (4 * (64 * r.2) ≤ 64 * w.2) && (v.memberCoords g).length == 4 && v.leaveOk 0 r (v.others g) &&
           v.leaveOk 0 r [[0, 0, 0, 0]] && (v.bindTo 0 [r] [w] [dst]).isSome && decide (r.2 ≤ w.2) && (v.others g).contains (tExch 4 2 3 0).desc.peer &&
           decide ((v.memberCoords g)[0]? = some [0, 0, 0, 0] ∧ (v.memberCoords g)[1]? = some v.ownCoord ∧ v.ownCoord ≠ [0, 0, 0, 0])
       | _, _ => false)
     | _, _, _ => false) = true := by decide +kernel
theorem witness_ExchangeTasks :
    ([(2, 0), (3, 0), (3, 1), (4, 0), (5, 0), (6, 0), (7, 0), (8, 0)].all (fun x =>
       tRuns (tAll [] [] [tExch x.1 2 3 x.2]) 4 x.1 (tExch x.1 2 3 x.2)) &&
     (let s := (tAll [] [] [tExch 8 2 3 0]).modSuite 0 fun u => { u with normIn := [[0, 0, 0, 0], [2, 0, 0, 0], [3, 0, 0, 0]].map fun c => (0, c, 7, false) }
      match s.suites[0].group? 0 with
      | some g => ((s.view 0).others g).all fun c => ((s.view 0).suites[0].normIn.filter fun x => x.1 == g.id).any fun x => x.2.1 == c
      | none => false) &&
     (let t := tDo 4 9 [] [] [(0, 63), (20, 1), (21, 0xFF)]
      let suite := dieMaskOf (((tAll [] [] [t]).view 0).suiteDies 0)
      tRuns (tAll [] [] [t]) 4 9 t && decide (t.desc.arg 0 2 ≤ 63 ∧ (1 : BitVec 4) &&& ~~~(dimsOf suite) = 0 ∧ (0xFF : BitVec 8) &&& ~~~suite = 0 ∧
        dimsOf 0xFF &&& 1 ≠ 0))) = true := by decide +kernel

/-- An UPDATE of entry 9, or of entry 17, which retains values, by the record at unit `rec`. -/
def tUpd (mode rec : Nat) : Task :=
  tDo 5 mode ([if rec = 5501 then 17 else 9, 0xFFFF, 0xFFFF] ++ List.replicate (b2n (mode == 0)) 5) [] [(0, rec % 256), (1, rec / 256), (5, b2n (mode == 0))]

/-- An open APPLY of another master. -/
def tOpen : OpenApply :=
  let r : UpdRec := { rule := 0, nesterov := false, factMom := false, masterSr := false, rowClipEn := false, globalClipEn := false, lrSlot := 0, beta1 := 0,
                      beta2 := 0, eps := 1, wd := 0, rowClip := 0, globalClip := 0, gradScale := 1, stateAddr := 0, retainAddr := 0, stage := 2 }
  { k := 1, h := 9, master := 5, rcd := r, lr := 0, cg := 0, arrived := [], blocksDone := [], dup := false, sat := false, dropped := 0, frozen := false }

/-- The checks of an APPLY, REPLAY or RENDER pass on a running unit with `n` open updates, and nothing else stands against it. -/
def tUpdOk (t : Task) (s : State) (n : Nat) : Bool :=
  let v := s.view 0
  tRuns s 5 t.desc.mode t && (v.firstBad 0 (t.desc.arg 0 5) 1).isNone && v.poison.isEmpty &&
  (match v.updCheck 0 t with
   | .error _ => false
   | .ok (c, r, _) => decide ((v.stack c.d c.i).upd.fn.st = .running) && (match v.bindUpdate 0 c (r.areas c) with
     | none => false
     | some b =>
       let u := (b.stack c.d c.i).upd
       (u.open? 0 t.h).isNone && !u.waiting.contains (0, t.h) && !(u.opened.any fun o => o.k == 0 && o.master == c.m.id) && u.opened.length == n &&
         u.waiting.isEmpty && !c.m.frozen && !b.replayShort c r (t.desc.arg 8 4) && (v.bindUpdate 0 c []).isSome &&
         ((List.range (c.m.nBlocks c.st)).all fun g => !b.blockPoison c.m c.st g)))

/-- Whether an UPDATE task of a mode on a master meets what opening it asks, with `n` others open. -/
def tOpenCase (mode rec_ n : Nat) : Bool :=
  let s := tAll [if mode = 0 then 5 else 10, if rec_ = 5501 then 17 else 9] (tIndex ++ [rec_]) [tUpd mode rec_]
  tUpdOk (tUpd mode rec_) (if n = 0 then s else s.modUpd 0 0 fun u => { u with opened := List.replicate n tOpen }) n

theorem witness_UpdateTasks_opensApply : tOpenCase 0 5500 0 = true := by decide +kernel

theorem witness_UpdateTasks_waitsApply : tOpenCase 0 5500 64 = true := by decide +kernel

theorem witness_UpdateTasks_opensReplay : tOpenCase 4 5501 0 = true := by decide +kernel

theorem witness_UpdateTasks_waitsReplay : tOpenCase 4 5501 64 = true := by decide +kernel

theorem witness_UpdateTasks_opensRender : tOpenCase 5 5500 0 = true := by decide +kernel

theorem witness_UpdateTasks_waitsRender : tOpenCase 5 5500 64 = true := by decide +kernel
theorem witness_UpdateTasks_verify : [0, 5500].all (fun a =>
    let t := tDo 5 3 [9] [] [(0, a % 256), (1, a / 256)]
    let s := tAll [9] (tIndex ++ [5500]) [t]
    let v := s.view 0
    let bs := v.bytes (64 * a) 64
    tRuns s 5 3 t && (match v.updCtx 0 t fun nr nc nb => if a = 0 then [] else
       (field bs 0x20 5, units (64 + up64 (4 * nr) + up64 (2 * nc) + 16 * nr + 16 * nc + 256 * field bs 0x2A 4)) ::
         (if field bs 0x25 5 = 0 then [] else [(field bs 0x25 5, units (retainSize nb))]) with
      | .ok c => a == 0 || (crc32 (bs.take 60) == field bs 0x3C 4 && (c.m.retain == (field bs 0x25 5 != 0)))
      | .error _ => false)) = true := by decide +kernel
theorem witness_UpdateTasks :
    ((let t := tUpd 0 5502
      match ((tAll [9] [] [t]).view 0).updCheck 0 t with | .ok _ => false | .error _ => true) &&
     (let t := tDo 5 1 [9] [] []
      let s := tAll [9] [] [t]
      tRuns s 5 1 t && ((s.view 0).tensor? 0 (t.desc.tensor 0)).isSome && t.desc.tensor 1 == 0xFFFF && t.desc.tensor 2 == 0xFFFF &&
      (s.view 0).suites[0].run.isNone && ((s.modSuite 0 fun u => { u with run := some (Run.mk 0 5 0 0 1 0 0) }).view 0).suites[0].run.isSome)) = true := by
  decide +kernel

theorem witness_BoundaryAndUnits_applyOpen : [(0, 5500), (4, 5501)].all (fun x =>
    let s := (tAll [if x.1 = 0 then 5 else 10, if x.2 = 5501 then 17 else 9] (tIndex ++ [x.2]) [tUpd x.1 x.2]).modUpd 0 0 fun u => { u with waiting := [(0, 0)] }
    (s.stack 0 0).upd.waiting == [(0, 0)] && decide ((s.stack 0 0).upd.opened.length < 64) && (tUpd x.1 x.2).desc.mode == x.1 &&
    tUpdOk (tUpd x.1 x.2) (s.modUpd 0 0 fun u => { u with waiting := [] }) 0) = true := by decide +kernel
theorem witness_BoundaryAndUnits_arrival :
    (let t := tUpd 0 5500
     let s := (tAll [] [] [t]).modUpd 0 0 fun u => { u with opened := [{ tOpen with k := 0, h := 0, master := 9 }] }
     (s.task? 0 0 == some t) && s.owner 0 == some 0 && (((s.view 0).stack 0 0).upd.applyOf 0 (t.desc.tensor 0)).isSome &&
     (((tAll [] [] [t]).stack 0 0).upd.applyOf 0 (t.desc.tensor 0)).isNone) = true := by decide +kernel

/-! ## Witnesses: start-up, resets, mailboxes and services -/

/-- `tBase` at a stage of start-up. -/
def tStage (x : Stage) : State := { tBase with mgt := { Mgt.reset with stage := x }, primer := tRing.primer }

/-- A primer image that the module accepts from the owner whose digest is empty. -/
def tPrimer : Primer :=
  { magic := 0x50524C43, schema := 0, secver := 1, length := 0, ownerDigest := [], bodyOk := true, sigOk := true, sectionsOk := true,
    layout := some (List.replicate 8 0), ledEn := false, topology := none, power := none, policy := none, ownerCosign := false, hitlessEn := true,
    scheduledEn := true, digest := [] }

/-- A Pyrhoax package that the module accepts. -/
def tImg : FwImage :=
  { magic := 0x46574C43, cls := 1, ownerSigned := false, iface := 1, version := 1, secver := 1, schema := 1, window := List.replicate 5 (0, 9),
    primerWin := (0, 9), digest := [], reservedZero := true, vendorOk := true, ownerOk := true, tagOk := true, digestOk := true }

theorem witness_ResetAndPowerCommands : (1000 : Nat) ≤ 1000 ∧ State.reset.power.phase = .on ∧ 60000 < 60001 ∧ (10 : Nat) ≤ 10 ∧ (48000 : Nat) ≤ 48000 ∧
    ∃ t, exec (.coldReset { hostSel := true, smbAddr := 3 }) tStart = .next t := ⟨by decide, rfl, by decide, by decide, by decide, _, rfl⟩

theorem witness_StartUpStages : (tStage .rom).mgt.stage = .rom ∧ (tStage .rom).power.phase = .on ∧ (tStage .firmware).mgt.stage = .firmware ∧
    (tStage .memory).mgt.stage = .memory ∧ (tStage .memory).power.vinOk48 = true ∧ (tStage .panels).mgt.stage = .panels ∧
    (tStage .scrubTime).mgt.stage = .scrubTime ∧ (tStage .scrubTime).populated 0 = true ∧
    (let s := { tStage .scrubTime with suites := Vector.replicate 8 { Suite.reset with st := .stopped }, clk := { Clk.reset with root := true } }
     (s.suites.toList.any fun u => u.st == .scrubbing) = false ∧ s.clk.root = true) ∧
    (let s := { tStage .primer with fuses := { Fuses.reset with ownerSlots := [[]] }, flash := { Flash.blank with primerA := some tPrimer } }
     s.mgt.stage = .primer ∧ s.flash.status.primerB = false ∧ s.primerForm tPrimer = true ∧ s.primerTrusted tPrimer s.ownerDigest = true) := by decide
theorem witness_StartUpStages_firmware :
    (let with_ := fun (x : Option FwImage) (y : Option FwImage) (st : Stage) =>
       { tStage st with flash := { Flash.blank with fwA := [x, y, y, y, y], fwB := List.replicate 5 (some tImg) } }
     let ok := fun (s : State) (c : Nat) => match s.fwRun c with | some x => s.fwValid c x | none => false
     ok (with_ (some tImg) none .rom) 1 = true ∧ ok (with_ none none .rom) 1 = false ∧
     (match (with_ none none .rom).fwOther 1 with | some x => (with_ none none .rom).fwValid 1 x | none => false) = true ∧ ok (tStage .rom) 1 = false ∧
     (tStage .rom).fwOther 1 = none ∧ ok (with_ (some tImg) none .firmware) 2 = false ∧
     (let s := { tStage .firmware with flash := { Flash.blank with fwA := (List.range 5).map fun i => some { tImg with cls := i + 1 } } }
      [1, 2, 3, 4, 5].all (ok s) = true)) := by decide
theorem witness_ScrubLeavesNothing : (let s := tStart.modSuite 0 fun u => { u with st := .scrubbing }
    s.suites[0].st = .scrubbing ∧ s.suites[0].key ≠ none ∧ ∀ d ∈ s.suiteDies 0, s.dies[d].recycling = false) := by decide
theorem witness_DiesAndScrub : (tBase.populated 3 = true ∧ tBase.dies[3].inService = true) ∧
    (let s := tBase.modDie 3 fun x => { x with inService := false, recycling := true }; s.dies[3].inService = false ∧ s.dies[3].recycling = true) ∧
    (tBase.Accepts 0 0x10 ∧ (tBase.started 0 0x10).populated 9 = false ∧ (tBase.started 0 0x10).populated 0 = true ∧
      0 = (tBase.started 0 0x10).primaryDie.val ∧ 3 ≠ (tBase.started 0 0x10).primaryDie.val ∧ (tBase.started 0 0x10).mgt.fwState ≠ .switching) ∧
    (tBase.Accepts 0 0x20 ∧ (tBase.started 0 0x20).suites[0].st ≠ .scrubbing ∧ (tBase.started 0 0x20).suites[0].st ≠ .absent ∧
      (tBase.started 0 0x20).suites[1].st = .scrubbing) := by unfold State.Accepts; decide
theorem witness_MailboxAndProvision : tBase.mbxKind 0 = none ∧ (tBase.mailbox 0).busy = false ∧ 0x24 ∈ mbxCodes ∧ 0x99 ∉ mbxCodes ∧
    (let s := tBase.modMailbox 0 fun x => { x with busy := true, outcome := some (0, []) }
     (s.mailbox 0).busy = true ∧ (s.mailbox 0).outcome = some (0, [])) ∧
    tBase.Accepts 0 0x01 ∧ tBase.Accepts 1 0x01 ∧ tBase.Accepts 0 0x02 ∧ (tBase.started 0 2).fuses.devKey = List.replicate 12 0 ∧ tBase.Accepts 0 0x21 ∧
    (tBase.started 0 0x21).suites[0].st ≠ .absent ∧ (tBase.started 0 0x21).suites[0].st ≠ .scrubbing ∧
    ((tBase.started 0 0x21).suites[0].sets.any fun b => b.digest == [9]) = false ∧ (tBase.started 0 0x21).suites[0].sets.length < 16 ∧
    tBase.Accepts 0 0x24 := by unfold State.Accepts; decide

/-- The small product's suite with one binding set whose digest is [9]. -/
def tSets : State := tStart.modSuite 0 fun u => { u with sets := [{ digest := [9], keys := [] }], bound := [{ lo := 264, hi := 266, set := [9] }] }

/-- A package for tensor 2 of the small product. -/
def tPkg : BindingPackage :=
  { magicOk := true, setDigest := [9], recipients := [tSets.ownKey], keyUnwrapOk := true, descImage := tStart.bytes (64 * 66) 64, chunk := 64, badChunk := none, digest := [1], sizes := [], image := [5] }

theorem witness_UnwrapBindsATensor : tSets.Accepts 0 0x22 ∧ packageOk tPkg = true ∧ packageOk { tPkg with recipients := [] } = false ∧
    (match (tSets.started 0 0x22).tensor? 0 2 with
     | some x =>
       let rs := pkgRegions x tPkg.sizes
       ((tSets.started 0 0x22).suites[0].sets.any fun b => b.digest == tPkg.setDigest) && tPkg.keyUnwrapOk &&
         (tPkg.descImage.drop 2).take 42 == (((tSets.started 0 0x22).bytes x.at_ 64).drop 2).take 42 &&
         decide ((boundWith (tSets.started 0 0x22).suites[0].bound (rs.map fun r => (r.1, r.2.1)) tPkg.setDigest).length ≤ 1024) &&
         rs.all fun r => (tSets.started 0 0x22).regionOk 0 r.1 r.2.1
     | none => false) = true := by unfold State.Accepts; decide
theorem witness_UnwrapBindsATensor_trust : tPkg.recipients.contains (tSets.started 0 0x22).ownKey = true ∧
    unwrapsWhole { tPkg with digest := Config.sha384 tPkg.image } = true ∧ unwrapsWhole { tPkg with badChunk := some 0 } = false ∧
    (tSets.suites[0].sets.any fun b => b.digest == [8]) = false :=
  ⟨by decide, by simp [unwrapsWhole, tPkg], by simp [unwrapsWhole, tPkg], by decide⟩
theorem witness_ExportsWriteHostMemoryOnly : tSets.Accepts 0 0x23 ∧ tSets.Accepts 0 0x26 ∧ tSets.Accepts 0 0x25 ∧
    (match (tSets.started 0 0x23).tensor? 0 2 with
     | some x => (match (tSets.started 0 0x23).opStruct 0 x with
       | .ok st =>
         let rs := ((tSets.started 0 0x23).regions x st).filter fun r => r.2 != 0
         decide ((tSets.started 0 0x23).suites[0].boundSet rs = some [9]) && rs.all fun r => (tSets.started 0 0x23).regionOk 0 r.1 r.2
       | .error _ => false)
     | none => false) = true := by unfold State.Accepts; decide
theorem witness_FirmwareStaging : tBase.Accepts 0 0x30 ∧ (tBase.started 0 0x30).mgt.fwState = .idle ∧ fwForm tImg = true ∧
    (tBase.started 0 0x30).fwTrusted tImg = true ∧ fwForm { tImg with cls := 6 } = false ∧
    ((tBase.started 0 0x30).putFw 1 true (some tImg)).orderOk [1] updateOrder = true ∧
    (let s := { tBase with mgt := { tBase.mgt with fwState := .staged }, flash := { Flash.blank with status := { Flash.blank.status with staged := [true, false, false, false, false] } } }
     s.Accepts 0 0x34 ∧ (s.started 0 0x34).mgt.fwState = .staged ∧ flagOf (s.started 0 0x34).flash.status.staged 1 = true) := by
  unfold State.Accepts; decide
theorem witness_FirmwareActivation : tBase.Accepts 0 0x31 ∧
    (let s := { tBase with mgt := { tBase.mgt with fwState := .trial }, primer := some tPrimer, flash := { Flash.blank with
       fwA := List.replicate 5 (some tImg), fwB := List.replicate 5 (some tImg), status := { Flash.blank.status with trial := [true, false, false, false, false] } } }
     s.Accepts 0 0x33 ∧ (s.started 0 0x33).mgt.fwState = .trial ∧ classesOf (s.started 0 0x33).flash.status.trial ≠ [] ∧
     (s.started 0 0x33).windowsHold true = true) ∧
    (let s := { tBase with mgt := { tBase.mgt with fwState := .staged }, primer := some tPrimer, flash := { Flash.blank with
       fwA := List.replicate 5 (some tImg), fwB := List.replicate 5 (some tImg), status := { Flash.blank.status with staged := [true, false, false, false, false] } } }
     s.Accepts 0 0x31 ∧ (s.started 0 0x31).mgt.fwState = .staged ∧ (s.started 0 0x31).primer = some tPrimer ∧ tPrimer.scheduledEn = true ∧
     tPrimer.hitlessEn = true ∧ (s.started 0 0x31).windowsHold false = true ∧ (s.started 0 0x31).clk.time + armLead ≤ armLead) ∧
    (let s := { tBase with mgt := { tBase.mgt with fwState := .armed } }
     s.mgt.fwState = .armed ∧ s.mgt.fwTime.toNat ≤ s.clk.time ∧ (s.suites.toList.any fun u => u.st == .running || u.st == .draining) = true ∧
     ((s.modSuite 0 fun u => { u with st := .stopped }).suites.toList.any fun u => u.st == .running || u.st == .draining) = false) ∧
    (let s := { tBase with mgt := { tBase.mgt with fwState := .switching, fwClass := 1, fwPending := [2] } }
     s.mgt.fwPending.head? = some 2 ∧ s.mgt.fwState = .switching ∧ s.mgt.fwPending.contains 2 = true) ∧
    (let s := { tBase with mgt := { tBase.mgt with fwState := .switching, fwClass := 2, fwPending := [0] } }
     s.mgt.fwClass = 2 ∧ s.mailboxRuns = false ∧ { s with mbx := { s.mbx with busy := true } }.mailboxRuns = true) := by unfold State.Accepts; decide
theorem witness_ConfirmPrimerAndRecovery :
    (let s := { tBase with mgt := { tBase.mgt with fwState := .trial } }
     s.Accepts 0 0x32 ∧ (s.started 0 0x32).mgt.fwState = .trial ∧ classesOf (s.started 0 0x32).flash.status.staged = []) ∧
    (let s := { tBase with fuses := { Fuses.reset with ownerSlots := [[]] } }
     s.Accepts 0 0x35 ∧ (s.started 0 0x35).primerForm tPrimer = true ∧ (s.started 0 0x35).primerTrusted tPrimer (s.started 0 0x35).ownerDigest = true) ∧
    tBase.Accepts 0 0x36 ∧ (tStage .recovery).Accepts 0 0x37 ∧ ((tStage .recovery).started 0 0x37).fwTrusted tImg = true ∧ fwForm tImg = true := by
  unfold State.Accepts; decide
theorem witness_HealthThermalAndPower :
    (let e : RetEntry := { kind := 0, die := 0, index := 1, reason := 1, time := 0 }
     let s := { tBase with hlt := { Health.reset with pendingRecs := [e] } }; s.hlt.pendingRecs = e :: []) ∧ tBase.hlt.pendingRecs = [] ∧
    tBase.power.phase = .on ∧ tBase.populated 0 = true ∧ decide (108 ≤ (List.replicate 8 108).getD 0 0) = true ∧
    (∀ d : Fin 8, (decide (108 ≤ (List.replicate 8 107).getD d.val 0) || (([] : List (List Nat)).getD d.val []).any fun t => decide (108 ≤ t)) = false) ∧
    (let s := { tBase with power := { Power.reset with overMs := 10 } }; 10 ≤ s.power.overMs) := by decide
theorem witness_ServiceInterfaces : tBase.deferred = false ∧ ({ tBase with sec := { tBase.sec with updStep := true } } : State).deferred = true ∧
    (let s := tBase.modMgt fun m => { m with deferredSpdm := [(0, 5)] }
     (s.mgt.deferredSpdm.find? fun y => y.1 == (0 : Fin 9).val) = some (0, 5) ∧ s.deferred = false) := by decide

end Sys2Proof.Tests
end

section
/-! The doorbell and the error flag of a submission queue (R27). -/

namespace Sys2Proof.Machine

/-! ### Interrupts and events: what they leave of a suite -/

/-- Raising a vector sets a cause bit, of the management block or of one suite (R366). -/
theorem State.raise_suites (s : State) (fn i : Nat) :
    (s.raise fn i).suites =
      if fn = 0 then s.suites else (s.modSuite (fin8 (fn - 1)) fun u => { u with intSts := u.intSts ||| (1 <<< i) }).suites := by
  unfold State.raise
  dsimp only
  repeat' split
  all_goals rfl

/-- A suite keeps everything but its cause bits when a vector is raised (R366). -/
theorem State.raise_suite (s : State) (fn i : Nat) (k : Fin 8) :
    ∃ w, (s.raise fn i).suites[k] = { s.suites[k] with intSts := w } := by
  rw [State.raise_suites]
  split
  · exact ⟨s.suites[k].intSts, rfl⟩
  · by_cases hk : k = fin8 (fn - 1)
    · subst hk
      exact ⟨_, State.modSuite_self s _ _⟩
    · exact ⟨s.suites[k].intSts, State.modSuite_other s k _ _ hk⟩

theorem State.raise_suite_sq (s : State) (fn i : Nat) (k : Fin 8) : (s.raise fn i).suites[k].sq = s.suites[k].sq := by
  obtain ⟨w, hw⟩ := s.raise_suite fn i k
  rw [hw]

theorem State.raise_suite_log (s : State) (fn i : Nat) (k : Fin 8) : (s.raise fn i).suites[k].log = s.suites[k].log := by
  obtain ⟨w, hw⟩ := s.raise_suite fn i k
  rw [hw]

/-- The newest record of a log is the one just added, also when the ring was full (R41, R372). -/
theorem EventLog.add_newest_code (l : EventLog) (cap time code die unit : Nat) (data : List Byte) :
    ((l.add cap time code die unit data).recs.head?).map (·.code) = some code := by
  unfold EventLog.add
  dsimp only
  split <;> rfl

@[simp] theorem State.suiteEvent_mem (s : State) (k : Fin 8) (c d u : Nat) (b : List Byte) : (s.suiteEvent k c d u b).mem = s.mem := by
  simp [State.suiteEvent, State.suiteEventAt]

@[simp] theorem State.suiteEvent_dies (s : State) (k : Fin 8) (c d u : Nat) (b : List Byte) : (s.suiteEvent k c d u b).dies = s.dies := by
  simp [State.suiteEvent, State.suiteEventAt]

theorem State.suiteEvent_sq (s : State) (k : Fin 8) (c d u : Nat) (b : List Byte) :
    (s.suiteEvent k c d u b).suites[k].sq = s.suites[k].sq := by
  simp only [State.suiteEvent, State.suiteEventAt, State.raise_suite_sq, State.modSuite_self]

theorem State.suiteEvent_log (s : State) (k : Fin 8) (c d u : Nat) (b : List Byte) :
    (s.suiteEvent k c d u b).suites[k].log = s.suites[k].log.add 8192 s.clk.time c d u b := by
  simp only [State.suiteEvent, State.suiteEventAt, State.raise_suite_log, State.modSuite_self]

/-! ### The doorbell -/

/-- R27's condition on a tail `v` written to a queue: below 2^SIZE, and at most 2^SIZE − 1 entries with it. -/
def SubQueue.Fits (x : SubQueue) (v : Word) : Prop :=
  v.toNat < 2 ^ (x.size.toNat % 32) ∧
    ringUsed (2 ^ (x.size.toNat % 32)) x.tail x.head + ringUsed (2 ^ (x.size.toNat % 32)) v.toNat x.tail ≤ 2 ^ (x.size.toNat % 32) - 1

theorem State.doorbell_of_fits (s : State) (k : Fin 8) (q : Fin 4) (v : Word) (h : s.suites[k].sq[q].Fits v) :
    s.doorbell k q v = s.modSuite k fun u => { u with sq := u.sq.set q { s.suites[k].sq[q] with tail := v.toNat } } :=
  if_pos h

/-- A refused tail (R27): ERR, the QUEUE_ERROR record, and vector 3 of the suite's function. -/
theorem State.doorbell_of_not_fits (s : State) (k : Fin 8) (q : Fin 4) (v : Word) (h : ¬ s.suites[k].sq[q].Fits v) :
    s.doorbell k q v =
      ((s.modSuite k fun u => { u with sq := u.sq.set q { s.suites[k].sq[q] with err := true } }).suiteEvent k 0x0007 0xFF q
        (pack [(1, q.val), (3, 0), (4, v.toNat), (8, 0)])).raise (k.val + 1) 3 :=
  if_neg h

/-- SQ_DOORBELL reaches its queue's doorbell register: offset 0x40 × q + 0xC of the suite function (R25, R380). -/
theorem execSqDoorbell_eq_doorbell (k : Fin 8) (q : Fin 4) (v : Word) (s : State) (hs : s.sfnAbsent k = false) :
    execSqDoorbell k q v s = .next (s.doorbell k q v) := by
  have hlow : 0x40 * q.val + 0xC < 0x100 := by omega
  have hq : Fin.ofNat 4 ((0x40 * q.val + 0xC) / 0x40) = q := Fin.ext (by simp only [Fin.ofNat]; omega)
  have hoff : (0x40 * q.val + 0xC) % 0x40 = 0xC := by omega
  simp only [execSqDoorbell, State.writeSfn, State.writeSq, hs, hlow, hq, hoff, Bool.false_eq_true, ↓reduceIte]

/-- A queue with ERR set answers no fetch, whatever its suite's state (R27). -/
theorem execTaskFetch_of_err (k : Fin 8) (q : Fin 4) (bytes : List Byte) (s : State) (h : s.suites[k].sq[q].err = true) :
    execTaskFetch k (.queue q bytes) s = .next s := by
  unfold execTaskFetch
  dsimp only
  split
  · rfl
  · simp only [h, Bool.true_or, ↓reduceIte]

theorem execSqErrClear_eq_clearErr (k : Fin 8) (q : Fin 4) (s : State) (hs : s.sfnAbsent k = false) :
    execSqErrClear k q s = .next (s.clearErr k q) := by
  simp only [execSqErrClear, hs, Bool.false_eq_true, ↓reduceIte]

/-- Settles O14: the doorbell register takes a tail that fits; any other sets ERR, and the QUEUE_ERROR record is its log's newest. -/
theorem doorbellRule : Obligations.DoorbellRule := by
  intro k q v s hs
  refine ⟨fun h => ?_, fun h => ?_, fun h bytes => execTaskFetch_of_err k q bytes s h, execSqErrClear_eq_clearErr k q s hs⟩
  · exact (execSqDoorbell_eq_doorbell k q v s hs).trans (congrArg Host.Outcome.next (s.doorbell_of_fits k q v h))
  · refine ⟨s.doorbell k q v, execSqDoorbell_eq_doorbell k q v s hs, ?_⟩
    rw [s.doorbell_of_not_fits k q v h]
    refine ⟨?_, ?_, by simp, by simp⟩
    · rw [State.raise_suite_sq, State.suiteEvent_sq, State.modSuite_self]
      exact Vector.getElem_set_self q.isLt
    · rw [State.raise_suite_log, State.suiteEvent_log, EventLog.add_newest_code]

end Sys2Proof.Machine
end

section
/-! The context switch of a panel's array (R43, R44, R99, R167). -/

namespace Sys2Proof.Machine

/-! ### The banks that a switch saves and restores -/

/-- Only a computing bank runs to its window boundary: a bank that is free, settles or drains is saved as it is (R99). -/
theorem State.toBoundary_of_not_computing (s : State) (c : UnitCtx) (b : Bank) (h : b.state ≠ .computing) : s.toBoundary c b = b :=
  if_neg h

/-- The outgoing half of a context switch: the speculative reads of owner `ow` are cancelled, its thread holds both banks as they stand at the
window boundary, and the array is free (R43, R99, R167). -/
def State.saveOwner (s : State) (d : Fin 8) (p : Fin 104) (ow : Thread) (c : UnitCtx) : State :=
  (s.cancelSpec d p fun y => y.h == ow.tile.h).modPanel d p fun y =>
    { y with owner := none, bankA := .free, bankB := .free,
             threads := modFirst ow.id (fun w => { w with saved := some (s.toBoundary c y.bankA, s.toBoundary c y.bankB),
                                                          readyAt := s.clk.time }) y.threads }

theorem State.saveOwner_bankA (s : State) (d : Fin 8) (p : Fin 104) (ow : Thread) (c : UnitCtx) :
    ((s.saveOwner d p ow c).panel d p).bankA = .free := by
  rw [State.saveOwner, State.modPanel_self]

theorem State.saveOwner_bankB (s : State) (d : Fin 8) (p : Fin 104) (ow : Thread) (c : UnitCtx) :
    ((s.saveOwner d p ow c).panel d p).bankB = .free := by
  rw [State.saveOwner, State.modPanel_self]

/-- A thread that takes the array: it owns it, it is the last that ran, and its saved context is used up. -/
def Panel.ownedBy (x : Panel) (th : Thread) : Panel :=
  { x with owner := some th.id, lastRun := some (th.tile.k, th.tile.h),
           threads := modFirst th.id (fun w => { w with started := true, saved := none }) x.threads }

/-- The incoming half of a context switch: where both banks are free, a thread with a saved context has both its banks back whole (R43, R99). -/
theorem State.takeArray_of_saved (s : State) (d : Fin 8) (p : Fin 104) (th : Thread) (a b : Bank) (hth : th.saved = some (a, b))
    (hA : (s.panel d p).bankA = .free) (hB : (s.panel d p).bankB = .free) :
    s.takeArray d p th =
      ((s.modPanel d p fun y => { y with bankA := a, bankB := b }).modPanel d p fun y => y.ownedBy th, true) := by
  have hfree : (s.panel d p).bankA.state = .free ∧ (s.panel d p).bankB.state = .free := by
    rw [hA, hB]
    exact ⟨rfl, rfl⟩
  unfold State.takeArray
  simp only [hth]
  exact if_pos hfree

/-! ### THREAD_PREEMPT -/

/-- The K position at which a panel's owner gives up the array: the window boundary of the bank that holds its tile (R43). -/
def Panel.switchPoint (x : Panel) (ow : Thread) : Nat :=
  if x.bankA.tile = some ow.tile then x.bankA.boundary else x.bankB.boundary

section
variable {d : Fin 8} {p : Fin 104} {i : Fin 64} {th ow : Thread} {s : State}
  (hown : (s.panel d p).owner.bind (s.panel d p).thread? = some ow)
  (hready : (s.panel d p).ready.find? (fun y => y.id == i.val) = some th)
include hown hready

/-- A deferred thread never preempts (R178). -/
theorem execThreadPreempt_of_deferred (hdef : s.isDeferred d th = true) : execThreadPreempt d p i s = .next s := by
  simp only [execThreadPreempt, hown, hready, hdef, Bool.true_or, ↓reduceIte]

/-- The most urgent ready thread, against an owner whose unit goes on beyond its window boundary: the owner's context is saved and the thread takes
the array, or nothing happens where it cannot start (R43, R44). -/
theorem execThreadPreempt_of_urgent {c : UnitCtx} (hdef : s.isDeferred d th = false)
    (hprio : (th.prio : Int) - th.boosts < (ow.prio : Int) - ow.boosts)
    (hfirst : ((s.panel d p).ready.any fun y => y.id != i.val && s.before d p y th) = false) (hunit : s.unitCtx ow.tile = some c)
    (hend : (s.panel d p).switchPoint ow < c.kEnd) :
    execThreadPreempt d p i s =
      .next (if ((s.saveOwner d p ow c).takeArray d p th).2 then ((s.saveOwner d p ow c).takeArray d p th).1 else s) := by
  unfold execThreadPreempt
  simp only [hown, hready, hdef, hprio, hfirst, hunit, decide_true, Bool.not_true, Bool.or_self, Bool.false_eq_true, ↓reduceIte]
  exact congrArg Host.Outcome.next (if_neg (Nat.not_le.mpr hend))

end

/-- Settles O33: a switch is `State.saveOwner`, which saves both banks whole, and then `State.takeArray`, which restores those saved. -/
theorem threadPreemption : Obligations.ThreadPreemption := by
  refine ⟨fun d p i th ow c s hown hready => ⟨execThreadPreempt_of_deferred hown hready, ?_⟩, State.toBoundary_of_not_computing⟩
  intro hdef hprio hfirst hunit hend
  have hswitch := execThreadPreempt_of_urgent hown hready hdef hprio hfirst hunit hend
  refine ⟨fun a b hsaved => ?_, fun htakes => ?_⟩
  · have hrestore := (s.saveOwner d p ow c).takeArray_of_saved d p th a b hsaved (s.saveOwner_bankA d p ow c) (s.saveOwner_bankB d p ow c)
    rw [hrestore] at hswitch
    exact hswitch
  · exact hswitch.trans (congrArg Host.Outcome.next (if_pos htakes))

end Sys2Proof.Machine
end

section
/-! When memory key rotations start and how the epoch advances (R304, R305), with what the start of a command of function 0 leaves of the module
(R367, R368). -/

namespace Sys2Proof.Machine

/-! ### The start of a mailbox command -/

/-- Every command but 0x01 is function 0's alone (R326, R368). -/
theorem State.Accepts.manager {s : State} {fn : Fin 9} {code : Nat} (h : s.Accepts fn code) (hcode : code ≠ 1) : fn = 0 := by
  obtain ⟨_, _, hrefusal⟩ := h
  by_contra hfn
  have hval : fn.val ≠ 0 := fun hz => hfn (Fin.ext hz)
  unfold State.mbxRefusal at hrefusal
  split at hrefusal
  · cases hrefusal
  · rw [if_pos ⟨hval, hcode⟩] at hrefusal
    cases hrefusal

section
variable (s : State) (code : Nat)

@[simp] theorem State.started_zero_fuses : (s.started 0 code).fuses = s.fuses := by
  unfold State.started State.mbxProgress; split <;> rfl
@[simp] theorem State.started_zero_layout : (s.started 0 code).layout = s.layout := by
  unfold State.started State.mbxProgress; split <;> rfl
@[simp] theorem State.started_zero_dies : (s.started 0 code).dies = s.dies := by
  unfold State.started State.mbxProgress; split <;> rfl
@[simp] theorem State.started_zero_suites : (s.started 0 code).suites = s.suites := by
  unfold State.started State.mbxProgress; split <;> rfl

end

/-- A command that its mailbox takes has its effect on the state in which it has started (R367, R368). -/
theorem State.command_of_accepts {s : State} {fn : Fin 9} {code : Nat} (f : State → State) (h : s.Accepts fn code) :
    s.command fn code f = f (s.started fn code) := by
  obtain ⟨hkind, hidle, hrefusal⟩ := h
  simp only [State.command, State.started, hkind, hidle, hrefusal, Bool.false_and, Bool.false_eq_true, ↓reduceIte]

/-- A command that names a suite acts on a suite that is neither ABSENT nor SCRUBBING (R368). -/
theorem State.onSuite_of_present {s : State} {k : Fin 8} (fn : Fin 9) (f : Fin 8 → State) (habsent : s.suites[k].st ≠ .absent)
    (hscrub : s.suites[k].st ≠ .scrubbing) : s.onSuite fn k f = f k := by
  unfold State.onSuite
  rw [dif_pos k.isLt]
  split
  case h_1 h => exact absurd h habsent
  case h_2 h => exact absurd h hscrub
  case h_3 => rfl

/-! ### Stacks and dies in service -/

/-- A stack is a part of its die, so it stays where the dies do. -/
theorem State.stack_of_dies {s t : State} (h : t.dies = s.dies) (d : Fin 8) (i : Fin 12) : t.stack d i = s.stack d i := by
  unfold State.stack; rw [h]

/-- A suite's dies in service follow from the fuses, the layout and the dies (R2, R18). -/
theorem State.liveDies_of_dies {s t : State} (hf : t.fuses = s.fuses) (hl : t.layout = s.layout) (hd : t.dies = s.dies) (k : Fin 8) :
    t.liveDies k = s.liveDies k := by
  simp only [State.liveDies, State.suiteDies, State.populated, hf, hl, hd]

theorem State.liveDies_nodup (s : State) (k : Fin 8) : (s.liveDies k).Nodup :=
  ((List.nodup_finRange 8).filter _).filter _

@[simp] theorem State.dieEvent_dies (s : State) (d : Fin 8) (code unit : Nat) (data : List Byte) : (s.dieEvent d code unit data).dies = s.dies := by
  unfold State.dieEvent; split <;> simp

theorem State.foldl_modDie_of_notMem {d : Fin 8} {l : List (Fin 8)} (f : Die → Die) (s : State) (h : d ∉ l) :
    (l.foldl (fun t e => t.modDie e f) s).dies[d] = s.dies[d] := by
  induction l generalizing s with
  | nil => rfl
  | cons e l ih =>
    obtain ⟨hne, hl⟩ := not_or.mp (List.mem_cons.not.mp h)
    rw [List.foldl_cons, ih (s.modDie e f) hl, s.modDie_other d e f hne]

/-- An update of each die of a list without repetitions reaches each of them once. -/
theorem State.foldl_modDie_of_mem {d : Fin 8} {l : List (Fin 8)} (f : Die → Die) (s : State) (hl : l.Nodup) (h : d ∈ l) :
    (l.foldl (fun t e => t.modDie e f) s).dies[d] = f s.dies[d] := by
  induction l generalizing s with
  | nil => cases h
  | cons e l ih =>
    obtain ⟨he, hl⟩ := List.nodup_cons.mp hl
    rw [List.foldl_cons]
    rcases List.mem_cons.mp h with rfl | hd
    · rw [State.foldl_modDie_of_notMem f _ he, s.modDie_self]
    · rw [ih (s.modDie e f) hl hd, s.modDie_other d e f (ne_of_mem_of_not_mem hd he)]

/-! ### One stack's rotation -/

/-- A rotation requested while one runs waits for its end (R305). -/
theorem Stack.rotate_of_running {x : Stack} (h : x.reenc = true) : x.rotate = { x with rotQueued := true } := if_pos h

theorem Stack.rotate_reenc (x : Stack) : x.rotate.reenc = true := by
  unfold Stack.rotate
  split
  · assumption
  · rfl

/-- A rotation that starts takes the next epoch, and wraps from 0xFFFF to 1 (R305). -/
theorem Stack.rotate_epoch_of_idle {x : Stack} (h : x.reenc = false) :
    x.rotate.epoch = if x.epoch = 0xFFFF then 1 else x.epoch + 1 := by
  simp only [Stack.rotate, h, Bool.false_eq_true, ↓reduceIte]

/-- Epoch 0 is left to the scrub fill (R305). -/
theorem Stack.rotate_epoch_ne_zero_of_idle {x : Stack} (h : x.reenc = false) : x.rotate.epoch ≠ 0 := by
  rw [Stack.rotate_epoch_of_idle h]
  split
  · exact one_ne_zero
  · exact x.epoch.succ_ne_zero

/-! ### The commands that start rotations -/

/-- Each stack of a suite's dies in service rotates, once (R305). -/
theorem State.rotateSuite_stack {s : State} {k d : Fin 8} (h : d ∈ s.liveDies k) (i : Fin 12) :
    (s.rotateSuite k).stack d i = (s.stack d i).rotate := by
  unfold State.rotateSuite State.stack
  rw [State.foldl_modDie_of_mem _ s (s.liveDies_nodup k) h]
  exact Vector.getElem_map ..

theorem execMemKeyRotationStart_of_keyed {k : Fin 8} {s : State} (hrot : s.suites[k].memRot ≠ 0) (hkey : s.suites[k].key ≠ none)
    (hst : s.suites[k].st ≠ .absent) : execMemKeyRotationStart k s = .next (s.rotateSuite k) :=
  if_neg (not_or.mpr ⟨hrot, not_or.mpr ⟨hkey, hst⟩⟩)

/-- ROTATE_MEM rotates the suite in the state in which the command has started, and ends DONE (R305, R326). -/
theorem execRotateMem_of_accepts {fn : Fin 9} {k : Fin 8} {s : State} (hacc : s.Accepts fn 0x24) (habsent : s.suites[k].st ≠ .absent)
    (hscrub : s.suites[k].st ≠ .scrubbing) : execRotateMem fn k s = .next (((s.started 0 0x24).rotateSuite k).mbxEnd 0 .done []) := by
  obtain rfl := hacc.manager (by decide)
  rw [← s.started_zero_suites 0x24] at habsent hscrub
  rw [execRotateMem, State.command_of_accepts _ hacc, State.onSuite_of_present 0 _ habsent hscrub]

/-- Neither the start nor the end of function 0's command touches a die, so its rotation is the suite's (R305, R367). -/
theorem State.rotateSuite_started_stack {s : State} {k d : Fin 8} (code : Nat) (h : d ∈ s.liveDies k) (i : Fin 12) :
    (((s.started 0 code).rotateSuite k).mbxEnd 0 .done []).stack d i = (s.stack d i).rotate := by
  have hlive : d ∈ (s.started 0 code).liveDies k := by
    rwa [State.liveDies_of_dies (s.started_zero_fuses code) (s.started_zero_layout code) (s.started_zero_dies code)]
  calc (((s.started 0 code).rotateSuite k).mbxEnd 0 .done []).stack d i
      = ((s.started 0 code).rotateSuite k).stack d i := rfl
    _ = ((s.started 0 code).stack d i).rotate := State.rotateSuite_stack hlive i
    _ = (s.stack d i).rotate := congrArg Stack.rotate (State.stack_of_dies (s.started_zero_dies code) d i)

/-! ### The end of a rotation -/

/-- The stack whose rotation ends, before a queued one starts (R304). -/
def Stack.rotationEnded (x : Stack) : Stack := { x with reenc := false, pages := 0, rotQueued := false }

/-- A running rotation ends, and the one that is queued behind it starts (R304, R305). -/
theorem execReencryptionDone_of_running {d : Fin 8} {i : Fin 12} {s : State} (h : (s.stack d i).reenc = true) :
    ∃ t, execReencryptionDone d i s = .next t ∧
      t.stack d i = if (s.stack d i).rotQueued then (s.stack d i).rotationEnded.rotate else (s.stack d i).rotationEnded := by
  refine ⟨_, if_neg (by simp [h]), ?_⟩
  split
  · rw [State.modStack_self, State.stack_of_dies (State.dieEvent_dies ..), State.modStack_self, Stack.rotationEnded]
  · rw [State.stack_of_dies (State.dieEvent_dies ..), State.modStack_self, Stack.rotationEnded]

/-- Settles O41: both commands are `State.rotateSuite`, which rotates each stack once; the end of a rotation starts the one that is queued. -/
theorem keyRotations : Obligations.KeyRotations := by
  intro k fn d i s
  refine ⟨fun hrot hkey hst => ?_, fun hacc habsent hscrub => ?_, fun hidle => ?_, Stack.rotate_of_running, fun hrun => ?_⟩
  · exact ⟨_, execMemKeyRotationStart_of_keyed hrot hkey hst, fun hd => State.rotateSuite_stack hd i⟩
  · exact ⟨_, execRotateMem_of_accepts hacc habsent hscrub, fun hd => State.rotateSuite_started_stack 0x24 hd i⟩
  · exact ⟨Stack.rotate_reenc _, Stack.rotate_epoch_of_idle hidle, Stack.rotate_epoch_ne_zero_of_idle hidle⟩
  · obtain ⟨t, hexec, ht⟩ := execReencryptionDone_of_running hrun
    refine ⟨t, hexec, ?_⟩
    rw [ht]
    split
    case isTrue hq => exact ⟨(Stack.rotate_reenc _).trans hq.symm, Stack.rotate_epoch_of_idle rfl⟩
    case isFalse hq => exact ⟨(Bool.eq_false_of_not_eq_true hq).symm, rfl⟩

end Sys2Proof.Machine
end

section
/-! What every step keeps (09, 13, 14), and that a task command reaches memory only through its suite's view (R195). -/

namespace Sys2Proof.Machine

/-- Every command's effect keeps the structural invariant, leaves the queue, and only counts up and blows fuses. -/
theorem exec_keeps (c : Instr) (s : State) : KeepsOut false s (exec c s) :=
  match c with
  | .coldReset straps => execColdReset_keeps straps s (.refl s)
  | .moduleReset lowNs straps => execModuleReset_keeps lowNs straps s (.refl s)
  | .powerOffSequence thermtrip vinOff => execPowerOffSequence_keeps thermtrip vinOff s (.refl s)
  | .inputOvervoltage millivolts us => execInputOvervoltage_keeps millivolts us s (.refl s)
  | .stageRom pllLock serdesLock die0Absent => execStageRom_keeps pllLock serdesLock die0Absent s (.refl s)
  | .stageFirmware failedStart => execStageFirmware_keeps failedStart s (.refl s)
  | .stagePrimer badA badB => execStagePrimer_keeps badA badB s (.refl s)
  | .stageMemory failedDies badPcs badGroups => execStageMemory_keeps failedDies badPcs badGroups s (.refl s)
  | .stagePanels failedDies badPanels => execStagePanels_keeps failedDies badPanels s (.refl s)
  | .stageScrubTime => execStageScrubTime_keeps s (.refl s)
  | .ready => execReady_keeps s (.refl s)
  | .registerWrite fn off size be value => execRegisterWrite_keeps fn off size be value s (.refl s)
  | .latchedReadLo fn off => execLatchedReadLo_keeps fn off s (.refl s)
  | .guardedWrite off value off2 value2 gap other => execGuardedWrite_keeps off value off2 value2 gap other s (.refl s)
  | .rwbWrite fn off value => execRwbWrite_keeps fn off value s (.refl s)
  | .rwbApply b => execRwbApply_keeps b s (.refl s)
  | .intStatusClear fn value => execIntStatusClear_keeps fn value s (.refl s)
  | .function0Flr => execFunction0Flr_keeps s (.refl s)
  | .suiteReset k => execSuiteReset_keeps k s (.refl s)
  | .dmaTimeout op => execDmaTimeout_keeps op s (.refl s)
  | .sqDoorbell k q value => execSqDoorbell_keeps k q value s (.refl s)
  | .sqErrClear k q => execSqErrClear_keeps k q s (.refl s)
  | .cqHeadWrite k value => execCqHeadWrite_keeps k value s (.refl s)
  | .disableFunction f => execDisableFunction_keeps f s (.refl s)
  | .enableFunction f => execEnableFunction_keeps f s (.refl s)
  | .drainComplete f => execDrainComplete_keeps f s (.refl s)
  | .drainTimeout f => execDrainTimeout_keeps f s (.refl s)
  | .taskFetch k src => execTaskFetch_keeps k src s (.refl s)
  | .taskDispatch k h => execTaskDispatch_keeps k h s (.refl s)
  | .syncWaitSatisfied k h => execSyncWaitSatisfied_keeps k h s (.refl s)
  | .taskComplete k h => execTaskComplete_keeps k h s (.refl s)
  | .watchdog k h => execWatchdog_keeps k h s (.refl s)
  | .taskTimeout k h => execTaskTimeout_keeps k h s (.refl s)
  | .threadAgePromotion d p t => execThreadAgePromotion_keeps d p t s (.refl s)
  | .tileStart d p t => execTileStart_keeps d p t s (.refl s)
  | .threadPreempt d p t => execThreadPreempt_keeps d p t s (.refl s)
  | .tileDrain d p upsets => execTileDrain_keeps d p upsets s (.refl s)
  | .tileRecompute d p own other => execTileRecompute_keeps d p own other s (.refl s)
  | .spareSelfTestDone d p pass => execSpareSelfTestDone_keeps d p pass s (.refl s)
  | .panelStoreError d p t double inContext => execPanelStoreError_keeps d p t double inContext s (.refl s)
  | .sliceSteal d thief => execSliceSteal_keeps d thief s (.refl s)
  | .mergeAdd k h row fails => execMergeAdd_keeps k h row fails s (.refl s)
  | .mergedRowDrain k h row => execMergedRowDrain_keeps k h row s (.refl s)
  | .productPlain k h => execProductPlain_keeps k h s (.refl s)
  | .productTurned k h => execProductTurned_keeps k h s (.refl s)
  | .productSampled k h => execProductSampled_keeps k h s (.refl s)
  | .skimPredict k h => execSkimPredict_keeps k h s (.refl s)
  | .skimFused k h => execSkimFused_keeps k h s (.refl s)
  | .skimInit k h => execSkimInit_keeps k h s (.refl s)
  | .skimSet k h => execSkimSet_keeps k h s (.refl s)
  | .skimSave k h => execSkimSave_keeps k h s (.refl s)
  | .skimRestore k h => execSkimRestore_keeps k h s (.refl s)
  | .relayStore k h => execRelayStore_keeps k h s (.refl s)
  | .relayStoreValues k h => execRelayStoreValues_keeps k h s (.refl s)
  | .relayOnehot k h => execRelayOnehot_keeps k h s (.refl s)
  | .relayCopy k h => execRelayCopy_keeps k h s (.refl s)
  | .relayHostIn k h bytes => execRelayHostIn_keeps k h bytes s (.refl s)
  | .relayHostOut k h => execRelayHostOut_keeps k h s (.refl s)
  | .relayCheck k h => execRelayCheck_keeps k h s (.refl s)
  | .relayTwin k h => execRelayTwin_keeps k h s (.refl s)
  | .exchangeAllreduce k h => execExchangeAllreduce_keeps k h s (.refl s)
  | .exchangeReduceScatter k h => execExchangeReduceScatter_keeps k h s (.refl s)
  | .exchangeAllgather k h members => execExchangeAllgather_keeps k h members s (.refl s)
  | .exchangeBroadcast k h rootBytes => execExchangeBroadcast_keeps k h rootBytes s (.refl s)
  | .exchangeSend k h => execExchangeSend_keeps k h s (.refl s)
  | .exchangeRecv k h bytes => execExchangeRecv_keeps k h bytes s (.refl s)
  | .exchangeGet k h peerRefused => execExchangeGet_keeps k h peerRefused s (.refl s)
  | .exchangePut k h peerRefused => execExchangePut_keeps k h peerRefused s (.refl s)
  | .exchangeNorm k h => execExchangeNorm_keeps k h s (.refl s)
  | .exchangeDefine k h => execExchangeDefine_keeps k h s (.refl s)
  | .chunkResend k h stage step chunk => execChunkResend_keeps k h stage step chunk s (.refl s)
  | .updateApply k h => execUpdateApply_keeps k h s (.refl s)
  | .applyOpen d st => execApplyOpen_keeps d st s (.refl s)
  | .gradientArrival d st h elem total grid marked => execGradientArrival_keeps d st h elem total grid marked s (.refl s)
  | .updateFreeze k h => execUpdateFreeze_keeps k h s (.refl s)
  | .updateThaw k h => execUpdateThaw_keeps k h s (.refl s)
  | .updateVerify k h => execUpdateVerify_keeps k h s (.refl s)
  | .updateReplay k h => execUpdateReplay_keeps k h s (.refl s)
  | .updateRender k h => execUpdateRender_keeps k h s (.refl s)
  | .maskSample k h => execMaskSample_keeps k h s (.refl s)
  | .maskRank k h => execMaskRank_keeps k h s (.refl s)
  | .maskBuild k h => execMaskBuild_keeps k h s (.refl s)
  | .topkScan k h => execTopkScan_keeps k h s (.refl s)
  | .topkProductScan k h => execTopkProductScan_keeps k h s (.refl s)
  | .barrier k h d => execBarrier_keeps k h d s (.refl s)
  | .scaleInit k h => execScaleInit_keeps k h s (.refl s)
  | .scaleSet k h => execScaleSet_keeps k h s (.refl s)
  | .scaleSave k h => execScaleSave_keeps k h s (.refl s)
  | .scaleRestore k h => execScaleRestore_keeps k h s (.refl s)
  | .markRun k h => execMarkRun_keeps k h s (.refl s)
  | .markStepEnd k h d => execMarkStepEnd_keeps k h d s (.refl s)
  | .markCheckpoint k h => execMarkCheckpoint_keeps k h s (.refl s)
  | .markLoad k h bytes => execMarkLoad_keeps k h bytes s (.refl s)
  | .stepBoundary k => execStepBoundary_keeps k s (.refl s)
  | .pcRetirementMove d st pc unreadable => execPcRetirementMove_keeps d st pc unreadable s (.refl s)
  | .memoryRead k d who h unit lines fails ecc cls speculative late full =>
    execMemoryRead_keeps k d who h unit lines fails ecc cls speculative late full s (.refl s)
  | .memoryWrite k d who h unit off bytes cls fails ecc full => execMemoryWrite_keeps k d who h unit off bytes cls fails ecc full s (.refl s)
  | .d2dFlitReplay d e g replays => execD2dFlitReplay_keeps d e g replays s (.refl s)
  | .memKeyRotationStart k => execMemKeyRotationStart_keeps k s (.refl s)
  | .reencryptionDone d st => execReencryptionDone_keeps d st s (.refl s)
  | .codewordReceive d q seq ack correctable corrected => execCodewordReceive_keeps d q seq ack correctable corrected s (.refl s)
  | .link d q nak credits reserved => execLink_keeps d q nak credits reserved s (.refl s)
  | .idle d q => execIdle_keeps d q s (.refl s)
  | .keepalive d q time => execKeepalive_keeps d q time s (.refl s)
  | .hello d q cell => execHello_keeps d q cell s (.refl s)
  | .frameForward inPort srcDie f => execFrameForward_keeps inPort srcDie f s (.refl s)
  | .exchData d q f vals marks grids => execExchData_keeps d q f vals marks grids s (.refl s)
  | .exchCarry d q f carries => execExchCarry_keeps d q f carries s (.refl s)
  | .exchCtrl d q f msg => execExchCtrl_keeps d q f msg s (.refl s)
  | .getReq d q f requesterKey => execGetReq_keeps d q f requesterKey s (.refl s)
  | .getRsp d q f h bytes => execGetRsp_keeps d q f h bytes s (.refl s)
  | .put d q f bytes => execPut_keeps d q f bytes s (.refl s)
  | .pairKey d q m => execPairKey_keeps d q m s (.refl s)
  | .pairKeyRotation k peer => execPairKeyRotation_keeps k peer s (.refl s)
  | .previousPairKeyDestroy k peer => execPreviousPairKeyDestroy_keeps k peer s (.refl s)
  | .tsyncSend d q => execTsyncSend_keeps d q s (.refl s)
  | .tsync d q cell phase => execTsync_keeps d q cell phase s (.refl s)
  | .signalDetect d q pairs => execSignalDetect_keeps d q pairs s (.refl s)
  | .detectRetry d q => execDetectRetry_keeps d q s (.refl s)
  | .equalizeDone d q good => execEqualizeDone_keeps d q good s (.refl s)
  | .alignDone d q => execAlignDone_keeps d q s (.refl s)
  | .trainingLimitExpiry d q => execTrainingLimitExpiry_keeps d q s (.refl s)
  | .linkLossTimeout d q => execLinkLossTimeout_keeps d q s (.refl s)
  | .pairDegrade d q pair symbols => execPairDegrade_keeps d q pair symbols s (.refl s)
  | .downRetry d q => execDownRetry_keeps d q s (.refl s)
  | .dieOut d cause => execDieOut_keeps d cause s (.refl s)
  | .retirementRecordWrite => execRetirementRecordWrite_keeps s (.refl s)
  | .retiredRelog => execRetiredRelog_keeps s (.refl s)
  | .ageingSample samples others days => execAgeingSample_keeps samples others days s (.refl s)
  | .thermalTick junction stackTemps => execThermalTick_keeps junction stackTemps s (.refl s)
  | .thermalTrip => execThermalTrip_keeps s (.refl s)
  | .powerControlTick r => execPowerControlTick_keeps r s (.refl s)
  | .moduleCapEnforce => execModuleCapEnforce_keeps s (.refl s)
  | .smbusSnapshotRefresh junction => execSmbusSnapshotRefresh_keeps junction s (.refl s)
  | .smbusId => execSmbusId_keeps s (.refl s)
  | .smbusStatus => execSmbusStatus_keeps s (.refl s)
  | .smbusTemps => execSmbusTemps_keeps s (.refl s)
  | .smbusPower => execSmbusPower_keeps s (.refl s)
  | .smbusHealth => execSmbusHealth_keeps s (.refl s)
  | .alertStatus clear pecOk => execAlertStatus_keeps clear pecOk s (.refl s)
  | .alertMask write pecOk => execAlertMask_keeps write pecOk s (.refl s)
  | .tapIdcode d => execTapIdcode_keeps d s (.refl s)
  | .tapBypass d => execTapBypass_keeps d s (.refl s)
  | .tapExtestPulse d cells => execTapExtestPulse_keeps d cells s (.refl s)
  | .tapExtestTrain d cells => execTapExtestTrain_keeps d cells s (.refl s)
  | .doeAbort fn => execDoeAbort_keeps fn s (.refl s)
  | .getVersion fn => execGetVersion_keeps fn s (.refl s)
  | .getCapabilities fn => execGetCapabilities_keeps fn s (.refl s)
  | .negotiateAlgorithms fn ecdsaP384 sha384 => execNegotiateAlgorithms_keeps fn ecdsaP384 sha384 s (.refl s)
  | .getDigests fn => execGetDigests_keeps fn s (.refl s)
  | .getCertificate fn slot => execGetCertificate_keeps fn slot s (.refl s)
  | .challenge fn nonce => execChallenge_keeps fn nonce s (.refl s)
  | .getMeasurements fn index => execGetMeasurements_keeps fn index s (.refl s)
  | .respondIfReady fn => execRespondIfReady_keeps fn s (.refl s)
  | .mailboxUndefinedCommand fn code => execMailboxUndefinedCommand_keeps fn code s (.refl s)
  | .mailboxCompletion fn => execMailboxCompletion_keeps fn s (.refl s)
  | .identify fn => execIdentify_keeps fn s (.refl s)
  | .debugUnlock fn ownerOk vendorOk devKey => execDebugUnlock_keeps fn ownerOk vendorOk devKey s (.refl s)
  | .dieRecycle fn d => execDieRecycle_keeps fn d s (.refl s)
  | .dieRecycleTimeout d => execDieRecycleTimeout_keeps d s (.refl s)
  | .scrub fn k => execScrub_keeps fn k s (.refl s)
  | .scrubFillDone k => execScrubFillDone_keeps k s (.refl s)
  | .provision fn k record ownerSigOk => execProvision_keeps fn k record ownerSigOk s (.refl s)
  | .unwrap fn k tensor pkg => execUnwrap_keeps fn k tensor pkg s (.refl s)
  | .wrapExport fn k tensor host capacity => execWrapExport_keeps fn k tensor host capacity s (.refl s)
  | .rotateMem fn k => execRotateMem_keeps fn k s (.refl s)
  | .spdm fn host len => execSpdm_keeps fn host len s (.refl s)
  | .measLog fn k log host capacity => execMeasLog_keeps fn k log host capacity s (.refl s)
  | .fwStage fn img => execFwStage_keeps fn img s (.refl s)
  | .fwActivateScheduled fn t => execFwActivateScheduled_keeps fn t s (.refl s)
  | .scheduledActivation => execScheduledActivation_keeps s (.refl s)
  | .fwActivateHitless fn => execFwActivateHitless_keeps fn s (.refl s)
  | .hitlessHandover proc => execHitlessHandover_keeps proc s (.refl s)
  | .handoverTimeout proc => execHandoverTimeout_keeps proc s (.refl s)
  | .fwConfirm fn => execFwConfirm_keeps fn s (.refl s)
  | .fwRevert fn mode t => execFwRevert_keeps fn mode t s (.refl s)
  | .fwUnstage fn cls => execFwUnstage_keeps fn cls s (.refl s)
  | .primerStage fn img record => execPrimerStage_keeps fn img record s (.refl s)
  | .primerSelect fn slot => execPrimerSelect_keeps fn slot s (.refl s)
  | .recoveryLoad fn img device0Answers => execRecoveryLoad_keeps fn img device0Answers s (.refl s)
  | .doeDiscovery fn index => execDoeDiscovery_keeps fn index s (.refl s)
  | .guardWindowExpiry => execGuardWindowExpiry_keeps s (.refl s)
  | .startUpAllowed millivolts => execStartUpAllowed_keeps millivolts s (.refl s)
  | .tapExtest d cells => execTapExtest_keeps d cells s (.refl s)
  | .tapSamplePreload d cells => execTapSamplePreload_keeps d cells s (.refl s)
  | .tapReset => execTapReset_keeps s (.refl s)

/-- Settles O1: it is the second branch of `step`. -/
theorem stepRunsFrontCommand : Obligations.StepRunsFrontCommand := fun _ _ _ => rfl

theorem State.reset_inv : State.reset.inv := ⟨⟨rfl, rfl⟩, rfl⟩

/-- Settles O3: at reset no byte of memory is listed, no line is poisoned and no command waits. -/
theorem resetHasInvariant : Obligations.ResetHasInvariant := ⟨State.reset_inv, rfl⟩

/-- Settles O4: a tick touches no memory, and every command keeps the invariant. -/
theorem stepKeepsInvariant : Obligations.StepKeepsInvariant := by
  intro s t hinv hstep
  unfold step at hstep
  split at hstep
  case h_1 =>
    cases hstep
    exact hinv
  case h_2 c rest _ => exact (exec_keeps c { s with pending := rest } t hstep).inv hinv

/-- Settles O5: what `Keeps` says of the queue, the counters and the fuses. -/
theorem effectsOnlyBlowFuses : Obligations.EffectsOnlyBlowFuses := by
  intro c s t hexec
  have h := exec_keeps c s t hexec
  exact ⟨h.pending, h.keyGen, h.free, h.fuses⟩

/-- The count of one edge where no correction is left (R247). -/
theorem Clk.count_of_no_slew {c : Clk} (h : c.slew = 0) :
    c.count = { c with time := (c.time + 1) % 2 ^ 64, edges := min 1024 (c.edges + 1) } := if_pos (.inl h)

/-- Settles O2: the tick, whose clock has no correction left. -/
theorem stepOnEmptyQueueIsOneTclk : Obligations.StepOnEmptyQueueIsOneTclk := by
  intro s hpending hslew
  rw [step, hpending]
  simp only [State.tick, Clk.count_of_no_slew hslew, Trowel.charge, hpending]

/-! ### Task commands reach memory only through the suite's view (R195) -/

/-- `t` is `s`, or what a requester of suite `k` makes of it with an effect that keeps the quiet form. -/
def State.Confined (s : State) (k : Fin 8) (t : State) : Prop :=
  t = s ∨ ∃ f : State → State, (∀ a u : State, Keeps true a u → Keeps true a (f u)) ∧ t = s.confine k f

theorem State.Confined.keeps {s t : State} {k : Fin 8} (h : s.Confined k t) : Keeps true s t := by
  obtain rfl | ⟨f, hf, rfl⟩ := h
  · exact .refl t
  · exact State.confine_keeps k (.refl s) (hf s)

theorem State.Confined.foreign {s t : State} {k : Fin 8} {a : Nat} (h : s.Confined k t) (hinv : s.inv)
    (ha : s.reachable k (a / 64) = false) : t.byte a = s.byte a ∧ t.poisoned (a / 64) = s.poisoned (a / 64) := by
  obtain rfl | ⟨f, hf, rfl⟩ := h
  · exact ⟨rfl, rfl⟩
  · have hview : (f (s.view k)).inv := (hf s _ (State.view_keeps k (.refl s))).inv hinv
    obtain ⟨hbyte, hpoison⟩ := State.confine_foreign k hinv hview ha
    exact ⟨hbyte a rfl, hpoison⟩

theorem State.onRunning_confined {s : State} {k : Fin 8} {h : Nat} {f : Task → State} (hf : ∀ t, s.Confined k (f t)) :
    s.Confined k (s.onRunning k h f) := by
  unfold State.onRunning
  repeat' split
  · exact hf _
  · exact .inl rfl
  · exact .inl rfl

theorem State.runTask_confined (s : State) (k : Fin 8) (h type mode : Nat) {f : State → Task → State}
    (hf : ∀ {a} u t, Keeps true a u → Keeps true a (f u t)) : s.Confined k (s.runTask k h type mode f) := by
  refine State.onRunning_confined fun t => ?_
  split
  · exact .inr ⟨fun u => f u t, fun _ u => hf u t, rfl⟩
  · exact .inl rfl

/-- What MERGE_ADD does for one part as a requester of the suite (R139, R197). -/
def State.mergePart (k : Fin 8) (h row : Nat) (fails : List (Fin 4 × Nat)) (t : Task) (x : RawPart) (u : State) : State :=
  let m := t.desc.arg 16 5
  let u1 := if (t.merged.lookup row).isNone then u else
    (List.range 4).foldl (fun v j => v.rmwRead (some h) (m + 4 * row + j) (failsOf (fails.map fun f => (f.1.val, f.2)) j) 1) u
  (u1.addPart k h m x).modTask k h fun y => { y with parts := y.parts.erase x }

theorem State.mergePart_keeps {a : State} (k : Fin 8) (h row : Nat) (fails : List (Fin 4 × Nat)) (t : Task) (x : RawPart) (u : State)
    (hu : Keeps true a u) : Keeps true a (u.mergePart k h row fails t x) :=
  State.modTask_keeps _ k h _ <| State.addPart_keeps _ k h _ x <|
    ite_keeps hu (foldl_keeps hu fun v _ hv => State.rmwRead_keeps v _ _ _ _ hv)

theorem execMergeAdd_confined (s : State) (k : Fin 8) (h row : Nat) (fails : List (Fin 4 × Nat)) :
    ∃ t, execMergeAdd k h row fails s = .next t ∧ s.Confined k t := by
  refine ⟨_, rfl, State.onRunning_confined fun t => ?_⟩
  split
  · exact .inl rfl
  · exact .inr ⟨fun u => u.mergePart k h row fails t _, fun _ u => State.mergePart_keeps k h row fails t _ u, rfl⟩

/-- What MERGED_ROW_DRAIN does as a requester of the suite (R101, R139). -/
def State.drainRow (k : Fin 8) (h row : Nat) (t : Task) (u : State) : State :=
  match u.panelCheck k t with
  | .error _ => u
  | .ok p =>
    if !(u.mergeDone k h p).contains row || u.streamWaits k p then u
    else match u.mergedOut u k t p row with
      | none => u
      | some o =>
        let u1 := (u.tilesDrain u k t p [o] [o]).modTask k h fun y => { y with mergedDone := row :: y.mergedDone }
        if o.pois then u1.reportAccess k t (some (u.firstPoison p)) none else u1

theorem State.drainRow_keeps {a : State} (k : Fin 8) (h row : Nat) (t : Task) (u : State) (hu : Keeps true a u) :
    Keeps true a (u.drainRow k h row t) := by
  unfold State.drainRow
  split
  · exact hu
  · refine ite_keeps hu ?_
    split
    · exact hu
    · have hdrain := fun p o => State.modTask_keeps _ k h (fun y => { y with mergedDone := row :: y.mergedDone })
        (State.tilesDrain_keeps u u k t p [o] [o] hu hu)
      exact ite_keeps (State.reportAccess_keeps _ k t _ _ (hdrain _ _)) (hdrain _ _)

theorem execMergedRowDrain_confined (s : State) (k : Fin 8) (h row : Nat) :
    ∃ t, execMergedRowDrain k h row s = .next t ∧ s.Confined k t :=
  ⟨_, rfl, State.onRunning_confined fun t => .inr ⟨fun u => u.drainRow k h row t, fun _ u => State.drainRow_keeps k h row t u, rfl⟩⟩

/-- The effect of `c`, where it is a task command, is confined to its suite. -/
def State.Confines (s : State) (c : Instr) : Prop := ∀ k, c.taskSuite = some k → ∃ t, exec c s = .next t ∧ s.Confined k t

theorem State.Confines.of {s t : State} {c : Instr} {k : Fin 8} (hc : c.taskSuite = some k) (hexec : exec c s = .next t)
    (h : s.Confined k t) : s.Confines c := by
  intro j hj
  cases hc.symm.trans hj
  exact ⟨t, hexec, h⟩

/-- Every task command's effect is confined to its suite (R195). -/
theorem exec_confined (s : State) (c : Instr) : s.Confines c := by
  cases c with
  | mergeAdd k h row fails => obtain ⟨t, ht, hconf⟩ := execMergeAdd_confined s k h row fails; exact .of rfl ht hconf
  | mergedRowDrain k h row => obtain ⟨t, ht, hconf⟩ := execMergedRowDrain_confined s k h row; exact .of rfl ht hconf
  | productPlain k h => exact .of rfl rfl (s.runTask_confined k h _ _ fun u t hu => State.runProduct_keeps u k t hu)
  | productTurned k h => exact .of rfl rfl (s.runTask_confined k h _ _ fun u t hu => State.runProduct_keeps u k t hu)
  | productSampled k h => exact .of rfl rfl (s.runTask_confined k h _ _ fun u t hu => State.runProduct_keeps u k t hu)
  | skimPredict k h => exact .of rfl rfl (s.runTask_confined k h _ _ fun u t hu => State.runSkim_keeps u k t hu)
  | skimFused k h => exact .of rfl rfl (s.runTask_confined k h _ _ fun u t hu => State.runSkim_keeps u k t hu)
  | skimInit k h => exact .of rfl rfl (s.runTask_confined k h _ _ fun u t hu => State.skimInit_keeps u k t hu)
  | skimSet k h => exact .of rfl rfl (s.runTask_confined k h _ _ fun u t hu => State.skimSet_keeps u k t hu)
  | skimSave k h => exact .of rfl rfl (s.runTask_confined k h _ _ fun u t hu => State.skimSave_keeps u k t hu)
  | skimRestore k h => exact .of rfl rfl (s.runTask_confined k h _ _ fun u t hu => State.skimRestore_keeps u k t hu)
  | relayStore k h => exact .of rfl rfl (s.runTask_confined k h _ _ fun u t hu => State.relayStore_keeps u k t hu)
  | relayStoreValues k h => exact .of rfl rfl (s.runTask_confined k h _ _ fun u t hu => State.relayStoreValues_keeps u k t hu)
  | relayOnehot k h => exact .of rfl rfl (s.runTask_confined k h _ _ fun u t hu => State.relayOnehot_keeps u k t hu)
  | relayCopy k h => exact .of rfl rfl (s.runTask_confined k h _ _ fun u t hu => State.relayCopy_keeps u k t hu)
  | relayHostIn k h bytes => exact .of rfl rfl (s.runTask_confined k h _ _ fun u t hu => State.relayHostIn_keeps u k t bytes hu)
  | relayHostOut k h => exact .of rfl rfl (s.runTask_confined k h _ _ fun u t hu => State.relayHostOut_keeps u k t hu)
  | relayCheck k h => exact .of rfl rfl (s.runTask_confined k h _ _ fun u t hu => State.relayCheck_keeps u k t hu)
  | relayTwin k h => exact .of rfl rfl (s.runTask_confined k h _ _ fun u t hu => State.relayTwin_keeps u k t hu)
  | exchangeAllreduce k h => exact .of rfl rfl (s.runTask_confined k h _ _ fun u t hu => State.runReduce_keeps u k t true hu)
  | exchangeReduceScatter k h => exact .of rfl rfl (s.runTask_confined k h _ _ fun u t hu => State.runReduce_keeps u k t false hu)
  | exchangeAllgather k h members => exact .of rfl rfl (s.runTask_confined k h _ _ fun u t hu => State.exchangeAllgather_keeps u k t members hu)
  | exchangeBroadcast k h rootBytes => exact .of rfl rfl (s.runTask_confined k h _ _ fun u t hu => State.exchangeBroadcast_keeps u k t rootBytes hu)
  | exchangeSend k h => exact .of rfl rfl (s.runTask_confined k h _ _ fun u t hu => State.exchangeSend_keeps u k t hu)
  | exchangeRecv k h bytes => exact .of rfl rfl (s.runTask_confined k h _ _ fun u t hu => State.exchangeRecv_keeps u k t bytes hu)
  | exchangeGet k h peerRefused => exact .of rfl rfl (s.runTask_confined k h _ _ fun u t hu => State.exchangeGet_keeps u k t peerRefused hu)
  | exchangePut k h peerRefused => exact .of rfl rfl (s.runTask_confined k h _ _ fun u t hu => State.exchangePut_keeps u k t peerRefused hu)
  | exchangeNorm k h => exact .of rfl rfl (s.runTask_confined k h _ _ fun u t hu => State.exchangeNorm_keeps u k t hu)
  | exchangeDefine k h => exact .of rfl rfl (s.runTask_confined k h _ _ fun u t hu => State.exchangeDefine_keeps u k t hu)
  | updateApply k h => exact .of rfl rfl (s.runTask_confined k h _ _ fun u t hu =>
    State.withRecord_keeps u k t 1 _ hu fun v hv => State.runApply_keeps v k t _ hv)
  | updateFreeze k h => exact .of rfl rfl (s.runTask_confined k h _ _ fun u t hu => State.runFreeze_keeps u k t true hu)
  | updateThaw k h => exact .of rfl rfl (s.runTask_confined k h _ _ fun u t hu => State.runFreeze_keeps u k t false hu)
  | updateVerify k h => exact .of rfl rfl (s.runTask_confined k h _ _ fun u t hu => State.updateVerify_keeps u k t hu)
  | updateReplay k h => exact .of rfl rfl (s.runTask_confined k h _ _ fun u t hu =>
    State.withRecord_keeps u k t 1 _ hu fun v hv => State.runReplay_keeps v k t _ hv)
  | updateRender k h => exact .of rfl rfl (s.runTask_confined k h _ _ fun u t hu => State.updateRender_keeps u k t hu)
  | maskSample k h => exact .of rfl rfl (s.runTask_confined k h _ _ fun u t hu => State.maskSample_keeps u k t hu)
  | maskRank k h => exact .of rfl rfl (s.runTask_confined k h _ _ fun u t hu => State.maskRank_keeps u k t hu)
  | maskBuild k h => exact .of rfl rfl (s.runTask_confined k h _ _ fun u t hu => State.maskBuild_keeps u k t hu)
  | topkScan k h => exact .of rfl rfl (s.runTask_confined k h _ _ fun u t hu => State.topkScan_keeps u k t hu)
  | topkProductScan k h => exact .of rfl rfl (s.runTask_confined k h _ _ fun u t hu => State.topkProductScan_keeps u k t hu)
  | scaleInit k h => exact .of rfl rfl (s.runTask_confined k h _ _ fun u t hu => State.scaleInit_keeps u k t hu)
  | scaleSet k h => exact .of rfl rfl (s.runTask_confined k h _ _ fun u t hu => State.scaleSet_keeps u k t hu)
  | scaleSave k h => exact .of rfl rfl (s.runTask_confined k h _ _ fun u t hu => State.scaleSave_keeps u k t hu)
  | scaleRestore k h => exact .of rfl rfl (s.runTask_confined k h _ _ fun u t hu => State.scaleRestore_keeps u k t hu)
  | markLoad k h bytes => exact .of rfl rfl (s.runTask_confined k h _ _ fun u t hu => State.markLoad_keeps u k t bytes hu)
  | _ => exact nofun

/-- Settles O29: every task command is confined to its suite. -/
theorem tasksLeaveForeignLinesAlone : Obligations.TasksLeaveForeignLinesAlone := by
  intro c k s t hinv hc hexec a ha
  obtain ⟨u, hu, hconf⟩ := exec_confined s c k hc
  cases hu.symm.trans hexec
  exact hconf.foreign hinv ha

/-- Settles O30: what a suite's requester does keeps the quiet form. -/
theorem tasksLeaveTheModuleAlone : Obligations.TasksLeaveTheModuleAlone := by
  intro c k s t hc hexec
  obtain ⟨u, hu, hconf⟩ := exec_confined s c k hc
  cases hu.symm.trans hexec
  exact hconf.keeps.still rfl

end Sys2Proof.Machine
end

section
/-! Rounding, conversions and raw partials (R62, R63, R68, R90, R92, R101). -/

namespace Sys2Proof.Machine

/-! ### Rounding a quotient (R62, R68) -/

theorem roundQ_exact (m : RMode) (neg : Bool) (q : Nat) {den : Nat} (h : 0 < den) : roundQ m neg q 0 den = q := by
  cases m with
  | rne =>
    have hlow : ¬(2 * 0 > den ∨ (2 * 0 = den ∧ q % 2 = 1)) := by omega
    exact if_neg hlow
  | sr u => simp [roundQ]
  | up => simp [roundQ]

theorem roundQ_rne (neg : Bool) (q rem den : Nat) :
    (roundQ .rne neg q rem den = q ∧ 2 * rem ≤ den ∨ roundQ .rne neg q rem den = q + 1 ∧ den ≤ 2 * rem) ∧
      (2 * rem = den → roundQ .rne neg q rem den % 2 = 0) := by
  unfold roundQ
  dsimp only
  split <;> omega

theorem roundQ_sr (neg : Bool) (u q rem den : Nat) :
    roundQ (.sr u) neg q rem den = q + (if u < rem * 2 ^ 24 / den then 1 else 0) := by
  unfold roundQ
  dsimp only
  split <;> rfl

/-! ### Values that lie on the grid of a format -/

theorem inUnits_self (mag : Nat) (e : Int) : inUnits mag e e = (mag, 0, 1) := by
  simp [inUnits]

/-- A value that is a count of the grid's units there is not rounded. -/
theorem roundFloat_of_onGrid (m : RMode) (w : Nat) (emin : Int) (neg : Bool) {mag : Nat} {e : Int} (hmag : mag ≠ 0)
    (hgrid : max (flog mag e) emin = e + w) : roundFloat m w emin neg mag e = (mag, e) := by
  have hulp : e + (w : Int) - w = e := by omega
  simp only [roundFloat, if_neg hmag, hgrid, hulp, inUnits_self, roundQ_exact m neg mag Nat.one_pos]

/-- A code's value rounds to the code's own mantissa count, whose bits are the code's (R55). -/
theorem roundFloat_decFloat (mode : RMode) {w b ef m : Nat} (neg : Bool) (hm : m < 2 ^ w) {n : Bool} {mag : Nat} {e : Int}
    (hdec : decFloat w b neg ef m = .fin n mag e) (hmag : mag ≠ 0) :
    n = neg ∧ roundFloat mode w (1 - (b : Int)) neg mag e = (mag, e) ∧ packFloat w b mag e = ef * 2 ^ w + m := by
  unfold decFloat at hdec
  split at hdec
  case isTrue hef =>
    obtain ⟨rfl, rfl, rfl⟩ := Num.fin.inj hdec
    have hlog : Nat.log2 m < w := (Nat.log2_lt hmag).mpr hm
    refine ⟨rfl, roundFloat_of_onGrid mode w _ neg hmag ?_, ?_⟩
    · unfold flog
      omega
    · rw [packFloat, if_pos hm, hef]
      omega
  case isFalse hef =>
    obtain ⟨rfl, rfl, rfl⟩ := Num.fin.inj hdec
    have hlog : Nat.log2 (2 ^ w + m) = w := (Nat.log2_eq_iff hmag).mpr ⟨by omega, by omega⟩
    refine ⟨rfl, roundFloat_of_onGrid mode w _ neg hmag ?_, ?_⟩
    · unfold flog
      omega
    · have hexp : ((ef : Int) - b - w + w + b).toNat = ef := by omega
      rw [packFloat, if_neg (by omega), hexp]
      omega

/-! ### Binary32 -/

theorem b2n_bitOf_top {n k : Nat} (h : n < 2 ^ (k + 1)) : b2n (bitOf n k) = n / 2 ^ k := by
  have hlt : n / 2 ^ k < 2 := Nat.div_lt_of_lt_mul (by rwa [Nat.pow_succ] at h)
  have hbit : bitOf n k = decide (n / 2 ^ k % 2 = 1) := Nat.testBit_eq_decide_div_mod_eq
  rw [hbit, b2n]
  simp only [decide_eq_true_eq]
  generalize n / 2 ^ k = q at hlt ⊢
  split <;> omega

theorem roundFloat_zero (m : RMode) (w : Nat) (emin : Int) (neg : Bool) (e : Int) : roundFloat m w emin neg 0 e = (0, emin - w) :=
  if_pos rfl

/-- A finite pattern's exponent and mantissa come back from its value. -/
theorem packFloat_decFloat (mode : RMode) {w b ef m : Nat} (neg : Bool) (hm : m < 2 ^ w) {n : Bool} {mag : Nat} {e : Int}
    (hdec : decFloat w b neg ef m = .fin n mag e) :
    n = neg ∧ packFloat w b (roundFloat mode w (1 - (b : Int)) neg mag e).1 (roundFloat mode w (1 - (b : Int)) neg mag e).2 = ef * 2 ^ w + m := by
  by_cases hmag : mag = 0
  · subst hmag
    unfold decFloat at hdec
    split at hdec
    case isTrue hef =>
      obtain ⟨rfl, rfl, -⟩ := Num.fin.inj hdec
      rw [roundFloat_zero, packFloat, if_pos hm, hef]
      exact ⟨rfl, by omega⟩
    case isFalse =>
      have := (Num.fin.inj hdec).2.1
      omega
  · obtain ⟨rfl, hround, hpack⟩ := roundFloat_decFloat mode neg hm hdec hmag
    rw [hround]
    exact ⟨rfl, hpack⟩

/-- Settles O8: by the kinds of pattern, infinity and finite. -/
theorem binary32RoundTrip : Obligations.Binary32RoundTrip := by
  intro m w hnan
  have hw : w.toNat < 2 ^ 32 := w.isLt
  have hsign : b2n (bitOf w.toNat 31) = w.toNat / 2 ^ 31 := b2n_bitOf_top hw
  apply BitVec.eq_of_toNat_eq
  unfold f32dec at hnan ⊢
  dsimp only at hnan ⊢
  split at hnan
  case isTrue hef =>
    split at hnan
    case isTrue hm =>
      rw [if_pos hef, if_pos hm]
      unfold f32enc
      cases hb : bitOf w.toNat 31 <;> simp [hb, b2n] at hsign ⊢ <;> omega
    case isFalse => simp [Num.isNan] at hnan
  case isFalse hef =>
    rw [if_neg hef]
    have hfin : ∃ n mag e, decFloat 23 127 (bitOf w.toNat 31) (w.toNat / 2 ^ 23 % 256) (w.toNat % 2 ^ 23) = .fin n mag e := by
      unfold decFloat
      split <;> exact ⟨_, _, _, rfl⟩
    obtain ⟨n, mag, e, hdec⟩ := hfin
    obtain ⟨rfl, hpack⟩ := packFloat_decFloat m (bitOf w.toNat 31) (Nat.mod_lt _ (by decide)) hdec
    rw [hdec]
    unfold f32enc
    have hmin : (1 : Int) - (127 : Nat) = -126 := by decide
    rw [hmin] at hpack
    dsimp only
    rw [hpack, if_pos (by omega), hsign, BitVec.toNat_ofNat]
    omega

/-! ### Conversion to a narrow format (R62, R63) -/

/-- The count of units of the grid of a narrow format to which a magnitude rounds, and the unit's exponent. -/
def Fmt.gridRound (f : Fmt) (m : RMode) (neg : Bool) (mag : Nat) (e ue : Int) : Nat × Int :=
  match f.float? with
  | some (w, b) => roundFloat m w (1 - (b : Int)) neg mag (e - ue)
  | none => (roundQ m neg (inUnits mag e ue).1 (inUnits mag e ue).2.1 (inUnits mag e ue).2.2, 0)

theorem convNarrow_of_le {f : Fmt} (m : RMode) (neg : Bool) {mag : Nat} {e ue : Int} (hmag : mag ≠ 0) (hle : dyLe mag e f.qmax ue = true) :
    convNarrow f m (.fin neg mag e) ue = (narrowCode f neg (f.gridRound m neg mag e ue).1 (f.gridRound m neg mag e ue).2,
      ⟨1, 0, b2n ((f.gridRound m neg mag e ue).1 == 0), 0⟩) := by
  unfold convNarrow Fmt.gridRound
  simp only [if_neg hmag, hle]
  cases f.float? <;> rfl

theorem convNarrow_of_lt {f : Fmt} (m : RMode) (neg : Bool) {mag : Nat} {e ue : Int} (hmag : mag ≠ 0) (hlt : dyLe mag e f.qmax ue = false) :
    convNarrow f m (.fin neg mag e) ue = (satCode f neg, ⟨1, 1, 0, 0⟩) := by
  simp only [convNarrow, if_neg hmag, hlt, Bool.not_false, if_true]

theorem convNarrow_zero (f : Fmt) (m : RMode) (neg : Bool) (e ue : Int) : convNarrow f m (.fin neg 0 e) ue = (0, ⟨1, 0, 0, 0⟩) := by
  simp only [convNarrow, if_true]

theorem dyLe_shift (mag : Nat) (e : Int) (q : Nat) (x : Int) : dyLe mag (e + x) q x = dyLe mag e q 0 := by
  unfold dyLe
  have h1 : x - (e + x) = 0 - e := by omega
  have h2 : e + x - x = e - 0 := by omega
  rw [h1, h2]
  congr 1
  simp

/-- A code of a narrow format that is no zero and no invalid element: its value lies on the grid, and its count there gives the code. -/
structure Fmt.Represents (f : Fmt) (c : Nat) (neg : Bool) (mag : Nat) (e : Int) : Prop where
  dec : (decNarrow f c).v = .fin neg mag e
  code : ∃ ulp, (∀ m x, f.gridRound m neg mag (e + x) x = (mag, ulp)) ∧ narrowCode f neg mag ulp = c

theorem Fmt.gridRound_float {f : Fmt} {w b : Nat} (hf : f.float? = some (w, b)) {c ef m : Nat} {neg : Bool} (hm : m < 2 ^ w)
    (hv : (decNarrow f c).v = decFloat w b neg ef m) (hz : (decNarrow f c).v.isZero = false)
    (hcode : ∀ n ulp, n ≠ 0 → packFloat w b n ulp = ef * 2 ^ w + m → narrowCode f neg n ulp = c) :
    ∃ mag e, f.Represents c neg mag e := by
  obtain ⟨n, mag, e, hdec⟩ : ∃ n mag e, decFloat w b neg ef m = .fin n mag e := by
    unfold decFloat
    split <;> exact ⟨_, _, _, rfl⟩
  have hmag : mag ≠ 0 := by
    rintro rfl
    simp [hv, hdec, Num.isZero] at hz
  obtain ⟨rfl, -, hpack⟩ := roundFloat_decFloat .rne neg hm hdec hmag
  refine ⟨mag, e, hv.trans hdec, e, fun mode x => ?_, hcode mag e hmag hpack⟩
  obtain ⟨-, hround, -⟩ := roundFloat_decFloat mode n hm hdec hmag
  have hx : e + x - x = e := by omega
  simp only [Fmt.gridRound, hf, hx, hround]

theorem Fmt.gridRound_integer {f : Fmt} (hf : f.float? = none) (m : RMode) (neg : Bool) (mag : Nat) (x : Int) :
    f.gridRound m neg mag (0 + x) x = (mag, 0) := by
  simp only [Fmt.gridRound, hf, Int.zero_add, inUnits_self, roundQ_exact m neg mag Nat.one_pos]

theorem unsigned_signed (w : Nat) {c : Nat} (h : c < 2 ^ w) :
    unsigned w (if decide (signed w c < 0) = true then -((signed w c).natAbs : Int) else (signed w c).natAbs) = c := by
  have habs : (if decide (signed w c < 0) = true then -((signed w c).natAbs : Int) else (signed w c).natAbs) = signed w c := by
    simp only [decide_eq_true_eq]
    split <;> omega
  rw [habs, unsigned, signed, Nat.mod_eq_of_lt h]
  split
  · rw [Int.emod_eq_of_lt (by omega) (by omega)]
    omega
  · rw [Int.sub_emod_right, Int.emod_eq_of_lt (by omega) (by omega)]
    omega

/-- Every code of a narrow format is a zero, an invalid element, or represents its value (R55). -/
theorem Fmt.represents_of_valid {f : Fmt} {c : Nat} (hf : f.narrow = true) (hc : c < 2 ^ f.bits) (hbad : (decNarrow f c).bad = none)
    (hz : (decNarrow f c).v.isZero = false) : ∃ neg mag e, f.Represents c neg mag e := by
  cases f with
  | t2 =>
    have hcases : c = 0 ∨ c = 1 ∨ c = 2 ∨ c = 3 := by
      simp only [Fmt.bits] at hc
      omega
    obtain rfl | rfl | rfl | rfl := hcases
    · simp [decNarrow, Num.isZero, Num.zero] at hz
    · exact ⟨false, 1, 0, rfl, 0, fun m x => Fmt.gridRound_integer rfl m _ _ x, rfl⟩
    · simp [decNarrow] at hbad
    · exact ⟨true, 1, 0, rfl, 0, fun m x => Fmt.gridRound_integer rfl m _ _ x, rfl⟩
  | int4 => exact ⟨_, _, 0, rfl, 0, fun m x => Fmt.gridRound_integer rfl m _ _ x, unsigned_signed 4 hc⟩
  | int8 => exact ⟨_, _, 0, rfl, 0, fun m x => Fmt.gridRound_integer rfl m _ _ x, unsigned_signed 8 hc⟩
  | e2m1 =>
    have hsign := b2n_bitOf_top (n := c) (k := 3) hc
    simp only [Fmt.bits] at hc
    by_cases h0 : c % 8 = 0
    · simp [decNarrow, h0, Num.isZero, Num.zero] at hz
    · refine ⟨_, Fmt.gridRound_float (neg := bitOf c 3) (ef := c / 2 % 4) (m := c % 2) rfl (by omega) (by simp [decNarrow, h0]) hz fun n ulp hn hp => ?_⟩
      simp only [narrowCode, if_neg hn, hp, hsign]
      omega
  | e4m3 =>
    have hsign := b2n_bitOf_top (n := c) (k := 7) hc
    simp only [Fmt.bits] at hc
    by_cases h0 : c % 128 = 0
    · simp [decNarrow, h0, Num.isZero, Num.zero] at hz
    by_cases h1 : c % 128 = 127
    · simp [decNarrow, h1] at hbad
    · refine ⟨_, Fmt.gridRound_float (neg := bitOf c 7) (ef := c / 8 % 16) (m := c % 8) rfl (by omega) (by simp [decNarrow, h0, h1]) hz fun n ulp hn hp => ?_⟩
      simp only [narrowCode, if_neg hn, hp, hsign]
      omega
  | e5m2 =>
    have hsign := b2n_bitOf_top (n := c) (k := 7) hc
    simp only [Fmt.bits] at hc
    by_cases h0 : c % 128 = 0
    · simp [decNarrow, h0, Num.isZero, Num.zero] at hz
    by_cases h1 : c / 4 % 32 = 31
    · simp [decNarrow, h0, h1] at hbad
    · refine ⟨_, Fmt.gridRound_float (neg := bitOf c 7) (ef := c / 4 % 32) (m := c % 4) rfl (by omega) (by simp [decNarrow, h0, h1]) hz fun n ulp hn hp => ?_⟩
      simp only [narrowCode, if_neg hn, hp, hsign]
      omega
  | e8m7 => cases hf
  | m16 => cases hf
  | int32 => cases hf

theorem Num.eq_fin_zero_of_isZero {v : Num} (h : v.isZero = true) : ∃ n e, v = .fin n 0 e := by
  unfold Num.isZero at h
  split at h
  · exact ⟨_, _, rfl⟩
  · cases h

/-- Settles O7: the rounded quotient, the round trip of a code that represents its value, and saturation. -/
theorem conversionRules : Obligations.ConversionRules := by
  refine ⟨fun neg q rem den u hlt => ⟨roundQ_rne neg q rem den, roundQ_sr neg u q rem den, fun m => roundQ_exact m neg q (by omega)⟩, ?_,
    fun f m neg mag e x hmag hlt => convNarrow_of_lt m neg hmag hlt⟩
  intro f m c x hf hc hbad hle
  by_cases hz : (decNarrow f c).v.isZero = true
  · obtain ⟨n, e, hv⟩ := Num.eq_fin_zero_of_isZero hz
    rw [if_pos hz, hv, Num.shift, convNarrow_zero]
  · rw [if_neg hz]
    obtain ⟨neg, mag, e, hdec, ulp, hround, hcode⟩ := Fmt.represents_of_valid hf hc hbad (Bool.eq_false_of_not_eq_true hz)
    have hmag : mag ≠ 0 := by
      rintro rfl
      exact hz (by rw [hdec]; rfl)
    rw [hdec, Num.shift, convNarrow_of_le m neg hmag (by rw [dyLe_shift, hle _ _ _ hdec]), hround, hcode]
    simp [hmag, b2n]

/-! ### Raw partials (R90, R92) -/

theorem partRaw_of_inRange {a : Int} (h : -accMax ≤ a ∧ a ≤ accMax) : partRaw a = unsigned 32 a := if_neg (by omega)

theorem signed_unsigned {a : Int} (h : -accMax ≤ a ∧ a ≤ accMax) : signed 32 (unsigned 32 a) = a := by
  unfold accMax at h
  unfold signed unsigned
  omega

theorem unsigned_ne_rawMark {a : Int} (h : -accMax ≤ a ∧ a ≤ accMax) : unsigned 32 a ≠ rawMark := by
  unfold accMax at h
  unfold unsigned rawMark
  omega

theorem rawAdd_partRaw {a b : Int} (ha : -accMax ≤ a ∧ a ≤ accMax) (hb : -accMax ≤ b ∧ b ≤ accMax) :
    rawAdd (partRaw a) (partRaw b) = partRaw (a + b) := by
  rw [partRaw_of_inRange ha, partRaw_of_inRange hb]
  unfold rawAdd partRaw
  simp only [signed_unsigned ha, signed_unsigned hb, unsigned_ne_rawMark ha, unsigned_ne_rawMark hb, false_or]

theorem rawAdd_mark_left (b : Nat) : rawAdd rawMark b = rawMark := by simp [rawAdd]

theorem rawAdd_mark_right (a : Nat) : rawAdd a rawMark = rawMark := by simp [rawAdd]

/-- Settles O9: codes of sums in the range are their two's-complement codes, and the mark is no such code. -/
theorem rawPartialsAddExactly : Obligations.RawPartialsAddExactly := by
  intro a b ha ha' hb hb'
  refine ⟨rawAdd_partRaw ⟨ha, ha'⟩ ⟨hb, hb'⟩, ?_, rawAdd_mark_left _, rawAdd_mark_right _⟩
  rw [partRaw_of_inRange ⟨ha, ha'⟩, signed_unsigned ⟨ha, ha'⟩]

end Sys2Proof.Machine
end

section
/-! Registers: reading the die blocks, and the writes of R358 to R366. -/

namespace Sys2Proof.Machine

/-! ### Reading a die block (R374, R379) -/

theorem State.readRaw_die (s : State) (d : Fin 8) {o : Nat} (h4 : o % 4 = 0) (ho : o < 0x200000) (hstage : s.mgt.stage ≠ .recovery)
    (hd : s.populated d = true) : s.readRaw 0 (0x100000 + d.val * 0x200000 + o) = s.readDie d o := by
  have hdie : (0x100000 + d.val * 0x200000 + o - 0x100000) / 0x200000 = d.val := by omega
  have hoff : (0x100000 + d.val * 0x200000 + o - 0x100000) % 0x200000 = o := by omega
  have hfin : fin8 d.val = d := Fin.ofNat_val_eq_self d
  unfold State.readRaw
  rw [if_neg (by omega), if_pos rfl, if_neg (by omega), if_neg (by omega), if_neg hstage, if_neg (by omega), if_neg (by omega),
    if_neg (by omega), if_neg (by omega), if_neg (by omega), hdie, hoff, if_pos ⟨by omega, by omega, hd⟩, hfin]

theorem State.readDie_trw (s : State) (d : Fin 8) {o : Nat} (ho : o < 0x10000) :
    s.readDie d o = s.dies[d].trw.read (16384 - s.dies[d].entriesUsed) o := if_pos ho

theorem State.readDie_pnl (s : State) (d : Fin 8) (p : Fin 104) {o : Nat} (ho : o < 0x400) :
    s.readDie d (0x40000 + p.val * 0x400 + o) = s.readPnl d p o := by
  have hp : (0x40000 + p.val * 0x400 + o - 0x40000) / 0x400 = p.val := by omega
  have hoff : (0x40000 + p.val * 0x400 + o - 0x40000) % 0x400 = o := by omega
  unfold State.readDie
  rw [if_neg (by omega), if_neg (by omega), if_neg (by omega), if_neg (by omega), if_pos (by omega), hp, hoff, Fin.ofNat_val_eq_self]

theorem State.readDie_stk (s : State) (d : Fin 8) (i : Fin 12) {o : Nat} (ho : o < 0x2000) :
    s.readDie d (0x80000 + i.val * 0x2000 + o) = s.readStk d i o := by
  have hi : (0x80000 + i.val * 0x2000 + o - 0x80000) / 0x2000 = i.val := by omega
  have hoff : (0x80000 + i.val * 0x2000 + o - 0x80000) % 0x2000 = o := by omega
  unfold State.readDie
  rw [if_neg (by omega), if_neg (by omega), if_neg (by omega), if_neg (by omega), if_neg (by omega), if_pos (by omega), hi, hoff,
    Fin.ofNat_val_eq_self]

theorem State.readDie_scr (s : State) (d : Fin 8) (q : Fin 2) {o : Nat} (ho : o < 0x4000) :
    s.readDie d (0xC0000 + q.val * 0x4000 + o) = s.readScr d q o := by
  have hq : (0xC0000 + q.val * 0x4000 + o - 0xC0000) / 0x4000 = q.val := by omega
  have hoff : (0xC0000 + q.val * 0x4000 + o - 0xC0000) % 0x4000 = o := by omega
  unfold State.readDie
  rw [if_neg (by omega), if_neg (by omega), if_neg (by omega), if_neg (by omega), if_neg (by omega), if_neg (by omega), if_pos (by omega),
    hq, hoff, Fin.ofNat_val_eq_self]

theorem State.readDie_d2d (s : State) (d : Fin 8) (e : Fin 3) {o : Nat} (ho : o < 0x100) :
    s.readDie d (0xE0000 + e.val * 0x100 + o) = s.readD2d d e o := by
  have he : (0xE0000 + e.val * 0x100 + o - 0xE0000) / 0x100 = e.val := by omega
  have hoff : (0xE0000 + e.val * 0x100 + o - 0xE0000) % 0x100 = o := by omega
  unfold State.readDie
  rw [if_neg (by omega), if_neg (by omega), if_neg (by omega), if_neg (by omega), if_neg (by omega), if_neg (by omega), if_neg (by omega),
    if_pos (by omega), he, hoff, Fin.ofNat_val_eq_self]

/-! ### The reset state -/

theorem State.reset_die (d : Fin 8) : State.reset.dies[d] = Die.reset := Vector.getElem_replicate ..

theorem State.reset_panel (d : Fin 8) (p : Fin 104) : State.reset.panel d p = Panel.reset := by
  rw [State.panel, State.reset_die]
  exact Vector.getElem_replicate ..

theorem State.reset_stack (d : Fin 8) (i : Fin 12) : State.reset.stack d i = Stack.reset := by
  rw [State.stack, State.reset_die]
  exact Vector.getElem_replicate ..

theorem State.reset_port (d : Fin 8) (q : Fin 2) : State.reset.port d q = Port.reset := by
  rw [State.port, State.reset_die]
  exact Vector.getElem_replicate ..

theorem Die.reset_entriesUsed : Die.reset.entriesUsed = 0 := by decide

theorem State.reset_populated (d : Fin 8) : State.reset.populated d = true := decide_eq_true d.isLt

theorem State.reset_readRaw_die (d : Fin 8) {o : Nat} (h4 : o % 4 = 0) (ho : o < 0x200000) :
    State.reset.readRaw 0 (0x100000 + d.val * 0x200000 + o) = State.reset.readDie d o :=
  State.readRaw_die _ d h4 ho (by decide) (State.reset_populated d)

theorem State.reset_edgePresent : ∀ d : Fin 8, State.reset.edgePresent d 0 = true := by decide

/-- Settles O6: each register is read in its block, whose parts have their reset values. -/
theorem registersAtReset : Obligations.RegistersAtReset := by
  intro d i q p
  have htrw : ∀ o, o % 4 = 0 → o < 0x10000 → State.reset.readRaw 0 (0x100000 + d.val * 0x200000 + o) = Trowel.reset.read 16384 o := by
    intro o h4 ho
    rw [State.reset_readRaw_die d h4 (by omega), State.readDie_trw _ d ho, State.reset_die, Die.reset_entriesUsed]
    rfl
  have hpnl : ∀ o, o % 4 = 0 → o < 0x400 → State.reset.readRaw 0 (0x100000 + d.val * 0x200000 + (0x40000 + p.val * 0x400 + o)) =
      State.reset.readPnl d p o := by
    intro o h4 ho
    rw [State.reset_readRaw_die d (by omega) (by omega), State.readDie_pnl _ d p ho]
  have hstk : ∀ o, o % 4 = 0 → o < 0x2000 → State.reset.readRaw 0 (0x100000 + d.val * 0x200000 + (0x80000 + i.val * 0x2000 + o)) =
      State.reset.readStk d i o := by
    intro o h4 ho
    rw [State.reset_readRaw_die d (by omega) (by omega), State.readDie_stk _ d i ho]
  have hscr : ∀ o, o % 4 = 0 → o < 0x4000 → State.reset.readRaw 0 (0x100000 + d.val * 0x200000 + (0xC0000 + q.val * 0x4000 + o)) =
      State.reset.readScr d q o := by
    intro o h4 ho
    rw [State.reset_readRaw_die d (by omega) (by omega), State.readDie_scr _ d q ho]
  have hd2d : State.reset.readRaw 0 (0x100000 + d.val * 0x200000 + (0xE0000 + 0x4)) = State.reset.readD2d d 0 4 := by
    rw [State.reset_readRaw_die d (by omega) (by omega)]
    exact State.readDie_d2d _ d 0 (by decide)
  refine ⟨htrw 0x10 rfl (by decide), htrw 0x14 rfl (by decide), htrw 0x18 rfl (by decide), htrw 0x30 rfl (by decide),
    htrw 0x34 rfl (by decide), (hstk 0x4 rfl (by decide)).trans ?_, (hstk 0x10 rfl (by decide)).trans ?_,
    (hpnl 0x110 rfl (by decide)).trans ?_, hd2d.trans ?_, (hscr 0 rfl (by decide)).trans ?_, (hscr 4 rfl (by decide)).trans ?_,
    (hscr 8 rfl (by decide)).trans ?_, (hscr 0xC rfl (by decide)).trans ?_⟩
  · rfl
  · simp only [State.readStk, State.reset_stack]
    rfl
  · simp only [State.readPnl, State.reset_panel]
    rfl
  · simp only [State.readD2d, State.reset_die, State.reset_edgePresent]
    rfl
  all_goals
    simp only [State.readScr, State.reset_port]
    rfl

end Sys2Proof.Machine
end

section
/-! Register writes: the access rules, locks, guarded pairs, latched reads, interrupt status and buffered registers (R358 to R366). -/

namespace Sys2Proof.Machine

/-! ### What a recorded write and a broken guard leave -/

/-- Raising a vector of function 0 sets a cause bit of the management block (R366). -/
theorem State.raise_zero_mgt (s : State) (i : Nat) : (s.raise 0 i).mgt = { s.mgt with intSts := s.mgt.intSts ||| (1 <<< i) } := by
  unfold State.raise
  rw [if_pos rfl]
  dsimp only
  split <;> rfl

theorem State.raise_mgt_of_ne_zero (s : State) {fn : Nat} (i : Nat) (h : fn ≠ 0) : (s.raise fn i).mgt = s.mgt := by
  unfold State.raise
  rw [if_neg h]
  dsimp only
  split <;> rfl

/-- The word of MGT_ACC_VIOL: kind, function and offset (R359). -/
def violationWord (kind fn off : Nat) : Word := BitVec.ofNat 32 (kind * 2 ^ 29 + fn % 16 * 2 ^ 25 + off % 2 ^ 25)

/-- Recording a discarded write: the word and the count, and the vectors (R359). -/
theorem State.violation_eq (s : State) (kind fn off : Nat) : s.violation kind fn off =
    if fn = 0 then (s.modMgt fun m => { m with accViol := violationWord kind fn off, accCnt := m.accCnt.satAdd 1 }).raise 0 2
    else ((s.modMgt fun m => { m with accViol := violationWord kind fn off, accCnt := m.accCnt.satAdd 1 }).raise 0 2).raise fn 3 := rfl

theorem State.violation_mgt (s : State) (kind fn off : Nat) : (s.violation kind fn off).mgt =
    { s.mgt with accViol := violationWord kind fn off, accCnt := s.mgt.accCnt.satAdd 1, intSts := s.mgt.intSts ||| (1 <<< 2) } := by
  rw [State.violation_eq]
  by_cases h : fn = 0
  · rw [if_pos h, State.raise_zero_mgt, State.modMgt_mgt]
  · rw [if_neg h, State.raise_mgt_of_ne_zero _ 3 h, State.raise_zero_mgt, State.modMgt_mgt]

@[simp] theorem State.violation_clk (s : State) (kind fn off : Nat) : (s.violation kind fn off).clk = s.clk := by
  rw [State.violation_eq]
  split
  · rw [State.raise_clk, State.modMgt_clk]
  · rw [State.raise_clk, State.raise_clk, State.modMgt_clk]

@[simp] theorem State.violation_power (s : State) (kind fn off : Nat) : (s.violation kind fn off).power = s.power := by
  rw [State.violation_eq]
  split
  · rw [State.raise_power, State.modMgt_power]
  · rw [State.raise_power, State.raise_power, State.modMgt_power]

@[simp] theorem State.violation_hlt (s : State) (kind fn off : Nat) : (s.violation kind fn off).hlt = s.hlt := by
  rw [State.violation_eq]
  split
  · rw [State.raise_hlt, State.modMgt_hlt]
  · rw [State.raise_hlt, State.raise_hlt, State.modMgt_hlt]

/-! ### The block that a write reaches (R373) -/

theorem State.writeReg_module (s : State) {off : Nat} (v : Word) (hlo : 0x20000 ≤ off) (hhi : off < 0x100000)
    (hsome : (s.readRaw 0 off).isSome = true) : s.writeReg 0 off v = s.writeModule off v := by
  have hnone : (s.readRaw 0 off).isNone = false := by rw [← Option.not_isSome, hsome]; rfl
  simp only [State.writeReg, Fin.val_zero, show ¬off < 0x10000 by omega, show ¬off < 0x20000 by omega, show off ≠ 0x40 by omega,
    show off ≠ 0x44 by omega, hnone, hhi, Bool.false_eq_true, false_and, and_false, if_false, if_true, ne_eq, not_true_eq_false]

theorem State.writeReg_die (s : State) (d : Fin 8) {o : Nat} (v : Word) (ho : o < 0x200000)
    (hsome : (s.readRaw 0 (0x100000 + d.val * 0x200000 + o)).isSome = true) :
    s.writeReg 0 (0x100000 + d.val * 0x200000 + o) v = s.writeDie d o (0x100000 + d.val * 0x200000 + o) v := by
  have hnone : (s.readRaw 0 (0x100000 + d.val * 0x200000 + o)).isNone = false := by rw [← Option.not_isSome, hsome]; rfl
  have hdie : (0x100000 + d.val * 0x200000 + o - 0x100000) / 0x200000 = d.val := by omega
  have hoff : (0x100000 + d.val * 0x200000 + o - 0x100000) % 0x200000 = o := by omega
  have hfin : fin8 d.val = d := Fin.ofNat_val_eq_self d
  generalize hx : 0x100000 + d.val * 0x200000 + o = x at *
  simp only [State.writeReg, Fin.val_zero, show ¬x < 0x10000 by omega, show ¬x < 0x20000 by omega, show ¬x < 0x100000 by omega,
    show x ≠ 0x40 by omega, show x ≠ 0x44 by omega, hnone, Bool.false_eq_true, false_and, and_false, if_false, ne_eq, not_true_eq_false, hdie, hoff, hfin]

theorem State.writeReg_sfn (s : State) {fn : Fin 9} {off : Nat} (v : Word) (hfn : fn.val ≠ 0) (hsome : (s.readRaw fn off).isSome = true) :
    s.writeReg fn off v = s.writeSfn (fin8 (fn.val - 1)) off v := by
  have hnone : (s.readRaw fn off).isNone = false := by rw [← Option.not_isSome, hsome]; rfl
  simp only [State.writeReg, hfn, false_and, if_false, hnone, Bool.false_eq_true, ne_eq, not_false_eq_true, if_true]

/-! ### Odd and locked writes -/

/-- TCLK_CAP, PWR_CAP and HLT_CTRL are read in every stage but RECOVERY. -/
theorem State.readRaw_lockable (s : State) {off : Nat} (h : s.mgt.stage ≠ .recovery) (hoff : off ∈ [0x30004, 0x40004, 0x50004]) :
    (s.readRaw 0 off).isSome = true := by
  simp only [List.mem_cons, List.not_mem_nil, or_false] at hoff
  obtain rfl | rfl | rfl := hoff <;> simp [State.readRaw, h, State.readClk, State.readPwr, State.readHlt]

theorem State.writeModule_locked (s : State) {off : Nat} (v : Word) (hlock : s.mgt.lock = true) (hoff : off ∈ [0x30004, 0x40004, 0x50004]) :
    s.writeModule off v = s.violation 3 0 off := by
  simp only [List.mem_cons, List.not_mem_nil, or_false] at hoff
  obtain rfl | rfl | rfl := hoff <;> simp only [State.writeModule, hlock, if_true]

theorem execRegisterWrite_of_aligned (fn : Fin 9) {off : Nat} (v : Word) (s : State) (h : off % 4 = 0) :
    execRegisterWrite fn off 4 0xF v s = .next (s.writeReg fn off v) := if_pos ⟨rfl, h, rfl⟩

theorem execRegisterWrite_lockable {off : Nat} (v : Word) {s : State} (h : s.mgt.stage ≠ .recovery)
    (hoff : off ∈ [0x30004, 0x40004, 0x50004]) : execRegisterWrite 0 off 4 0xF v s = .next (s.writeModule off v) := by
  have hsome := s.readRaw_lockable h hoff
  simp only [List.mem_cons, List.not_mem_nil, or_false] at hoff
  rw [execRegisterWrite_of_aligned 0 v s (by omega), State.writeReg_module s v (by omega) (by omega) hsome]

/-- Settles O10: the kind 0 record, the kind 3 record of a locked register, and the value of an unlocked one. -/
theorem oddAndLockedWrites : Obligations.OddAndLockedWrites := by
  refine ⟨fun fn off size be v s hodd => ?_, fun off v s t hlock hstage hoff hexec => ?_, fun v s hlock hstage => ?_⟩
  · show execRegisterWrite fn off size be v s = _
    rw [execRegisterWrite, if_neg hodd]
    simp only [State.violation_eq, violationWord, Nat.zero_mul, Nat.zero_add]
  · have ht := (execRegisterWrite_lockable v hstage hoff).symm.trans hexec
    rw [State.writeModule_locked s v hlock hoff] at ht
    cases ht
    simp only [List.mem_cons, List.not_mem_nil, or_false] at hoff
    refine ⟨State.violation_clk .., State.violation_power .., State.violation_hlt .., ?_, ?_⟩
    · rw [State.violation_mgt]
      exact hlock
    · rw [State.violation_mgt]
      simp only [violationWord]
      congr 1
      omega
  · refine ⟨(execRegisterWrite_lockable v hstage (by simp)).trans ?_, (execRegisterWrite_lockable v hstage (by simp)).trans ?_,
      (execRegisterWrite_lockable v hstage (by simp)).trans ?_⟩ <;> simp [State.writeModule, hlock]

/-! ### Guarded pairs (R363, R364) -/

theorem State.writeReg_lock (s : State) (v : Word) : s.writeReg 0 0x40 v = s.guardFirst v := by
  simp [State.writeReg, State.readRaw, State.readMgt]

theorem State.writeReg_lockN (s : State) (v : Word) : s.writeReg 0 0x44 v = s.guardSecond v := by
  simp [State.writeReg, State.readRaw, State.readMgt]

/-- The state in which the first half of a pair is pending, broken or not. -/
def State.holding (s : State) (v : Word) (broken : Bool) : State := s.modMgt fun m => { m with guard := some (s.clk.time, v, broken) }

theorem State.guardFirst_of_none {s : State} (v : Word) (h : s.mgt.guard = none) : s.guardFirst v = s.holding v false := by
  simp only [State.guardFirst, h]
  rfl

/-- Between its two halves another request, or too long a gap, breaks the pair. -/
theorem execGuardedWrite_of_none (v : Word) (off2 : Nat) (w : Word) (gap : Nat) (other : Bool) {s : State} (h : s.mgt.guard = none) :
    execGuardedWrite 0x40 v off2 w gap other s = .next ((s.holding v (other || decide (256 < gap))).writeReg 0 off2 w) := by
  simp only [execGuardedWrite, State.writeReg_lock, State.guardFirst_of_none v h]
  cases other || decide (256 < gap) <;> rfl

/-- A second write to X discards both (R363). -/
theorem State.holding_guardFirst (s : State) (v w : Word) (broken : Bool) :
    (s.holding v broken).guardFirst w = ((s.holding v broken).modMgt fun m => { m with guard := none }).violation 5 0 0x40 := by
  have hwin : ¬s.clk.time + guardWindow < s.clk.time := by omega
  simp only [State.guardFirst, State.holding, State.modMgt_mgt, State.modMgt_clk]
  exact if_neg hwin

theorem State.holding_guardSecond (s : State) (v w : Word) (broken : Bool) : (s.holding v broken).guardSecond w =
    if !broken && w == ~~~v then s.modMgt fun m => { m with lock := m.lock || v.getLsbD 0, guard := none }
    else ((s.holding v broken).modMgt fun m => { m with guard := none }).violation 5 0 0x44 := by
  have hwin : s.clk.time ≤ s.clk.time + guardWindow := by omega
  simp only [State.guardSecond, State.holding, State.modMgt_mgt, State.modMgt_clk, hwin, decide_true, Bool.and_true]
  rfl

/-- What a discarded pair leaves: the lock, a free guard, and one record of kind 5. -/
theorem State.holding_discarded (s : State) (v : Word) (broken : Bool) {off : Nat} (hoff : off < 2 ^ 25) :
    let t := ((s.holding v broken).modMgt fun m => { m with guard := none }).violation 5 0 off
    t.mgt.lock = s.mgt.lock ∧ t.mgt.guard = none ∧ t.mgt.accCnt = s.mgt.accCnt.satAdd 1 ∧ t.mgt.accViol = BitVec.ofNat 32 (5 * 2 ^ 29 + off) := by
  intro t
  have hword : violationWord 5 0 off = BitVec.ofNat 32 (5 * 2 ^ 29 + off) := by
    rw [violationWord, Nat.mod_eq_of_lt hoff]
    rfl
  simp only [t, State.violation_mgt]
  exact ⟨rfl, rfl, rfl, hword⟩

/-- Settles O11: the second write finds the first half pending, broken or not. -/
theorem guardedPairs : Obligations.GuardedPairs := by
  refine ⟨fun v gap s hnone hgap => ?_, fun v w gap other off2 s t hnone hcase hexec => ?_, fun t0 v broken s hsome hlate => ?_⟩
  · refine (execGuardedWrite_of_none v 0x44 (~~~v) gap false hnone).trans ?_
    rw [State.writeReg_lockN, State.holding_guardSecond, if_pos (by simp [hgap])]
  · have ht := (execGuardedWrite_of_none v off2 w gap other hnone).symm.trans hexec
    obtain rfl | ⟨rfl, hbad⟩ := hcase
    · rw [State.writeReg_lock, State.holding_guardFirst] at ht
      cases ht
      exact s.holding_discarded v _ (by decide)
    · have hfails : ¬(!(other || decide (256 < gap)) && w == ~~~v) = true := by
        obtain hw | rfl | hgap := hbad <;> simp_all
      rw [State.writeReg_lockN, State.holding_guardSecond, if_neg hfails] at ht
      cases ht
      exact s.holding_discarded v _ (by decide)
  · show execGuardWindowExpiry s = _
    simp only [execGuardWindowExpiry, hsome, if_pos hlate]

/-! ### Latched reads and interrupt status (R47, R366) -/

theorem execLatchedReadLo_of_pair {fn : Fin 9} {off : Nat} {w : Word} {s : State} (hpair : latchPair fn off = true)
    (hmgt : ¬(fn.val = 0 ∧ off < 0x10000)) (hw : s.readRaw fn (off + 4) = some w) : execLatchedReadLo fn off s = .next { s with
      latch := (fn.val, off + 4, w) :: s.latch.filter fun (x : Nat × Nat × Word) => !(x.1 == fn.val && x.2.1 == off + 4) } := by
  simp only [execLatchedReadLo, if_neg hmgt, hpair, if_true, hw]

theorem execIntStatusClear_zero (v : Word) (s : State) : execIntStatusClear 0 v s = .next (s.breakGuard.clearInt 0 v) := by
  simp [execIntStatusClear, State.writeReg, State.readRaw, State.readMgt, State.writeMgt]

theorem State.clearInt_zero (s : State) (v : Word) : s.clearInt 0 v =
    if s.doe[0].ready then (s.modMgt fun m => { m with intSts := m.intSts &&& ~~~v }).raise 0 3
    else s.modMgt fun m => { m with intSts := m.intSts &&& ~~~v } := by
  simp only [State.clearInt, State.persistent, if_true]
  split <;> rfl

theorem getLsbD_clear_bit (x v : Word) (i : Nat) : (x &&& ~~~v).getLsbD i = (x.getLsbD i && !v.getLsbD i) := by
  by_cases hi : i < 32
  · simp [hi]
  · simp [BitVec.getLsbD_of_ge x i (by omega)]

/-- Clearing function 0's cause bits: each bit, and what stays. -/
theorem State.clearInt_zero_spec (s : State) (v : Word) :
    (∀ i : Nat, i ≠ 3 → (s.clearInt 0 v).mgt.intSts.getLsbD i = (s.mgt.intSts.getLsbD i && !v.getLsbD i)) ∧
      (s.clearInt 0 v).mgt.intSts.getLsbD 3 = ((s.mgt.intSts.getLsbD 3 && !v.getLsbD 3) || s.doe[0].ready) := by
  rw [State.clearInt_zero]
  split
  case isTrue hready =>
    simp only [State.raise_zero_mgt, State.modMgt_mgt, BitVec.getLsbD_or, getLsbD_clear_bit, hready]
    refine ⟨fun i hi => ?_, by simp⟩
    have hbit : (1#32 <<< 3).getLsbD i = false := by
      rw [BitVec.getLsbD_shiftLeft, BitVec.getLsbD_one]
      simp
      omega
    exact (congrArg _ hbit).trans (Bool.or_false _)
  case isFalse hready =>
    simp only [State.modMgt_mgt, getLsbD_clear_bit]
    exact ⟨fun _ _ => trivial, by simp [hready]⟩

/-- Clearing function 0's cause bits touches the management registers and the messages only. -/
theorem State.clearInt_zero_frame (s : State) (v : Word) :
    ({ s.clearInt 0 v with msix := s.msix, mgt := s.mgt } : State) = s := by
  rw [State.clearInt_zero]
  unfold State.raise
  dsimp only
  repeat' split
  all_goals first | rfl | contradiction

theorem State.writeSfn_intSts (s : State) {k : Fin 8} (v : Word) (h : s.sfnAbsent k = false) :
    s.writeSfn k 0x500 v = s.clearInt (k.val + 1) v := by
  simp [State.writeSfn, h, Suite.setStopped]

/-- Settles O12: the latched word, and the clears of function 0 and of a suite function. -/
theorem latchedReadsAndInterruptClear : Obligations.LatchedReadsAndInterruptClear := by
  refine ⟨fun fn off w s hpair hmgt hw => ?_, fun fn v s => ⟨fun hfn => ?_, fun hfn habsent hsome => ?_⟩⟩
  · exact ⟨_, execLatchedReadLo_of_pair hpair hmgt hw, by simp [State.latched], rfl⟩
  · obtain rfl : fn = 0 := Fin.ext hfn
    obtain ⟨hbits, hdoe⟩ := s.breakGuard.clearInt_zero_spec v
    have hframe := s.breakGuard.clearInt_zero_frame v
    exact ⟨_, execIntStatusClear_zero v s, hbits, hdoe, congrArg (fun u : State => { u with mgt := s.mgt }) hframe⟩
  · have hk : (fin8 (fn.val - 1)).val + 1 = fn.val := by
      have := fn.isLt
      simp only [fin8, Fin.val_ofNat]
      omega
    show execIntStatusClear fn v s = _
    rw [execIntStatusClear, if_neg hfn, State.writeReg_sfn s v hfn hsome, State.writeSfn_intSts s v habsent, hk]

/-! ### Buffered registers (R362) -/

theorem lastPend_append (pend : List (Nat × Word)) (o : Nat) (v mask now : Word) : lastPend (pend ++ [(o, v)]) mask now = v &&& mask := by
  simp [lastPend]

theorem State.modDie_modDie (s : State) (d : Fin 8) (f g : Die → Die) : (s.modDie d f).modDie d g = s.modDie d (g ∘ f) := by
  simp [State.modDie]

theorem State.modStack_modStack (s : State) (d : Fin 8) (i : Fin 12) (f g : Stack → Stack) :
    (s.modStack d i f).modStack d i g = s.modStack d i (g ∘ f) := by
  simp [State.modStack, State.modDie_modDie, Function.comp_def]

theorem State.modPort_modPort (s : State) (d : Fin 8) (q : Fin 2) (f g : Port → Port) :
    (s.modPort d q f).modPort d q g = s.modPort d q (g ∘ f) := by
  simp [State.modPort, State.modDie_modDie, Function.comp_def]

theorem State.modEdge_modEdge (s : State) (d : Fin 8) (e : Fin 3) (f g : Edge → Edge) :
    (s.modEdge d e f).modEdge d e g = s.modEdge d e (g ∘ f) := by
  simp [State.modEdge, State.modDie_modDie, Function.comp_def]

/-- A write to STK_ARB is held (R362). -/
theorem State.writeDie_stkArb (s : State) (d : Fin 8) (i : Fin 12) (off : Nat) (v : Word) :
    s.writeDie d (0x80000 + i.val * 0x2000 + 0x10) off v = s.modStack d i fun x => { x with pend := x.pend ++ [(0x10, v)] } := by
  have hi : (0x80000 + i.val * 0x2000 + 0x10 - 0x80000) / 0x2000 = i.val := by omega
  have hoff : (0x80000 + i.val * 0x2000 + 0x10) % 0x2000 = 0x10 := by omega
  unfold State.writeDie
  rw [if_neg (by omega), if_neg (by omega), if_neg (by omega), if_neg (by omega), if_pos (by omega), hi, hoff, Fin.ofNat_val_eq_self]
  rfl

/-- Settles O13: the write to a stack's register is held, and each block's boundary takes the last value held. -/
theorem bufferedWritesTakeEffectTogether : Obligations.BufferedWritesTakeEffectTogether := by
  intro s d i e q v
  refine ⟨fun off hsome hoff => ?_, ?_, ?_, ?_, fun hwaits => congrArg _ (if_neg (by simp [hwaits]))⟩
  · have hsum : off = 0x100000 + d.val * 0x200000 + (0x80000 + i.val * 0x2000 + 0x10) := by omega
    subst hsum
    show execRwbWrite _ _ _ _ = _
    rw [execRwbWrite, State.writeReg_die s d v (by omega) hsome, State.writeDie_stkArb]
  · simp only [exec, execRwbApply, State.modStack_modStack, Function.comp_def, lastPend_append]
  · simp only [exec, execRwbApply, State.modEdge_modEdge, Function.comp_def, lastPend_append]
  · simp only [exec, execRwbApply, State.modPort_modPort, Function.comp_def, lastPend_append]

end Sys2Proof.Machine
end

section
/-! The life of a task: fetch, dispatch, start, completion, watchdog, barriers and the MARK modes (R27 to R46, R52). -/

namespace Sys2Proof.Machine

/-! ### Commands that name a task -/

theorem State.onRunning_of_has {s : State} {k : Fin 8} {h : Nat} {t : Task} (ht : s.Has k h .running t) (f : Task → State) :
    s.onRunning k h f = f t := by
  simp only [State.onRunning, ht.1, ht.2, if_true]

theorem State.Runs.has {s : State} {k : Fin 8} {h type mode : Nat} {t : Task} (ht : s.Runs k h type mode t) : s.Has k h .running t :=
  ⟨ht.1, ht.2.1⟩

theorem State.Runs.type {s : State} {k : Fin 8} {h type mode : Nat} {t : Task} (ht : s.Runs k h type mode t) : t.desc.type = type := ht.2.2.1

theorem State.Runs.mode {s : State} {k : Fin 8} {h type mode : Nat} {t : Task} (ht : s.Runs k h type mode t) : t.desc.mode = mode := ht.2.2.2

/-- A command that names a started task of its TYPE and MODE runs its effect on the suite's view. -/
theorem State.runTask_of_runs {s : State} {k : Fin 8} {h type mode : Nat} {t : Task} (ht : s.Runs k h type mode t)
    (f : State → Task → State) : s.runTask k h type mode f = s.merge k (f (s.view k) t) := by
  rw [State.runTask, State.onRunning_of_has ht.has, if_pos ⟨ht.type, ht.mode⟩]
  rfl

/-! ### Adding a task to a suite -/

/-- A task is appended under the next handle; only its sequence in a group is chosen there. -/
theorem Suite.addTask_spec (u : Suite) (t : Task) : ∃ n g, u.addTask t =
    { u with groupSeq := g, tasks := u.tasks ++ [{ t with seq := n }], nextH := u.nextH + 1 } := by
  unfold Suite.addTask
  dsimp only
  split
  · exact ⟨_, _, rfl⟩
  · exact ⟨_, _, rfl⟩

/-! ### Queues and resets -/

theorem State.writeSfn_cqHead (s : State) {k : Fin 8} (v : Word) (h : s.sfnAbsent k = false) :
    s.writeSfn k 0x10C v = s.modSuite k fun x => { x with cq := { x.cq with head := v.toNat } } := by
  simp [State.writeSfn, h, Suite.setStopped]

theorem execDmaTimeout_task {s : State} {k : Fin 8} {h : Nat} {t : Task} (ht : s.Has k h .running t)
    (hop : (t.desc.type = 3 ∧ t.desc.mode = 4) ∨ (t.desc.type = 10 ∧ t.desc.mode = 3)) :
    execDmaTimeout (.task k h) s = .next (s.stopTask k t .timeout) := by
  simp only [execDmaTimeout, State.onRunning_of_has ht, if_pos hop]

/-- The fetch whose read is not answered takes its entry as a task that is to complete TIMEOUT (R357). -/
theorem execDmaTimeout_fetch {s : State} {k : Fin 8} {q : Fin 4} (hco : (s.coordinator k).isSome = true) (hst : s.suites[k].st = .running)
    (herr : s.suites[k].sq[q].err = false) (hfn : s.suites[k].sq[q].fn.st ≠ .stopped) (hlen : ringLen s.suites[k].sq[q].size ≠ 0)
    (hne : s.suites[k].sq[q].head ≠ s.suites[k].sq[q].tail) :
    execDmaTimeout (.fetch k q) s = .next (s.drawFree.2.modSuite k fun w =>
      ({ w with sq := w.sq.set q { s.suites[k].sq[q] with head := (s.suites[k].sq[q].head + 1) % ringLen s.suites[k].sq[q].size } }).addTask
        (lostTask s.suites[k].nextH q s.clk.time (Config.freeBits 32 s.drawFree.1).toNat)) := by
  have hsome : (s.coordinator k).isNone = false := by rw [← Option.not_isSome, hco]; rfl
  simp only [execDmaTimeout, hsome, hst, herr, beq_eq_false_iff_ne.mpr hfn, beq_eq_false_iff_ne.mpr hlen, beq_eq_false_iff_ne.mpr hne]
  rfl

/-- Settles O15: each write and each ended operation by its own law. -/
theorem hostWritesAndResets : Obligations.HostWritesAndResets := by
  refine ⟨fun k v s habsent => ?_, fun k s => ⟨rfl, fun hrec => ?_⟩, fun k h q t s => ⟨fun hrun => ?_, fun hbusy hnone => ?_, ?_⟩⟩
  · show execCqHeadWrite k v s = _
    rw [execCqHeadWrite, State.writeSfn_cqHead s v habsent]
  · exact if_neg (by rw [hrec]; exact Bool.false_ne_true)
  · obtain hrun | hrun := hrun
    · exact execDmaTimeout_task hrun.has (.inl ⟨hrun.type, hrun.mode⟩)
    · exact execDmaTimeout_task hrun.has (.inr ⟨hrun.type, hrun.mode⟩)
  · have hlost : (s.mbx.busy && s.mbx.outcome.isNone) = true := by rw [hbusy, hnone]; rfl
    exact congrArg Host.Outcome.next (if_pos hlost)
  · intro hco hst herr hfn hlen hne
    obtain ⟨n, g, hadd⟩ := Suite.addTask_spec
      { s.suites[k] with sq := s.suites[k].sq.set q { s.suites[k].sq[q] with head := (s.suites[k].sq[q].head + 1) % ringLen s.suites[k].sq[q].size } }
      (lostTask s.suites[k].nextH q s.clk.time (Config.freeBits 32 s.drawFree.1).toNat)
    refine ⟨_, { lostTask s.suites[k].nextH q s.clk.time (Config.freeBits 32 s.drawFree.1).toNat with seq := n },
      execDmaTimeout_fetch hco hst herr hfn hlen hne, ?_, rfl, rfl, rfl, ?_, rfl, rfl⟩
    · rw [State.modSuite_self]
      exact congrArg (·.tasks) hadd
    · rw [State.modSuite_self]
      refine (congrArg (fun u : Suite => u.sq[q].head) hadd).trans ?_
      simp

/-! ### Fetching (R27, R28, R30, R34) -/

theorem State.notIdle_of_fetches {s : State} {k : Fin 8} (hco : (s.coordinator k).isSome = true)
    (hst : s.suites[k].st = SuiteState.running ∨ s.suites[k].st = SuiteState.draining) :
    ((s.coordinator k).isNone || !(s.suites[k].st == SuiteState.running || s.suites[k].st == SuiteState.draining)) = false := by
  have hsome : (s.coordinator k).isNone = false := by rw [← Option.not_isSome, hco]; rfl
  obtain hst | hst := hst <;> rw [hsome, hst] <;> rfl

theorem execTaskFetch_queue {s : State} {k : Fin 8} {q : Fin 4} {bytes : List Byte} (hco : (s.coordinator k).isSome = true)
    (hst : s.suites[k].st = SuiteState.running ∨ s.suites[k].st = SuiteState.draining) (herr : s.suites[k].sq[q].err = false)
    (hfn : s.suites[k].sq[q].fn.st ≠ .stopped) (hlen : ringLen s.suites[k].sq[q].size ≠ 0)
    (hne : s.suites[k].sq[q].head ≠ s.suites[k].sq[q].tail) (hbytes : bytes.length = 128) :
    execTaskFetch k (.queue q bytes) s = .next (s.modSuite k fun v =>
      ({ v with sq := v.sq.set q { s.suites[k].sq[q] with head := (s.suites[k].sq[q].head + 1) % ringLen s.suites[k].sq[q].size },
                clean := false }).addTask
        (newTask s.suites[k].nextH (parseTask bytes) q false
          (if taskRejected (dieMaskOf (s.suiteDies k)) bytes then .formatError
           else if s.suites[k].sq[q].fn.st ≠ RunState.running ∨ s.suites[k].st ≠ SuiteState.running then .disabled else .done) s.clk.time)) := by
  have htake : (bytes ++ List.replicate 128 0).take 128 = bytes := by rw [← hbytes]; exact List.take_left
  simp only [execTaskFetch, State.notIdle_of_fetches hco hst, herr, beq_eq_false_iff_ne.mpr hfn, beq_eq_false_iff_ne.mpr hlen,
    beq_eq_false_iff_ne.mpr hne, htake]
  rfl

/-- The program's next task, in memory that is not poisoned: the run moves on, and only the stack and the checkpoints change beside it. -/
theorem execTaskFetch_program {s : State} {k : Fin 8} {r : Run} (hco : (s.coordinator k).isSome = true)
    (hst : s.suites[k].st = SuiteState.running ∨ s.suites[k].st = SuiteState.draining) (hrun : s.suites[k].run = some r) (hsteps : r.steps ≠ 0)
    (hended : r.ended = 0) (hpc : r.pc < r.count) (hpois : s.poisonIn (64 * r.prog + 128 * r.pc) 128 = false) :
    ∃ ended seg ids ast mine deferred frame, execTaskFetch k .program s = .next (s.modSuite k fun v =>
      ({ v with run := some { r with pc := r.pc + 1, ended := ended }, recompute := seg, ckpts := ids, ast := ast }).addTask
        { newTask s.suites[k].nextH (parseTask (s.bytes (64 * r.prog + 128 * r.pc) 128)) 0 true
            (if taskRejected (dieMaskOf (s.suiteDies k)) (s.bytes (64 * r.prog + 128 * r.pc) 128) then .formatError else .done) s.clk.time with
          recompute := mine, deferred := deferred, frame := frame }) := by
  have hgo : ¬(r.steps = 0 ∨ r.ended ≠ 0 ∨ r.count ≤ r.pc) := by
    rintro (h | h | h)
    · exact hsteps h
    · exact h hended
    · omega
  simp only [execTaskFetch, State.notIdle_of_fetches hco hst, hrun, if_neg hgo, hpois]
  exact ⟨_, _, _, _, _, _, _, rfl⟩

/-- Settles O16: the entry of a queue, and the program's next task. -/
theorem taskFetchRules : Obligations.TaskFetchRules := by
  refine ⟨fun k q bytes s hco hst herr hfn hlen hne hbytes => execTaskFetch_queue hco hst herr hfn hlen hne hbytes, ?_⟩
  intro k r s hco hst hrun hsteps hended hpc hpois
  obtain ⟨ended, seg, ids, ast, mine, deferred, frame, hexec⟩ := execTaskFetch_program hco hst hrun hsteps hended hpc hpois
  let fetched : Task :=
    { newTask s.suites[k].nextH (parseTask (s.bytes (64 * r.prog + 128 * r.pc) 128)) 0 true
        (if taskRejected (dieMaskOf (s.suiteDies k)) (s.bytes (64 * r.prog + 128 * r.pc) 128) then .formatError else .done) s.clk.time with
      recompute := mine, deferred := deferred, frame := frame }
  obtain ⟨n, g, hadd⟩ := Suite.addTask_spec
    { s.suites[k] with run := some { r with pc := r.pc + 1, ended := ended }, recompute := seg, ckpts := ids, ast := ast } fetched
  refine ⟨_, { fetched with seq := n }, hexec, ?_, rfl, rfl, rfl, rfl, ?_, ?_, ?_, rfl, rfl⟩
  · rw [State.modSuite_self]
    exact congrArg (·.tasks) hadd
  · show (if taskRejected _ _ then Status.formatError else .done) = .formatError ↔ _
    split <;> simp_all
  · rw [State.modSuite_self]
    exact congrArg (fun u : Suite => u.run.map (·.pc)) hadd
  · rw [State.modSuite_self]
    exact congrArg (·.sq) hadd

/-! ### Dispatch and sync waits (R28, R34, R37, R39) -/

theorem State.mayDispatch_of_full {s : State} {k : Fin 8} (t : Task) (h : s.suites[k].cq.room = false) : s.mayDispatch k t = false := by
  simp only [State.mayDispatch, h, Bool.false_and]

theorem execTaskDispatch_of_full {s : State} {k : Fin 8} (h : Nat) (hfull : s.suites[k].cq.room = false) :
    execTaskDispatch k h s = .next s := by
  unfold execTaskDispatch
  split
  · rfl
  · rw [if_pos (by simp [State.mayDispatch_of_full _ hfull])]

/-- Settles O17: the branches of a dispatch, of a wait that ends, and of a full ring. -/
theorem taskDispatchAndSync : Obligations.TaskDispatchAndSync := by
  refine ⟨fun k h t s ⟨htask, hst⟩ hmay => ?_, fun k h t s ⟨htask, hst⟩ => ?_, fun k h t s hfull => ?_⟩
  · refine ⟨fun st href => ?_, fun href => ?_⟩
    · show execTaskDispatch k h s = _
      simp only [execTaskDispatch, htask, hst, hmay, href]
      rfl
    · show execTaskDispatch k h s = _
      simp only [execTaskDispatch, htask, hst, hmay, href]
      rfl
  · refine ⟨fun hgoes => ?_, fun hprog hsuite => ?_⟩
    · have hkept : (!t.program && s.suites[k].st != .running) = false := by
        obtain h | h := hgoes
        · rw [h]; rfl
        · rw [h, bne_self_eq_false, Bool.and_false]
      refine ⟨fun hmay => ?_, fun hmay => ?_⟩
      · show execSyncWaitSatisfied k h s = _
        simp only [execSyncWaitSatisfied, htask, hst, hkept, hmay]
        rfl
      · show execSyncWaitSatisfied k h s = _
        simp only [execSyncWaitSatisfied, htask, hst, hkept, hmay]
        rfl
    · show execSyncWaitSatisfied k h s = _
      simp only [execSyncWaitSatisfied, htask, hst, hprog, bne_iff_ne.mpr hsuite]
      rfl
  · exact ⟨execTaskDispatch_of_full h hfull, fun hrun => congrArg Host.Outcome.next (State.runTask_of_runs hrun _)⟩

/-! ### Watchdog and timeout (R46) -/

/-- Settles O19: the limits of the trowel and of the descriptor. -/
theorem watchdogAndTimeout : Obligations.WatchdogAndTimeout := by
  intro k h id t s htask
  refine ⟨fun hwaits hlimit hlogged hlate hshorter => ?_, fun htimeout hlate => ⟨fun hst htype => ?_, fun hother hwaits => ?_⟩⟩
  · show execWatchdog k h s = _
    have hpast : ¬(s.dies[t.die0].trw.wdog.toNat % 2 ^ 24 = 0 ∨ t.wdLogged = true ∨
        s.clk.time ≤ t.waitFrom + 16384 * (s.dies[t.die0].trw.wdog.toNat % 2 ^ 24) ∨
        (t.desc.timeout ≠ 0 ∧ t.desc.timeout < s.dies[t.die0].trw.wdog.toNat % 2 ^ 24)) := by
      rintro (h | h | h | h)
      · exact hlimit h
      · simp [hlogged] at h
      · omega
      · exact hshorter h
    simp only [execWatchdog, htask, hwaits, if_neg hpast]
  all_goals
    have hpast : ¬(t.desc.timeout = 0 ∨ s.clk.time ≤ t.waitFrom + 16384 * t.desc.timeout) := by
      rintro (h | h)
      · exact htimeout h
      · omega
  · show execTaskTimeout k h s = _
    simp only [execTaskTimeout, htask, if_neg hpast, if_pos (And.intro hst htype)]
  · show execTaskTimeout k h s = _
    simp only [execTaskTimeout, htask, if_neg hpast, if_neg hother, hwaits]

/-! ### Barriers, runs and steps (R33 to R35, R45, R189) -/

theorem execBarrier_of_arrival {k d : Fin 8} {h : Nat} {t : Task} {s : State} (ht : s.Has k h .running t) (htype : t.desc.type = 8)
    (hmask : t.desc.dieMask.getLsbD d = true) (harr : t.arrived.getLsbD d = false) (hlive : s.dies[d].inService = true) :
    let b := s.suites[k].barrier? (t.desc.arg 0 2)
    let count := if b.1 = 0 then t.desc.arg 4 4 else b.1
    let s1 := (s.modTask k h fun x => { x with arrived := x.arrived ||| (1 <<< d.val) }).modSuite k fun u =>
      u.setBarrier (t.desc.arg 0 2) count (b.2 + 1)
    execBarrier k h d s = .next ((if count < b.2 + 1 then s1.worsen k h .formatError else s1).barrierDone k (t.desc.arg 0 2)) := by
  simp only [execBarrier, State.onRunning_of_has ht, htype, hmask, harr, hlive]
  rfl

/-- RUN of a program that a queue names, while none runs. -/
theorem execMarkRun_of_idle {k : Fin 8} {h : Nat} {t : Task} {s : State} (ht : s.Runs k h 10 0 t) (hnone : s.suites[k].run = none) :
    execMarkRun k h s = .next (
      if t.program then s.finish k h .formatError
      else if !(s.suites[k].programs.any fun p => p.addr == t.desc.arg 0 5 && p.count == t.desc.arg 5 4 && p.intact) then
        s.finish k h .accessDenied
      else
        let s1 := s.modSuite k fun v => { v with ctrs := [], lastTable := some (t.desc.arg 0 5, t.desc.arg 5 4, t.desc.arg 9 5),
                                                 tensSet := (s.programTensors (t.desc.arg 0 5) (t.desc.arg 5 4)).eraseDups }
        if t.desc.arg 14 4 = 0 then s1.finish k h .done
        else
          let s2 := s1.modSuite k fun v =>
            { v with run := some (Run.mk h (t.desc.arg 0 5) (t.desc.arg 5 4) (t.desc.arg 9 5) (t.desc.arg 14 4) 0 0) }
          if s.suites[k].forceNext then s2.forceDefer k s.suites[k].step else s2) := by
  simp only [execMarkRun, State.onRunning_of_has ht.has, ht.type, ht.mode, hnone]
  rfl

theorem execMarkCheckpoint_of_runs {k : Fin 8} {h : Nat} {t : Task} {s : State} (ht : s.Runs k h 10 2 t) :
    let id := t.desc.arg 0 4
    let seg := if t.program then (s.suites[k].recompute, s.suites[k].ckpts, t.recompute) else segmentAfter s.suites[k] t.desc false
    let s1 := s.modSuite k fun u => { u with recompute := seg.1, ckpts := seg.2.1 }
    execMarkCheckpoint k h s = .next (if seg.2.2 = false ∧ id ∉ seg.2.1 then s1.finish k h .formatError
      else (s1.suiteEvent k 0x145 0xFF 0
        (pack [(4, id), (4, t.desc.taskId), (1, b2n seg.2.2), (3, 0), (4, s.suites[k].step.toNat)])).finish k h .done) := by
  intro id seg s1
  have hcond : (!seg.2.2 && !seg.2.1.contains id) = true ↔ (seg.2.2 = false ∧ id ∉ seg.2.1) := by simp
  have hbody : execMarkCheckpoint k h s = .next (if (!seg.2.2 && !seg.2.1.contains id) = true then s1.finish k h .formatError
      else (s1.suiteEvent k 0x145 0xFF 0
        (pack [(4, id), (4, t.desc.taskId), (1, b2n seg.2.2), (3, 0), (4, s.suites[k].step.toNat)])).finish k h .done) := by
    simp only [execMarkCheckpoint, State.onRunning_of_has ht.has, ht.type, ht.mode]
    rfl
  rw [hbody]
  simp only [hcond]

/-- Settles O20: an arrival, a RUN by what it names, a STEP_END and a CHECKPOINT. -/
theorem barriersRunsAndSteps : Obligations.BarriersRunsAndSteps := by
  refine ⟨fun k d h t s ht htype hmask harr hlive => execBarrier_of_arrival ht htype hmask harr hlive, fun k h t s hrun hnone => ?_,
    fun k d h t s => ⟨fun hrun hmask => ?_, fun hrun => execMarkCheckpoint_of_runs hrun⟩⟩
  · have hexec := execMarkRun_of_idle hrun hnone
    refine ⟨fun hprog => hexec.trans ?_, fun hprog hload => hexec.trans ?_, fun hprog hload hsteps => hexec.trans ?_,
      fun hprog hload hsteps => hexec.trans ?_⟩
    · rw [if_pos hprog]
    · simp only [hprog, hload]
      rfl
    · simp only [hprog, hload, if_pos hsteps]
      rfl
    · simp only [hprog, hload, if_neg hsteps]
      rfl
  · show execMarkStepEnd k h d s = _
    simp only [execMarkStepEnd, State.onRunning_of_has hrun.has, hrun.type, hrun.mode, hmask]
    rfl

/-! ### Completion (R37 to R40, R89, R177, R184) -/

/-- What the work before a task's record leaves alone: host memory, the clock, and the suite's sync counters and completion queue. -/
structure State.RecordFrame (k : Fin 8) (s t : State) : Prop where
  host : t.host = s.host
  clk : t.clk = s.clk
  ctrs : t.suites[k].ctrs = s.suites[k].ctrs
  cq : t.suites[k].cq = s.suites[k].cq

namespace State.RecordFrame

variable {k : Fin 8} {s t u : State}

theorem refl (s : State) : RecordFrame k s s := ⟨rfl, rfl, rfl, rfl⟩

theorem trans (h : RecordFrame k s t) (h' : RecordFrame k t u) : RecordFrame k s u :=
  ⟨h'.host.trans h.host, h'.clk.trans h.clk, h'.ctrs.trans h.ctrs, h'.cq.trans h.cq⟩

theorem modDie (d : Fin 8) (f : Die → Die) : RecordFrame k s (s.modDie d f) := ⟨rfl, rfl, rfl, rfl⟩

theorem foldl {β : Type} {f : State → β → State} (hf : ∀ t x, RecordFrame k t (f t x)) (l : List β) (s : State) :
    RecordFrame k s (l.foldl f s) := by
  induction l generalizing s with
  | nil => exact refl s
  | cons x xs ih => exact (hf s x).trans (ih (f s x))

theorem modSuite (f : Suite → Suite) (hctrs : ∀ x, (f x).ctrs = x.ctrs) (hcq : ∀ x, (f x).cq = x.cq) : RecordFrame k s (s.modSuite k f) :=
  ⟨rfl, rfl, by rw [State.modSuite_self, hctrs], by rw [State.modSuite_self, hcq]⟩

theorem confine {f : State → State} (hf : ∀ t, RecordFrame k t (f t)) : RecordFrame k s (s.confine k f) :=
  ⟨(hf (s.view k)).host, (hf (s.view k)).clk, (hf (s.view k)).ctrs, (hf (s.view k)).cq⟩

theorem raise (fn i : Nat) : RecordFrame k s (s.raise fn i) := by
  obtain ⟨w, hw⟩ := s.raise_suite fn i k
  exact ⟨by simp, by simp, by rw [hw], by rw [hw]⟩

theorem suiteEvent (c d n : Nat) (b : List Byte) : RecordFrame k s (s.suiteEvent k c d n b) :=
  (modSuite (fun u => { u with log := u.log.add 8192 s.clk.time c d n b }) (fun _ => rfl) fun _ => rfl).trans (raise (k.val + 1) 1)

theorem write (a : Nat) (bs : List Byte) : RecordFrame k s (s.write a bs) :=
  ⟨rfl, rfl, by simp [State.write], by simp [State.write]⟩

theorem freeBytes (n : Nat) : RecordFrame k s (s.freeBytes n).2 := by
  induction n generalizing s with
  | zero => exact refl s
  | succ n ih => exact (⟨rfl, rfl, rfl, rfl⟩ : RecordFrame k s s.drawFree.2).trans ih

theorem poisonRange (a n : Nat) : RecordFrame k s (s.poisonRange a n) := by
  unfold State.poisonRange
  split
  · exact refl s
  · exact foldl (fun t i => (⟨rfl, rfl, rfl, rfl⟩ : RecordFrame k t (t.poisonLine (a / 64 + i)))) _ s

theorem freeScaleSlot (a : Nat) : RecordFrame k s (s.freeScaleSlot a) := ((freeBytes 113).trans (write _ _)).trans (write _ _)

theorem freeSkimSlot (a : Nat) : RecordFrame k s (s.freeSkimSlot a) := ((freeBytes 94).trans (write _ _)).trans (write _ _)

theorem scaleSlotWrite (a n : Nat) : RecordFrame k s (s.scaleSlotWrite k a n) := by
  unfold State.scaleSlotWrite
  dsimp only
  split
  · exact refl s
  · exact (confine (foldl (fun _ _ => freeScaleSlot _) _)).trans (modSuite _ (fun _ => rfl) fun _ => rfl)

theorem skimSlotWrite (a n : Nat) : RecordFrame k s (s.skimSlotWrite k a n) := by
  unfold State.skimSlotWrite
  dsimp only
  split
  · exact refl s
  · exact (confine (foldl (fun _ _ => freeSkimSlot _) _)).trans (modSuite _ (fun _ => rfl) fun _ => rfl)

theorem poisonOutputs (t : Task) : RecordFrame k s (s.poisonOutputs k t) :=
  confine fun u => foldl (fun _ _ => poisonRange _ _) _ u

theorem closeSat (h : Nat) : RecordFrame k s (s.closeSat k h) := by
  unfold State.closeSat
  split
  · exact refl s
  · exact (foldl (fun _ _ => suiteEvent _ _ _ _) _ s).trans (modSuite _ (fun _ => rfl) fun _ => rfl)

theorem countPairs (t : Task) : RecordFrame k s (s.countPairs t) := by
  unfold State.countPairs
  split
  · exact refl s
  · exact foldl (fun _ _ => modDie _ _) _ s

theorem slotTouch (t : Task) : RecordFrame k s (s.slotTouch k t) := by
  unfold State.slotTouch
  dsimp only
  split
  · exact refl s
  · refine foldl (fun v r => ?_) _ s
    have hscale : RecordFrame k v (if t.desc.type = 9 then v else v.scaleSlotWrite k (64 * r.1) (64 * r.2)) := by
      split
      · exact refl v
      · exact scaleSlotWrite _ _
    split
    · exact hscale
    · exact hscale.trans (skimSlotWrite _ _)

end State.RecordFrame

/-- What completing a task does before its signal. -/
def State.closeTask (s : State) (k : Fin 8) (h : Nat) (t : Task) : State :=
  (((if t.status = .aborted then s.poisonOutputs k t else s).closeSat k h).countPairs t).slotTouch k t

theorem State.closeTask_recordFrame (s : State) (k : Fin 8) (h : Nat) (t : Task) : RecordFrame k s (s.closeTask k h t) := by
  have hpoison : RecordFrame k s (if t.status = .aborted then s.poisonOutputs k t else s) := by
    split
    · exact .poisonOutputs t
    · exact .refl s
  exact ((hpoison.trans (.closeSat h)).trans (.countPairs t)).trans (.slotTouch t)

/-- A task that is completed leaves its suite, and gives up its slot and its stack frame (R38, R184). -/
def Suite.completed (u : Suite) (h : Nat) (reserved : Bool) : Suite :=
  { u with tasks := u.tasks.filter fun x => x.h != h, ast := u.ast.release h, extremes := u.extremes.filter fun x => x.h != h,
           cq := { u.cq with reserved := u.cq.reserved - b2n reserved } }

/-- The state of a completing task before its record. -/
def State.signalled (s : State) (k : Fin 8) (h : Nat) (t : Task) : State :=
  (((s.closeTask k h t).signal k t.desc).dropTiles k h).modSuite k fun u => u.completed h t.reserved

theorem execTaskComplete_of_finished {s : State} {k : Fin 8} {h : Nat} {t : Task} (ht : s.Has k h .finished t)
    (hslot : t.reserved = true ∨ t.needsRecord = false ∨ s.suites[k].cq.room = true) :
    execTaskComplete k h s = .next (if t.needsRecord then (s.signalled k h t).writeRecord k t else s.signalled k h t) := by
  obtain ⟨htask, hst⟩ := ht
  have hgo : ¬(t.state ≠ .finished ∨ (t.needsRecord && !t.reserved && !s.suites[k].cq.room) = true) := by
    rintro (hst' | hno)
    · exact hst' hst
    · obtain h | h | h := hslot
      all_goals
        rw [h] at hno
        simp at hno
  simp only [execTaskComplete, State.completeTask, htask, if_neg hgo]
  rfl

theorem Suite.completed_find (u : Suite) (h : Nat) (reserved : Bool) : (u.completed h reserved).tasks.find? (fun t => t.h == h) = none := by
  simp [Suite.completed]

theorem State.signal_self (s : State) (k : Fin 8) (d : TaskDesc) : (s.signal k d).suites[k] =
    { s.suites[k] with ctrs := if d.signalCtr < 1024 then sput 0 s.suites[k].ctrs d.signalCtr (s.suites[k].ctr d.signalCtr + d.signalInc)
                                else s.suites[k].ctrs } := by
  unfold State.signal
  split
  · rw [State.modSuite_self]
  · rfl

theorem State.signal_host (s : State) (k : Fin 8) (d : TaskDesc) : (s.signal k d).host = s.host := by
  unfold State.signal
  split <;> rfl

theorem State.signal_clk (s : State) (k : Fin 8) (d : TaskDesc) : (s.signal k d).clk = s.clk := by
  unfold State.signal
  split <;> rfl

theorem State.signalled_suite (s : State) (k : Fin 8) (h : Nat) (t : Task) :
    (s.signalled k h t).suites[k] = Suite.completed ((s.closeTask k h t).signal k t.desc).suites[k] h t.reserved :=
  State.modSuite_self _ _ _

theorem State.signalled_host (s : State) (k : Fin 8) (h : Nat) (t : Task) : (s.signalled k h t).host = s.host :=
  (State.signal_host _ k t.desc).trans (s.closeTask_recordFrame k h t).host

theorem State.signalled_clk (s : State) (k : Fin 8) (h : Nat) (t : Task) : (s.signalled k h t).clk = s.clk :=
  (State.signal_clk _ k t.desc).trans (s.closeTask_recordFrame k h t).clk

theorem State.signalled_task (s : State) (k : Fin 8) (h : Nat) (t : Task) : (s.signalled k h t).task? k h = none := by
  rw [State.task?, State.signalled_suite, Suite.completed_find]

theorem State.signalled_ctrs (s : State) (k : Fin 8) (h : Nat) (t : Task) : (s.signalled k h t).suites[k].ctrs =
    if t.desc.signalCtr < 1024 then sput 0 s.suites[k].ctrs t.desc.signalCtr (s.suites[k].ctr t.desc.signalCtr + t.desc.signalInc)
    else s.suites[k].ctrs := by
  rw [State.signalled_suite, State.signal_self]
  simp only [Suite.completed, Suite.ctr, (s.closeTask_recordFrame k h t).ctrs]

theorem State.signalled_cq (s : State) (k : Fin 8) (h : Nat) (t : Task) : (s.signalled k h t).suites[k].cq =
    { s.suites[k].cq with reserved := s.suites[k].cq.reserved - b2n t.reserved } := by
  rw [State.signalled_suite, State.signal_self]
  simp only [Suite.completed, (s.closeTask_recordFrame k h t).cq]

/-- What a record leaves of its suite: all but the cause bits and the ring, whose tail moves on. -/
theorem State.writeRecord_suite (s : State) (k : Fin 8) (t : Task) : ∃ w ring, (s.writeRecord k t).suites[k] =
    { s.suites[k] with intSts := w, cq := ring } ∧ ring.tail = (s.suites[k].cq.tail + 1) % ringLen s.suites[k].cq.size := by
  obtain ⟨w, hw⟩ := State.raise_suite ((s.hostWrite (s.suites[k].cq.base.toNat / 16 * 16 + 16 * s.suites[k].cq.tail)
    (completionRecord t s.suites[k].cq.wraps s.clk.time)).modSuite k fun u => { u with cq := { u.cq with
      tail := (s.suites[k].cq.tail + 1) % ringLen s.suites[k].cq.size,
      wraps := if s.suites[k].cq.tail + 1 = ringLen s.suites[k].cq.size then s.suites[k].cq.wraps + 1 else s.suites[k].cq.wraps } }) (k.val + 1) 0 k
  rw [State.modSuite_self] at hw
  exact ⟨w, _, hw, rfl⟩

theorem State.writeRecord_task (s : State) (k : Fin 8) (t : Task) (h : Nat) : (s.writeRecord k t).task? k h = s.task? k h := by
  obtain ⟨w, ring, hsuite, -⟩ := s.writeRecord_suite k t
  rw [State.task?, hsuite]
  rfl

theorem State.writeRecord_ctrs (s : State) (k : Fin 8) (t : Task) : (s.writeRecord k t).suites[k].ctrs = s.suites[k].ctrs := by
  obtain ⟨w, ring, hsuite, -⟩ := s.writeRecord_suite k t
  rw [hsuite]

theorem State.writeRecord_tail (s : State) (k : Fin 8) (t : Task) :
    (s.writeRecord k t).suites[k].cq.tail = (s.suites[k].cq.tail + 1) % ringLen s.suites[k].cq.size := by
  obtain ⟨w, ring, hsuite, htail⟩ := s.writeRecord_suite k t
  rw [hsuite, ← htail]

theorem State.writeRecord_host (s : State) (k : Fin 8) (t : Task) : (s.writeRecord k t).host =
    memPut s.host (s.suites[k].cq.base.toNat / 16 * 16 + 16 * s.suites[k].cq.tail) (completionRecord t s.suites[k].cq.wraps s.clk.time) :=
  State.raise_host _ _ _

theorem State.writeRecord_clk (s : State) (k : Fin 8) (t : Task) : (s.writeRecord k t).clk = s.clk := by
  simp only [State.writeRecord, State.raise_clk, State.modSuite_clk]
  rfl

/-- Settles O18: the steps of a completion, and what they leave of the ring, the counters and host memory. -/
theorem taskCompletion : Obligations.TaskCompletion := by
  refine ⟨fun k h t s ht hslot => execTaskComplete_of_finished ht hslot, fun k h t s ht hres =>
    ⟨_, execTaskComplete_of_finished ht (.inl hres), ?_⟩⟩
  cases hrec : t.needsRecord
  · exact ⟨s.signalled_task k h t, s.signalled_ctrs k h t, fun hno => absurd hno Bool.false_ne_true,
      fun _ => ⟨s.signalled_host k h t, congrArg (·.tail) (s.signalled_cq k h t)⟩, s.signalled_clk k h t⟩
  · refine ⟨(State.writeRecord_task _ k t h).trans (s.signalled_task k h t), (State.writeRecord_ctrs _ k t).trans (s.signalled_ctrs k h t),
      fun _ => ⟨?_, ?_⟩, fun hno => absurd hno.symm Bool.false_ne_true, (State.writeRecord_clk _ k t).trans (s.signalled_clk k h t)⟩
    · refine (State.writeRecord_host _ k t).trans ?_
      rw [s.signalled_host, s.signalled_cq, s.signalled_clk]
    · refine (State.writeRecord_tail _ k t).trans ?_
      rw [s.signalled_cq]

end Sys2Proof.Machine
end

section
/-! The functions that drain: disable, enable, the end of a drain and its limit (R52, R54, R365). -/

namespace Sys2Proof.Machine

theorem State.disable_of_running {s : State} {f : FuncId} {x : FnState} (hf : s.fnOf f = some x) (hrun : x.st = .running) :
    let s1 := (s.setFn f (x.disable s.clk.time)).drainStarts f
    s.disable f = if s1.drainLimit f = 0 ∧ s1.inFlight f = true then s1.drainTimeout f else s1 := by
  have hgo : ¬x.st ≠ .running := fun h => h hrun
  simp only [State.disable, hf, if_neg hgo]

theorem execDisableFunction_of_allowed {s : State} {f : FuncId} (h : s.fnRefused f = none) :
    execDisableFunction f s = .next (s.disable f) := by
  simp only [execDisableFunction, h]

theorem execEnableFunction_of_allowed {s : State} {f : FuncId} (h : s.fnRefused f = none) :
    execEnableFunction f s = .next (s.enable f) := by
  simp only [execEnableFunction, h]

/-- Functions of the kinds that no rule holds back leave STOPPED at once (R54). -/
theorem State.enable_of_plain {s : State} {f : FuncId} {x : FnState} (hf : s.fnOf f = some x) (hsuite : ∀ k, f ≠ .suite k)
    (hpanel : ∀ d p, f ≠ .panel d p) (hport : ∀ d q, f ≠ .port d q) : s.enable f = s.setFn f x.enable := by
  unfold State.enable
  rw [hf]
  cases f with
  | suite k => exact absurd rfl (hsuite k)
  | panel d p => exact absurd rfl (hpanel d p)
  | port d q => exact absurd rfl (hport d q)
  | queue k q => rfl
  | skim d => rfl
  | update d i => rfl
  | mask d => rfl

theorem State.enable_suite {s : State} {k : Fin 8} {x : FnState} (hf : s.fnOf (.suite k) = some x) : s.enable (.suite k) =
    if x.st = .stopped ∧ s.suiteHeld k then s.violation 6 (fnLoc (.suite k)).1 (fnLoc (.suite k)).2 else s.setFn (.suite k) x.enable := by
  simp only [State.enable, hf]

theorem State.enable_panel {s : State} {d : Fin 8} {p : Fin 104} {x : FnState} (hf : s.fnOf (.panel d p) = some x) :
    s.enable (.panel d p) =
      if (s.panel d p).role ≠ .enabled then s.violation 6 (fnLoc (.panel d p)).1 (fnLoc (.panel d p)).2
      else if x.st = .stopped then s.resetPanel d p fun y => { y with fn := x.enable } else s.setFn (.panel d p) x.enable := by
  simp only [State.enable, hf]

theorem State.enable_port {s : State} {d : Fin 8} {q : Fin 2} {x : FnState} (hf : s.fnOf (.port d q) = some x) :
    s.enable (.port d q) = (s.setFn (.port d q) x.enable).startPort d q := by
  simp only [State.enable, hf]

theorem execDrainComplete_of_idle {s : State} {f : FuncId} {x : FnState} (hf : s.fnOf f = some x) (hst : x.st = .draining)
    (hidle : s.inFlight f = false) : execDrainComplete f s = .next (s.drained f) := by
  simp only [execDrainComplete, hf, hst, hidle]
  rfl

theorem execDrainTimeout_of_late {s : State} {f : FuncId} {x : FnState} (hf : s.fnOf f = some x) (hst : x.st = .draining)
    (hbusy : s.inFlight f = true) (hlate : x.since + s.drainLimit f ≤ s.clk.time) : execDrainTimeout f s = .next (s.drainTimeout f) := by
  simp only [execDrainTimeout, hf, if_pos (And.intro hst (And.intro hbusy hlate))]

theorem State.refused_writes {s : State} {f : FuncId} {kind : Nat} (h : s.fnRefused f = some kind) :
    execDisableFunction f s = .next (s.violation kind (fnLoc f).1 (fnLoc f).2) ∧
      execEnableFunction f s = .next (s.violation kind (fnLoc f).1 (fnLoc f).2) := by
  simp only [execDisableFunction, execEnableFunction, h, and_self]

/-- Settles O21: one law for each write of STATE and for each way a drain ends. -/
theorem functionsDrainAndRun : Obligations.FunctionsDrainAndRun := by
  refine fun f x s hf => ⟨fun hok hrun => ?_, fun hok hsuite hpanel hport => ?_, ?_, ?_, ?_, fun hst hidle => execDrainComplete_of_idle hf hst hidle,
    fun hst hbusy hlate => execDrainTimeout_of_late hf hst hbusy hlate, fun kind href => State.refused_writes href⟩
  · exact (execDisableFunction_of_allowed hok).trans (congrArg Host.Outcome.next (State.disable_of_running hf hrun))
  · exact (execEnableFunction_of_allowed hok).trans (congrArg Host.Outcome.next (State.enable_of_plain hf hsuite hpanel hport))
  · rintro hok k rfl
    exact (execEnableFunction_of_allowed hok).trans (congrArg Host.Outcome.next (State.enable_suite hf))
  · rintro hok d p rfl
    exact (execEnableFunction_of_allowed hok).trans (congrArg Host.Outcome.next (State.enable_panel hf))
  · rintro hok d q rfl
    exact (execEnableFunction_of_allowed hok).trans (congrArg Host.Outcome.next (State.enable_port hf))

end Sys2Proof.Machine
end

section
/-! Tasks that run on the panels, and the slot tasks of SKIM and SCALE (R79, R130 to R147, R150 to R164, R180 to R183, R243). -/

namespace Sys2Proof.Machine

/-! ### What the checks of a product lead to -/

theorem State.withProd_of_mayProduce {s : State} {k : Fin 8} {t : Task} {p : Prod} (h : s.MayProduce k t p) (f : State → Prod → State) :
    s.withProd k t f = f (s.prodStart k t p) p := by
  obtain ⟨hunder, hcheck, hbegin, hready⟩ := h
  simp only [State.withProd, hunder, hcheck, hbegin, hready]
  rfl

theorem State.withProd_of_underflow {s : State} {k : Fin 8} {t : Task} (h : s.underflow k t t.desc.panelReq = true) (f : State → Prod → State) :
    s.withProd k t f =
      (s.suiteEvent k 0x141 0xFF 0 (pack [(4, t.desc.taskId), (8, 0), (4, s.suites[k].step.toNat)])).finish k t.h .formatError := by
  simp only [State.withProd, h, if_true]

theorem State.withProd_of_refused {s : State} {k : Fin 8} {t : Task} {st : Status} (hunder : s.underflow k t t.desc.panelReq = false)
    (hcheck : s.panelCheck k t = .error st) (f : State → Prod → State) :
    s.withProd k t f = s.refuse k t (t.desc.panelReq.mode == 1) [t.desc.panelReq.a, t.desc.panelReq.mask, t.desc.panelReq.c] st := by
  simp only [State.withProd, hunder, hcheck]
  rfl

theorem State.withProd_of_badFrame {s : State} {k : Fin 8} {t : Task} {p : Prod} (hunder : s.underflow k t t.desc.panelReq = false)
    (hcheck : s.panelCheck k t = .ok p) (hbegin : (s.beginProd k t p).2 = false) (f : State → Prod → State) :
    s.withProd k t f = (s.beginProd k t p).1.finish k t.h .formatError := by
  simp only [State.withProd, hunder, hcheck, hbegin]
  rfl

theorem State.withProd_of_notReady {s : State} {k : Fin 8} {t : Task} {p : Prod} (hunder : s.underflow k t t.desc.panelReq = false)
    (hcheck : s.panelCheck k t = .ok p) (hbegin : (s.beginProd k t p).2 = true)
    (hready : (s.prodStart k t p).groupReady k t.h p p.groupTiles = false) (f : State → Prod → State) :
    s.withProd k t f = s.prodStart k t p := by
  simp only [State.withProd, hunder, hcheck, hbegin, hready]
  rfl

/-! ### Products -/

/-- The three commands of TYPE 0x1 have one effect. -/
theorem exec_product {c : Instr} {k : Fin 8} {h mode : Nat} {t : Task} {s : State}
    (hc : (c = .productPlain k h ∧ mode = 0) ∨ (c = .productTurned k h ∧ mode = 1) ∨ (c = .productSampled k h ∧ mode = 2))
    (hrun : s.Runs k h 1 mode t) : exec c s = .next (s.merge k ((s.view k).runProduct k t)) := by
  obtain ⟨rfl, rfl⟩ | ⟨rfl, rfl⟩ | ⟨rfl, rfl⟩ := hc
  all_goals exact congrArg Host.Outcome.next (State.runTask_of_runs hrun _)

theorem State.runProduct_of_mayProduce {s : State} {k : Fin 8} {t : Task} {p : Prod} (h : s.MayProduce k t p) : s.runProduct k t =
    if (s.prodStart k t p).streamWaits k p then s.prodStart k t p else ((s.prodStart k t p).prodDrain k t p).finish k t.h .done :=
  State.withProd_of_mayProduce h _

/-- Settles O22: a product that runs, waits for its APPLY or its grid group, or is refused. -/
theorem productTasks : Obligations.ProductTasks := by
  intro c k h mode t p st s hc hrun
  have hexec := exec_product hc hrun
  refine ⟨fun hmay hwaits => ?_, fun hmay hwaits => ?_, fun hunder hcheck hbegin hready => ?_, fun hunder hcheck hbegin => ?_,
    fun hunder hcheck => ?_, fun hunder => ?_⟩
  · rw [hexec, State.runProduct_of_mayProduce hmay, hwaits, if_neg Bool.false_ne_true]
  · rw [hexec, State.runProduct_of_mayProduce hmay, hwaits, if_pos rfl]
  · rw [hexec, State.runProduct, State.withProd_of_notReady hunder hcheck hbegin hready]
  · rw [hexec, State.runProduct, State.withProd_of_badFrame hunder hcheck hbegin]
  · rw [hexec, State.runProduct, State.withProd_of_refused hunder hcheck]
  · rw [hexec, State.runProduct, State.withProd_of_underflow hunder]

/-! ### SKIM PREDICT and FUSED -/

/-- The dies of a task whose skim controller runs (R168). -/
def State.skimDies (s : State) (t : Task) : List (Fin 8) := (maskDies t.desc.dieMask).filter fun d => s.dies[d].skm.fn.st == .running

/-- The state after the skim pass of a checked task, with the parts of the dies that do not skim DISABLED. -/
def State.skimmed (s u : State) (k : Fin 8) (t : Task) (p : Prod) : State :=
  let s1 := (u.modSuite k fun x => x.bind p.r.map (t.desc.arg 10 2)).skimPass k t p
  if (s.skimDies t).length < (maskDies t.desc.dieMask).length then s1.worsen k t.h .disabled else s1

theorem State.runSkim_of_off {s : State} {k : Fin 8} {t : Task} (hoff : s.skimDies t = []) : s.runSkim k t = s.finish k t.h .disabled := by
  have hempty : (s.skimDies t).isEmpty = true := by rw [hoff]; rfl
  exact if_pos hempty

/-- A checked skim task on at least one die that skims. -/
theorem State.runSkim_of_mayProduce {s : State} {k : Fin 8} {t : Task} {p : Prod} (hon : s.skimDies t ≠ []) (h : s.MayProduce k t p) :
    s.runSkim k t =
      if (s.prodStart k t p).suites[k].bindFull p.r.map then (s.prodStart k t p).finish k t.h .busy
      else if p.r.predict then ((s.skimmed (s.prodStart k t p) k t p).closeSat k t.h).finish k t.h .done
      else match (s.skimmed (s.prodStart k t p) k t p).task? k t.h with
        | none => s.skimmed (s.prodStart k t p) k t p
        | some t' => ((s.skimmed (s.prodStart k t p) k t p).prodDrain k t' p).finish k t.h .done := by
  have hne : ¬(s.skimDies t).isEmpty = true := by rwa [List.isEmpty_iff]
  exact (if_neg hne).trans (State.withProd_of_mayProduce h _)

/-! ### The slot tasks -/

section
variable {s : State} {k : Fin 8} {t : Task} {limit : Nat} {at_ : Nat → Nat} {ok : Bool} {area : Option Nat} {f : State → Nat → Nat → State}

theorem State.slotTask_of_fits (hok : ok = true) (hne : t.desc.arg 2 2 ≠ 0) (hfit : t.desc.arg 0 2 + t.desc.arg 2 2 ≤ limit) :
    s.slotTask k t limit at_ ok area f = s.slotsRun k t at_ area f := by
  have hin : ¬t.desc.arg 0 2 + t.desc.arg 2 2 > limit := by omega
  simp only [State.slotTask, hok, if_neg hne, if_neg hin]
  rfl

theorem State.slotTask_of_beyond (hne : t.desc.arg 2 2 ≠ 0) (hout : limit < t.desc.arg 0 2 + t.desc.arg 2 2) :
    s.slotTask k t limit at_ ok area f = s.finish k t.h .formatError := by
  simp only [State.slotTask, if_neg hne, if_pos hout, ite_self]

theorem State.slotTask_of_bad (hok : ok = false) : s.slotTask k t limit at_ ok area f = s.finish k t.h .formatError := by
  simp only [State.slotTask, hok]
  rfl

theorem State.slotTask_of_empty (hok : ok = true) (hzero : t.desc.arg 2 2 = 0) : s.slotTask k t limit at_ ok area f = s.finish k t.h .done := by
  simp only [State.slotTask, hok, if_pos hzero]
  rfl

/-- A command whose effect on the suite's view is known. -/
theorem State.next_runTask {h type mode : Nat} {g : State → Task → State} {u : State} (hrun : s.Runs k h type mode t)
    (hu : g (s.view k) t = u) : (Host.Outcome.next (s.runTask k h type mode g) : Out) = .next (s.merge k u) := by
  rw [State.runTask_of_runs hrun, hu]

end

/-- Settles O23: PREDICT and FUSED by the dies that skim and the room for the binding, and the four slot modes by their range and values. -/
theorem skimTasks : Obligations.SkimTasks := by
  refine ⟨fun k h t t' p s => ⟨fun hrun hon hmay hpred hroom => ?_, fun hrun hon hmay hpred hroom htask => ?_, fun hon hmay hfull => ?_,
    fun hoff => ?_⟩, fun k h t s => ⟨fun hne hfit => ?_, fun hne hout => ?_, fun hzero => ?_⟩⟩
  · refine State.next_runTask hrun ((State.runSkim_of_mayProduce hon hmay).trans ?_)
    rw [hroom, hpred]
    rfl
  · refine State.next_runTask hrun ((State.runSkim_of_mayProduce hon hmay).trans ?_)
    have htask' : ((s.view k).skimmed ((s.view k).prodStart k t p) k t p).task? k t.h = some t' := htask
    simp only [hroom, hpred, htask']
    rfl
  · have hbusy := (State.runSkim_of_mayProduce hon hmay).trans (if_pos hfull)
    exact ⟨fun hrun => State.next_runTask hrun hbusy, fun hrun => State.next_runTask hrun hbusy⟩
  · exact ⟨fun hrun => State.next_runTask hrun (State.runSkim_of_off hoff), fun hrun => State.next_runTask hrun (State.runSkim_of_off hoff)⟩
  · exact ⟨fun hrun hok => State.next_runTask hrun (State.slotTask_of_fits hok hne hfit),
      fun hrun hok => State.next_runTask hrun (State.slotTask_of_fits hok hne hfit),
      fun hrun => State.next_runTask hrun (State.slotTask_of_fits rfl hne hfit),
      fun hrun hok => State.next_runTask hrun (State.slotTask_of_fits hok hne hfit)⟩
  · exact ⟨fun hrun => State.next_runTask hrun (State.slotTask_of_beyond hne hout),
      fun hrun => State.next_runTask hrun (State.slotTask_of_beyond hne hout),
      fun hrun => State.next_runTask hrun (State.slotTask_of_beyond hne hout),
      fun hrun => State.next_runTask hrun (State.slotTask_of_beyond hne hout)⟩
  · exact ⟨fun hrun hok => State.next_runTask hrun (State.slotTask_of_empty hok hzero),
      fun hrun hok => State.next_runTask hrun (State.slotTask_of_empty hok hzero),
      fun hrun => State.next_runTask hrun (State.slotTask_of_empty rfl hzero),
      fun hrun hok => State.next_runTask hrun (State.slotTask_of_empty hok hzero)⟩

/-- Settles O24: the four modes of SCALE by their range and values, and LOAD by the lines it names. -/
theorem scaleTasksAndLoad : Obligations.ScaleTasksAndLoad := by
  refine ⟨fun k h t s => ⟨fun hne hfit => ?_, fun hne hout => ?_, fun hrun hbad => ?_, fun hrun hbad => ?_, fun hrun hbad => ?_,
    fun hzero => ?_⟩, fun k h bytes t s hrun => ⟨fun hin => ?_, fun hout => ?_⟩⟩
  · exact ⟨fun hrun hok => State.next_runTask hrun (State.slotTask_of_fits hok hne hfit),
      fun hrun hok => State.next_runTask hrun (State.slotTask_of_fits (bne_iff_ne.mpr hok) hne hfit),
      fun hrun => State.next_runTask hrun (State.slotTask_of_fits rfl hne hfit),
      fun hrun hok => State.next_runTask hrun (State.slotTask_of_fits hok hne hfit)⟩
  · exact ⟨fun hrun => State.next_runTask hrun (State.slotTask_of_beyond hne hout),
      fun hrun => State.next_runTask hrun (State.slotTask_of_beyond hne hout),
      fun hrun => State.next_runTask hrun (State.slotTask_of_beyond hne hout),
      fun hrun => State.next_runTask hrun (State.slotTask_of_beyond hne hout)⟩
  · exact State.next_runTask hrun (State.slotTask_of_bad hbad)
  · exact State.next_runTask hrun (State.slotTask_of_bad (bne_eq_false_iff_eq.mpr hbad))
  · exact State.next_runTask hrun (State.slotTask_of_bad hbad)
  · exact ⟨fun hrun hok => State.next_runTask hrun (State.slotTask_of_empty hok hzero),
      fun hrun hok => State.next_runTask hrun (State.slotTask_of_empty (bne_iff_ne.mpr hok) hzero),
      fun hrun => State.next_runTask hrun (State.slotTask_of_empty rfl hzero),
      fun hrun hok => State.next_runTask hrun (State.slotTask_of_empty hok hzero)⟩
  · exact State.next_runTask hrun (if_neg (by rw [hin]; exact Bool.false_ne_true))
  · exact State.next_runTask hrun (if_pos (by rw [hout]; rfl))

end Sys2Proof.Machine
end

section
/-! MASK and TOPK tasks (R103, R104, R281 to R298), and RELAY tasks (R118 to R128). -/

namespace Sys2Proof.Machine

/-! ### Records and checks of a MASK task -/

theorem State.withRecord_of_readable {s : State} {k : Fin 8} {t : Task} {n : Nat} (h : s.Readable k t n) (f : State → State) :
    s.withRecord k t n f = f s := by
  obtain ⟨hlines, hpoison⟩ := h
  have hclean : (s.poison.find? fun x => decide (t.desc.arg 0 5 ≤ x) && decide (x < t.desc.arg 0 5 + n)) = none := by
    rw [List.find?_eq_none]
    intro u hu
    simpa using hpoison u hu
  simp only [State.withRecord, hlines, hclean]

theorem State.runMask_of_change {s : State} {k : Fin 8} {t : Task} {c : MaskCtx} (hrec : s.Readable k t 2) (hcheck : s.maskCheck k t = .ok c)
    (hchange : c.change = true) (f : State → MaskCtx → State) : s.runMask k t f = f s c := by
  simp only [State.runMask, State.withRecord_of_readable hrec, hcheck, hchange, if_true]

theorem State.runMask_of_noChange {s : State} {k : Fin 8} {t : Task} {c : MaskCtx} (hrec : s.Readable k t 2) (hcheck : s.maskCheck k t = .ok c)
    (hchange : c.change = false) (f : State → MaskCtx → State) : s.runMask k t f = s.finish k t.h .done := by
  simp only [State.runMask, State.withRecord_of_readable hrec, hcheck, hchange]
  rfl

theorem State.runMask_of_refused {s : State} {k : Fin 8} {t : Task} {e : Status} (hrec : s.Readable k t 2) (hcheck : s.maskCheck k t = .error e)
    (f : State → MaskCtx → State) : s.runMask k t f = s.updRefuse k t e := by
  simp only [State.runMask, State.withRecord_of_readable hrec, hcheck]

/-- A BUILD in a step of change that nothing withholds: its unit runs, its candidates are of this step, its blocks have their tags, and the table
of built records and the binding have room (R284, R288 to R293, R297). -/
theorem State.maskBuild_of_ready {s : State} {k : Fin 8} {t : Task} {c : MaskCtx} {b : State} (hrec : s.Readable k t 2)
    (hcheck : s.maskCheck k t = .ok c) (hchange : c.change = true)
    (hunit : ¬(s.dies[c.d].msk.fn.st = .stopped ∨ (s.dies[c.d].msk.fn.st = .draining ∧ s.dies[c.d].msk.fn.since < t.waitFrom)))
    (hcand : c.r.sandOnly = true ∨ (c.r.state = 1 ∧ c.r.candStep = c.t)) (htags : ∀ g < c.m.nBlocks c.st, s.tagOf c.m g = c.t % 2 ^ 24)
    (hroom : ((s.builtNow k).filter fun y => y.addr != c.r.unit).length < 256)
    (hbind : s.bindTo k ((s.maskLive k c).map fun y => (y.1, y.2.1)) c.r.alts [] = some b) :
    s.maskBuild k t = (b.noteBuild k t.h c.r.unit c.t).buildEpoch k t c := by
  have hcand' : ¬(!c.r.sandOnly && !(c.r.state == 1 && c.r.candStep == c.t)) = true := by
    obtain h | ⟨h, h'⟩ := hcand
    · simp [h]
    · simp [h, h']
  have htags' : ¬((List.range (c.m.nBlocks c.st)).any fun g => s.tagOf c.m g != c.t % 2 ^ 24) = true := by
    simpa using htags
  rw [State.maskBuild, State.runMask_of_change hrec hcheck hchange]
  simp only [if_neg hunit, if_neg hcand', if_neg htags', if_neg (Nat.not_le.mpr hroom), hbind]

theorem State.topkScan_of_fits {s : State} {k : Fin 8} {t : Task} {src x y : Tensor} {st : Struct} (hsrc : s.tensor? k (t.desc.tensor 0) = some src)
    (hx : s.tensor? k (t.desc.tensor 1) = some x) (hy : s.tensor? k (t.desc.tensor 2) = some y) (hst : s.opStruct k src = .ok st)
    (hn : 1 ≤ t.desc.arg 4 2 ∧ t.desc.arg 4 2 ≤ 256) (hseg : 1 ≤ t.desc.arg 0 4 ∧ t.desc.arg 0 4 ≤ 2 ^ 24) (hdiv : src.elems % t.desc.arg 0 4 = 0)
    (hout : topOutOk x y (src.elems / t.desc.arg 0 4 * t.desc.arg 4 2) = true) : s.topkScan k t = s.scanRun k t src x y st := by
  have hgo : ¬(t.desc.arg 4 2 = 0 ∨ t.desc.arg 4 2 > 256 ∨ t.desc.arg 0 4 = 0 ∨ t.desc.arg 0 4 > 2 ^ 24 ∨ src.elems % t.desc.arg 0 4 ≠ 0 ∨
      (!topOutOk x y (src.elems / t.desc.arg 0 4 * t.desc.arg 4 2)) = true) := by
    rw [hout, hdiv]
    simp
    omega
  simp only [State.topkScan, hsrc, hx, hy, hst, if_neg hgo]

/-- Settles O25: MASK tasks by what their checks find, and the two scans. -/
theorem maskAndScanTasks : Obligations.MaskAndScanTasks := by
  refine ⟨fun k h t c e dz x out gt b s hrec => ⟨fun hcheck hchange => ⟨?_, ?_, ?_⟩, fun hcheck hchange => ?_, fun hcheck => ?_⟩,
    fun k h t src x y st p s => ⟨?_, ?_⟩⟩
  · intro hrun hdz hx hout hok
    refine State.next_runTask hrun ((State.runMask_of_change hrec hcheck hchange _).trans ?_)
    simp only [hdz, hx, hout, hok, if_true]
  · intro hrun hgt
    refine State.next_runTask hrun ((State.runMask_of_change hrec hcheck hchange _).trans ?_)
    simp only [hgt]
  · intro hrun hunit hcand htags hroom hbind
    exact State.next_runTask hrun (State.maskBuild_of_ready hrec hcheck hchange hunit hcand htags hroom hbind)
  · exact ⟨fun hrun => State.next_runTask hrun (State.runMask_of_noChange hrec hcheck hchange _),
      fun hrun => State.next_runTask hrun (State.runMask_of_noChange hrec hcheck hchange _),
      fun hrun => State.next_runTask hrun (State.runMask_of_noChange hrec hcheck hchange _)⟩
  · exact ⟨fun hrun => State.next_runTask hrun (State.runMask_of_refused hrec hcheck _),
      fun hrun => State.next_runTask hrun (State.runMask_of_refused hrec hcheck _),
      fun hrun => State.next_runTask hrun (State.runMask_of_refused hrec hcheck _)⟩
  · intro hrun hsrc hx hy hst hn hn' hseg hseg' hdiv hout
    exact State.next_runTask hrun (State.topkScan_of_fits hsrc hx hy hst ⟨hn, hn'⟩ ⟨hseg, hseg'⟩ hdiv hout)
  · intro u hrun hmay hx hy
    refine State.next_runTask hrun ((State.withProd_of_mayProduce hmay _).trans ?_)
    simp only [u] at hx hy
    simp only [hx, hy]
    rfl

/-! ### The guard of a RELAY's regions -/

section
variable {s : State} {k : Fin 8} {t : Task} {dst : Tensor} {rs ws : List (Nat × Nat)}

theorem State.relayGuard_of_foreign {r : Nat × Nat} (h : (rs ++ ws).find? (fun r => !s.regionOk k r.1 r.2) = some r) (f : State → State) :
    s.relayGuard k t dst rs ws f = (s.taskMemError k t ((s.firstBad k r.1 r.2).getD r.1) 2 2).relayDone k t .accessDenied := by
  simp only [State.relayGuard, h]

/-- Regions that all lie in the suite's memory. -/
theorem State.noForeign (hin : ((rs ++ ws).all fun r => s.regionOk k r.1 r.2) = true) :
    (rs ++ ws).find? (fun r => !s.regionOk k r.1 r.2) = none := by
  rw [List.find?_eq_none]
  intro r hr
  simp [List.all_eq_true.mp hin r hr]

theorem State.relayGuard_of_overlap (hin : ((rs ++ ws).all fun r => s.regionOk k r.1 r.2) = true) (hmeet : anyMeet rs ws = true)
    (f : State → State) : s.relayGuard k t dst rs ws f = s.relayDone k t .overlap := by
  simp only [State.relayGuard, State.noForeign hin, hmeet, if_true]

theorem State.relayGuard_of_full (hin : ((rs ++ ws).all fun r => s.regionOk k r.1 r.2) = true) (hmeet : anyMeet rs ws = false)
    (hbind : s.bindTo k rs ws [dst] = none) (f : State → State) :
    s.relayGuard k t dst rs ws f = (s.boundRefused k t dst.id 2).relayDone k t .accessDenied := by
  simp only [State.relayGuard, State.noForeign hin, hmeet, hbind]
  rfl

theorem State.relayGuard_of_free {b : State} (hin : ((rs ++ ws).all fun r => s.regionOk k r.1 r.2) = true) (hmeet : anyMeet rs ws = false)
    (hbind : s.bindTo k rs ws [dst] = some b) (f : State → State) : s.relayGuard k t dst rs ws f = s.afterBuild (f b) k t ws := by
  simp only [State.relayGuard, State.noForeign hin, hmeet, hbind]
  rfl

theorem State.afterBuild_of_alone (hnone : s.intruders k t ws = []) (hmark : t.logged.contains (0xA2, 0) = false) (u : State) :
    s.afterBuild u k t ws = u := by
  simp only [State.afterBuild, hnone, hmark]
  rfl

theorem anyMeet_nil_left (rs : List (Nat × Nat)) : anyMeet [] rs = false := rfl

theorem anyMeet_nil_right (rs : List (Nat × Nat)) : anyMeet rs [] = false := by
  simp [anyMeet]

theorem State.intruders_nil (s : State) (k : Fin 8) (t : Task) : s.intruders k t [] = [] := by
  simp [State.intruders, anyMeet_nil_right]

end

/-- The commands that follow a plan. -/
theorem exec_relay {c : Instr} {k : Fin 8} {h mode : Nat} {bytes : List Byte} {t : Task} {plan : RelayPlan} {s : State} (hrun : s.Runs k h 3 mode t)
    (hc : (c = .relayStore k h ∧ mode = 0 ∧ plan = (s.view k).storePlan k t) ∨
      (c = .relayStoreValues k h ∧ mode = 1 ∧ plan = (s.view k).valuesPlan k t) ∨
      (c = .relayOnehot k h ∧ mode = 2 ∧ plan = (s.view k).onehotPlan k t) ∨ (c = .relayCopy k h ∧ mode = 3 ∧ plan = (s.view k).copyPlan k t) ∨
      (c = .relayHostIn k h bytes ∧ mode = 4 ∧ plan = (s.view k).hostInPlan k t bytes) ∨
      (c = .relayHostOut k h ∧ mode = 5 ∧ plan = (s.view k).hostOutPlan k t) ∨
      (c = .relayTwin k h ∧ mode = 7 ∧ plan = (s.view k).twinPlan k t)) :
    exec c s = .next (s.merge k ((s.view k).runPlan k t plan)) := by
  obtain ⟨rfl, rfl, rfl⟩ | ⟨rfl, rfl, rfl⟩ | ⟨rfl, rfl, rfl⟩ | ⟨rfl, rfl, rfl⟩ | ⟨rfl, rfl, rfl⟩ | ⟨rfl, rfl, rfl⟩ | ⟨rfl, rfl, rfl⟩ := hc
  all_goals exact congrArg Host.Outcome.next (State.runTask_of_runs hrun _)

/-- HOST_IN of a destination that is not bound works on its regions. -/
theorem State.hostInPlan_of_free {s : State} {k : Fin 8} {t : Task} {x : Tensor} (bytes : List Byte)
    (hx : s.tensor? k (t.desc.tensor 1) = some x) (hfree : x.bound = false)
    (hset : s.suites[k].boundSet ((hostRegions x t.desc).map fun r => (r.1, r.2.1)) = none) :
    s.hostInPlan k t bytes = .works x [] ((hostRegions x t.desc).map fun r => (r.1, r.2.1)) none fun u =>
      ((hostRegions x t.desc).foldl (fun w r =>
        let bs := (bytes.drop (64 * r.2.2)).take (64 * r.2.1)
        w.write (64 * r.1) (bs ++ List.replicate (64 * r.2.1 - bs.length) 0)) u).relayDone k t .done := by
  simp only [State.hostInPlan, hx, hfree, hset]
  rfl

/-- HOST_OUT of a source that is not bound works on its regions. -/
theorem State.hostOutPlan_of_free {s : State} {k : Fin 8} {t : Task} {x : Tensor} (hx : s.tensor? k (t.desc.tensor 0) = some x)
    (hfree : x.bound = false) (hset : s.suites[k].boundSet ((hostRegions x t.desc).map fun r => (r.1, r.2.1)) = none) :
    s.hostOutPlan k t = .works x ((hostRegions x t.desc).map fun r => (r.1, r.2.1)) [] none fun u =>
      (((hostRegions x t.desc).foldl (fun w r => (List.range r.2.1).foldl (fun z i => z.hostWrite (t.desc.arg 0 8 + 64 * (r.2.2 + i))
        (if s.poisoned (r.1 + i) then List.replicate 64 0 else s.bytes (64 * (r.1 + i)) 64)) w) u).reportAccess k t
          (s.poisonOf ((hostRegions x t.desc).map fun r => (r.1, r.2.1))) none).relayDone k t .done := by
  simp only [State.hostOutPlan, hx, hfree, hset]
  rfl

/-- Settles O26: the guard's outcomes for every plan, and the three modes on clean regions. -/
theorem relayTasks : Obligations.RelayTasks := by
  refine ⟨fun c k h mode bytes t plan dst rs ws late run u b s hrun hc => ?_, fun k h bytes t x st ls b s => ⟨?_, ?_, ?_⟩⟩
  · have hexec := exec_relay hrun hc
    refine ⟨fun hplan => ?_, fun hplan hin => ⟨fun hmeet => ?_, fun hmeet hbind => ?_, fun hmeet hbind => ?_⟩, fun hplan r hr => ?_⟩
    · rw [hexec, hplan]
      rfl
    · rw [hexec, hplan, State.runPlan, State.relayGuard_of_overlap hin hmeet]
    · rw [hexec, hplan, State.runPlan, State.relayGuard_of_full hin hmeet hbind]
    · have hwork : exec c s = .next (s.merge k ((s.view k).afterBuild (late.getD (run b)) k t ws)) := by
        rw [hexec, hplan, State.runPlan, State.relayGuard_of_free hin hmeet hbind]
      refine ⟨hwork, fun hlate halone hmark => ?_⟩
      rw [hwork, State.afterBuild_of_alone halone hmark, hlate]
      rfl
    · rw [hexec, hplan, State.runPlan, State.relayGuard_of_foreign hr]
  · intro hrun hx hfree hset hin hbind halone hmark
    refine State.next_runTask hrun ?_
    rw [State.relayHostIn, State.hostInPlan_of_free bytes hx hfree hset, State.runPlan,
      State.relayGuard_of_free hin (anyMeet_nil_left _) hbind, State.afterBuild_of_alone halone hmark]
    rfl
  · intro hrun hx hfree hset hin hbind hclean hmark
    refine State.next_runTask hrun ?_
    rw [State.relayHostOut, State.hostOutPlan_of_free hx hfree hset, State.runPlan,
      State.relayGuard_of_free (by rwa [List.append_nil]) (anyMeet_nil_right _) hbind,
      State.afterBuild_of_alone (State.intruders_nil _ k t) hmark, hclean]
    rfl
  · intro hrun hx hst hls
    refine State.next_runTask hrun ?_
    simp only [State.relayCheck, hx, hst, hls]

end Sys2Proof.Machine
end

section
/-! EXCHANGE tasks (R231, R238 to R245, R255, R316, R317). -/

namespace Sys2Proof.Machine

section
variable {s : State} {k : Fin 8} {t : Task} {g : Group}

theorem State.withGroup_of_defined (hg : s.suites[k].group? (t.desc.arg 0 2) = some g) (f : State → Group → State) :
    s.withGroup k t f = f s g := by
  simp only [State.withGroup, hg]

theorem State.withPeer_of_member (hg : s.suites[k].group? (t.desc.arg 0 2) = some g) (hpeer : (s.others g).contains t.desc.peer = true)
    (f : State → State) : s.withPeer k t f = f s := by
  rw [State.withPeer, State.withGroup_of_defined hg, if_pos hpeer]

/-! ### Reductions -/

section
variable {r : Reduce} {src dst : Tensor} {all : Bool} (hg : s.suites[k].group? (t.desc.arg 0 2) = some g) (hr : s.reduceOf k t = some r)
  (hsrc : s.tensor? k (t.desc.tensor 0) = some src) (hdst : s.tensor? k (t.desc.tensor 1) = some dst)
  (hok : s.exchDstOk k (bitOf (t.desc.arg 2 1) 1) src dst = true)
include hg hr hsrc hdst hok

theorem State.runReduce_of_missing (htotals : s.totals k r all = none) : s.runReduce k t all = s := by
  rw [State.runReduce, State.withGroup_of_defined hg]
  simp only [hr, hsrc, hdst, hok, htotals]
  rfl

theorem State.runReduce_of_unacked {ts : List (Nat × Option (Fin 8) × Total)} (htotals : s.totals k r all = some ts) (hack : t.allAcked = false) :
    s.runReduce k t all = s := by
  rw [State.runReduce, State.withGroup_of_defined hg]
  simp only [hr, hsrc, hdst, hok, htotals, hack, Bool.not_false, Bool.or_true]
  rfl

theorem State.runReduce_of_complete {ts : List (Nat × Option (Fin 8) × Total)} {b : State} (htotals : s.totals k r all = some ts)
    (hack : t.allAcked = true)
    (hopen : bitOf (t.desc.arg 2 1) 1 = true → ∀ d i, homeOf dst.base = some (d, i) → s.mustWait d i k dst.id = false)
    (hbind : s.bindTo k src.rawRegions (s.exchBound (bitOf (t.desc.arg 2 1) 1) dst) (if bitOf (t.desc.arg 2 1) 1 then [] else [dst]) = some b) :
    s.runReduce k t all = b.reduceDone s k t g r src dst ts := by
  have hwait : (bitOf (t.desc.arg 2 1) 1 && (match homeOf dst.base with | some (dd, ii) => s.mustWait dd ii k dst.id | none => false)) = false := by
    cases hupd : bitOf (t.desc.arg 2 1) 1 with
    | false => rfl
    | true =>
      cases hhome : homeOf dst.base with
      | none => rfl
      | some x => exact hopen hupd x.1 x.2 hhome
  have hgo : ¬((bitOf (t.desc.arg 2 1) 1 && (match homeOf dst.base with | some (dd, ii) => s.mustWait dd ii k dst.id | none => false)) ||
      !t.allAcked) = true := by
    rw [hwait, hack]
    exact Bool.false_ne_true
  rw [State.runReduce, State.withGroup_of_defined hg]
  simp only [hr, hsrc, hdst, hok, htotals, hbind]
  exact if_neg hgo

end

/-! ### Transfers -/

theorem State.leave_of_ok {r : Nat × Nat} {coords : List (List Nat)} (src : Tensor) (h : s.leaveOk k r coords = true) (f : State → State) :
    s.leave k t src r coords f = s.sendOff k t r coords f :=
  if_pos h

theorem State.receive_of_fits {r : Nat × Nat} {bytes : List Byte} (h : bytes.length ≤ 64 * r.2) :
    s.receive k t r bytes = ((s.write (64 * r.1) bytes).reportAccess k t none (s.firstBad k r.1 r.2)).finish k t.h .done :=
  if_neg (Nat.not_lt.mpr h)

theorem State.exchangeAllgather_of_free {members : List (List Byte)} {src dst : Tensor} {r w : Nat × Nat} {b : State}
    (hg : s.suites[k].group? (t.desc.arg 0 2) = some g) (hsrc : s.tensor? k (t.desc.tensor 0) = some src)
    (hdst : s.tensor? k (t.desc.tensor 1) = some dst) (hr : s.baseRegion k src = some r) (hw : s.baseRegion k dst = some w)
    (hfit : (s.gathered g r members).length ≤ 64 * w.2) (hbind : s.bindTo k [r] [w] [dst] = some b) (hleave : b.leaveOk k r (s.others g) = true) :
    s.exchangeAllgather k t members = b.sendOff k t r (s.others g) fun u =>
      u.copyIn s k t r w ((s.memberCoords g).idxOf s.ownCoord * r.2) (s.gathered g r members) := by
  rw [State.exchangeAllgather, State.withGroup_of_defined hg]
  simp only [hsrc, hdst, hr, hw, if_neg (Nat.not_lt.mpr hfit), hbind, State.leave_of_ok src hleave]

theorem State.exchangeBroadcast_elsewhere {bytes : List Byte} {dst : Tensor} {w : Nat × Nat} {root : List Nat}
    (hg : s.suites[k].group? (t.desc.arg 0 2) = some g) (hroot : (s.memberCoords g)[t.desc.arg 3 1]? = some root)
    (hdst : s.tensor? k (t.desc.tensor 1) = some dst) (hw : s.baseRegion k dst = some w) (hother : root ≠ s.ownCoord) :
    s.exchangeBroadcast k t bytes = s.receive k t w bytes := by
  have helse : (some root == some s.ownCoord) = false := beq_eq_false_iff_ne.mpr fun h => hother (Option.some.inj h)
  rw [State.exchangeBroadcast, State.withGroup_of_defined hg]
  simp only [hroot, hdst, hw, helse]
  rfl

theorem State.exchangeBroadcast_at_root {bytes : List Byte} {src dst : Tensor} {r w : Nat × Nat} {b : State}
    (hg : s.suites[k].group? (t.desc.arg 0 2) = some g) (hroot : (s.memberCoords g)[t.desc.arg 3 1]? = some s.ownCoord)
    (hsrc : s.tensor? k (t.desc.tensor 0) = some src) (hdst : s.tensor? k (t.desc.tensor 1) = some dst) (hr : s.baseRegion k src = some r)
    (hw : s.baseRegion k dst = some w) (hfit : r.2 ≤ w.2) (hbind : s.bindTo k [r] [w] [dst] = some b)
    (hleave : b.leaveOk k r (s.others g) = true) :
    s.exchangeBroadcast k t bytes = b.sendOff k t r (s.others g) fun u => u.copyIn s k t r w 0 (s.image r) := by
  rw [State.exchangeBroadcast, State.withGroup_of_defined hg]
  simp only [hroot, hsrc, hdst, hr, hw, if_neg (Nat.not_lt.mpr hfit), hbind, State.leave_of_ok src hleave, beq_self_eq_true]
  rfl

theorem State.exchangeNorm_of_all (hg : s.suites[k].group? (t.desc.arg 0 2) = some g)
    (hall : ((s.others g).all fun c => (s.suites[k].normIn.filter fun x => x.1 == g.id).any fun x => x.2.1 == c) = true) :
    let ins := s.suites[k].normIn.filter fun x => x.1 == g.id
    let ds := maskDies g.dies
    let parts := ds.map (fun d => (s.dies[d].norm[k], s.dies[d].normSat[k])) ++ ins.map fun x => x.2.2
    s.exchangeNorm k t =
      ((ds.foldl (fun u d => u.modDie d fun x => { x with norm := x.norm.set k 0, normSat := x.normSat.set k false }) s).modSuite k fun u =>
        { u with normNext := some (sumL (parts.map (·.1)), parts.any (·.2)), normIn := u.normIn.filter fun x => x.1 != g.id }).finish k t.h .done := by
  rw [State.exchangeNorm, State.withGroup_of_defined hg]
  exact if_neg (by rw [hall]; exact Bool.false_ne_true)

theorem State.exchangeDefine_of_valid (hid : t.desc.arg 0 2 ≤ 63)
    (hdims : BitVec.ofNat 4 (t.desc.arg 20 1) &&& ~~~(dimsOf (dieMaskOf (s.suiteDies k))) = 0)
    (hdies : BitVec.ofNat 8 (t.desc.arg 21 1) &&& ~~~(dieMaskOf (s.suiteDies k)) = 0)
    (hcarry : dimsOf (BitVec.ofNat 8 (t.desc.arg 21 1)) &&& BitVec.ofNat 4 (t.desc.arg 20 1) ≠ 0) :
    let ds : BitVec 8 := BitVec.ofNat 8 (t.desc.arg 21 1)
    s.exchangeDefine k t = (s.modSuite k fun u =>
      { u with groups := { id := t.desc.arg 0 2, dims := BitVec.ofNat 4 (t.desc.arg 20 1), dies := ds } ::
                 u.groups.filter fun x => x.id != t.desc.arg 0 2 }).finish k t.h .done := by
  refine if_neg ?_
  rintro (h | h | h | h)
  · omega
  · exact h hdims
  · exact h hdies
  · exact hcarry h

end

/-- Settles O27: the reductions by what has come, the transfers of a group, those with one member, and DEFINE. -/
theorem exchangeTasks : Obligations.ExchangeTasks := by
  refine ⟨fun c k h mode all t g r src dst ts b s hrun hc => ?_, fun k h members bytes t g src dst r w root b s => ?_,
    fun k h bytes t g x r s => ?_, fun k h t s hrun => ?_⟩
  · have hexec : exec c s = .next (s.merge k ((s.view k).runReduce k t all)) := by
      obtain ⟨rfl, rfl, rfl⟩ | ⟨rfl, rfl, rfl⟩ := hc
      all_goals exact congrArg Host.Outcome.next (State.runTask_of_runs hrun _)
    intro v upd hg hr hsrc hdst hok
    refine ⟨fun hnone => ?_, fun hsome hack => ?_, fun hsome hack hopen hbind => ?_⟩
    · rw [hexec, State.runReduce_of_missing hg hr hsrc hdst hok hnone]
    · rw [hexec, State.runReduce_of_unacked hg hr hsrc hdst hok hsome hack]
    · rw [hexec, State.runReduce_of_complete hg hr hsrc hdst hok hsome hack hopen hbind]
  · intro v self out hg
    refine ⟨fun hrun hsrc hdst hr hw hfit hbind hleave => ?_, fun hrun hroot hdst hw => ⟨fun hother hfit => ?_, ?_⟩, fun hrun hall => ?_⟩
    · exact State.next_runTask hrun (State.exchangeAllgather_of_free hg hsrc hdst hr hw hfit hbind hleave)
    · exact State.next_runTask hrun ((State.exchangeBroadcast_elsewhere hg hroot hdst hw hother).trans (State.receive_of_fits hfit))
    · rintro rfl hsrc hr hfit hbind hleave
      exact State.next_runTask hrun (State.exchangeBroadcast_at_root hg hroot hsrc hdst hr hw hfit hbind hleave)
    · exact State.next_runTask hrun (State.exchangeNorm_of_all hg hall)
  · intro v out hg hpeer
    refine ⟨fun hrun hx hr hleave => ?_, fun hrun hr hfit => ?_, fun hrun hr => ⟨fun hall => ?_, ?_⟩, fun hrun hx hr => ⟨fun hleave => ?_, ?_⟩⟩
    · refine State.next_runTask hrun ((State.withPeer_of_member hg hpeer _).trans ?_)
      simp only [hx, hr]
      exact State.leave_of_ok x hleave _
    · refine State.next_runTask hrun ((State.withPeer_of_member hg hpeer _).trans ?_)
      simp only [hr]
      exact State.receive_of_fits hfit
    · have hgot : (List.range r.2).all t.got.contains = true := by
        rw [List.all_eq_true]
        intro i hi
        exact List.contains_iff_mem.mpr (hall i (List.mem_range.mp hi))
      refine State.next_runTask hrun ((State.withPeer_of_member hg hpeer _).trans ?_)
      simp only [hr, hgot]
      rfl
    · refine State.next_runTask hrun ((State.withPeer_of_member hg hpeer _).trans ?_)
      simp only [hr]
      rfl
    · refine State.next_runTask hrun ((State.withPeer_of_member hg hpeer _).trans ?_)
      simp only [hx, hr]
      exact State.leave_of_ok x hleave _
    · refine State.next_runTask hrun ((State.withPeer_of_member hg hpeer _).trans ?_)
      simp only [hx, hr]
      rfl
  · intro v id dims ds suite hid hdims hdies hcarry
    exact State.next_runTask hrun (State.exchangeDefine_of_valid hid hdims hdies hcarry)

end Sys2Proof.Machine
end

section
/-! UPDATE tasks (R253 to R258, R269, R270, R276, R277, R316). -/

namespace Sys2Proof.Machine

section
variable {s b : State} {k : Fin 8} {t : Task} {c : UpdCtx} {r : UpdRec} {lr : Word} {e : Status}

theorem State.withBinding_of_room {areas : List (Nat × Nat)} (h : s.bindUpdate k c areas = some b) (f : State → State) :
    s.withBinding k t c areas f = f b := by
  simp only [State.withBinding, h]

/-! ### Opening and waiting (R253) -/

/-- A task that is neither open nor waiting on its unit, and whose master no open APPLY has. -/
structure State.NewOnUnit (s : State) (k : Fin 8) (t : Task) (c : UpdCtx) : Prop where
  notOpen : ((s.stack c.d c.i).upd.open? k t.h).isNone = true
  notWaiting : (s.stack c.d c.i).upd.waiting.contains (k.val, t.h) = false
  masterFree : ((s.stack c.d c.i).upd.opened.any fun o => o.k == k.val && o.master == c.m.id) = false

theorem State.NewOnUnit.notThere (h : s.NewOnUnit k t c) :
    ((s.stack c.d c.i).upd.open? k t.h).isSome = false ∧ (s.stack c.d c.i).upd.waiting.contains (k.val, t.h) = false :=
  ⟨by rw [← Option.not_isNone, h.notOpen]; rfl, h.notWaiting⟩

theorem State.startUpdate_of_room (hnew : s.NewOnUnit k t c) (hroom : (s.stack c.d c.i).upd.opened.length < 64)
    (hfirst : (s.stack c.d c.i).upd.waiting = []) (next : Bool) (f : State → State) : s.startUpdate k t c next f = f s := by
  have hopen := hnew.notThere.1
  have hroom' : decide (64 ≤ (s.stack c.d c.i).upd.opened.length) = false := decide_eq_false (Nat.not_le.mpr hroom)
  simp only [State.startUpdate, hopen, hnew.masterFree, hroom', hfirst]
  cases next <;> rfl

theorem State.startUpdate_of_full (hnew : s.NewOnUnit k t c)
    (hfull : 64 ≤ (s.stack c.d c.i).upd.opened.length ∨ (s.stack c.d c.i).upd.waiting ≠ []) (f : State → State) :
    s.startUpdate k t c false f = s.modUpd c.d c.i fun x => { x with waiting := waitIns (k.val, t.h) x.waiting } := by
  obtain ⟨hopen, hwait⟩ := hnew.notThere
  have hwaits : (decide (64 ≤ (s.stack c.d c.i).upd.opened.length) || !(s.stack c.d c.i).upd.waiting.isEmpty) = true := by
    obtain h | h := hfull
    · simp [h]
    · simp [h]
  simp only [State.startUpdate, hopen, hwait, hnew.masterFree, hwaits]
  rfl

/-! ### The checks -/

theorem State.runApply_of_refused (h : s.updCheck k t = .error e) (next : Bool) : s.runApply k t next = s.updRefuse k t e := by
  simp only [State.runApply, h]

theorem State.runReplay_of_refused (h : s.updCheck k t = .error e) (next : Bool) : s.runReplay k t next = s.updRefuse k t e := by
  simp only [State.runReplay, h]

theorem State.runApply_of_checked (h : s.updCheck k t = .ok (c, r, lr)) (hrun : (s.stack c.d c.i).upd.fn.st = .running)
    (hbind : s.bindUpdate k c (r.areas c) = some b) (next : Bool) :
    s.runApply k t next = b.startUpdate k t c next fun u => u.openApply k t c r lr := by
  have hgo : ¬(s.stack c.d c.i).upd.fn.st ≠ .running := fun h => h hrun
  simp only [State.runApply, h, if_neg hgo, State.withBinding_of_room hbind]

/-- The retained values of a REPLAY, once it may open. -/
def State.replayBody (s : State) (k : Fin 8) (t : Task) (c : UpdCtx) (r : UpdRec) : State :=
  if s.replayShort c r (t.desc.arg 8 4) then
    (s.verifyEvent k t c (s.otherTags c (t.desc.arg 8 4)).length (s.replayBad c r (t.desc.arg 8 4)).length).finish k t.h .formatError
  else s.replayRun k t c r

theorem State.runReplay_of_checked (h : s.updCheck k t = .ok (c, r, lr)) (hrun : (s.stack c.d c.i).upd.fn.st = .running)
    (hthaw : c.m.frozen = false) (hbind : s.bindUpdate k c (r.areas c) = some b) (next : Bool) :
    s.runReplay k t next = b.startUpdate k t c next fun u => u.replayBody k t c r := by
  have hgo : ¬(s.stack c.d c.i).upd.fn.st ≠ .running := fun h => h hrun
  simp only [State.runReplay, h, if_neg hgo, hthaw, State.withBinding_of_room hbind]
  rfl

theorem State.replayBody_of_retained (h : s.replayShort c r (t.desc.arg 8 4) = false) : s.replayBody k t c r = s.replayRun k t c r :=
  if_neg (by rw [h]; exact Bool.false_ne_true)

theorem State.updateRender_of_clean (hrec : s.Readable k t 1) (h : s.updCheck k t = .ok (c, r, lr))
    (hrun : (s.stack c.d c.i).upd.fn.st = .running) (hbind : s.bindUpdate k c [] = some b)
    (hclean : ∀ g < c.m.nBlocks c.st, b.blockPoison c.m c.st g = false) :
    s.updateRender k t = (b.renderAll k c b.suites[k].step.toNat (!t.recompute)).finish k t.h .done := by
  have hgo : ¬(s.stack c.d c.i).upd.fn.st ≠ .running := fun h => h hrun
  have hpois : (List.range (c.m.nBlocks c.st)).any (b.blockPoison c.m c.st) = false := by
    rw [List.any_eq_false]
    intro g hg
    rw [hclean g (List.mem_range.mp hg)]
    exact Bool.false_ne_true
  rw [State.updateRender, State.withRecord_of_readable hrec]
  simp only [h, if_neg hgo, State.withBinding_of_room hbind, hpois]
  rfl

theorem State.updateRender_of_refused (hrec : s.Readable k t 1) (h : s.updCheck k t = .error e) : s.updateRender k t = s.updRefuse k t e := by
  rw [State.updateRender, State.withRecord_of_readable hrec]
  simp only [h]

/-! ### FREEZE, THAW and VERIFY -/

/-- A FREEZE or THAW whose tensors are defined (R270). -/
theorem State.runFreeze_of_defined (hm : (s.tensor? k (t.desc.tensor 0)).isSome = true)
    (hothers : ∀ id ∈ [t.desc.tensor 1, t.desc.tensor 2], id = 0xFFFF ∨ (s.tensor? k id).isSome = true) (on : Bool) :
    s.runFreeze k t on = (if s.suites[k].run.isSome then
        s.modSuite k fun u => { u with frozenPend := u.frozenPend ++ (s.frozenGroup k t.desc).map fun a => (a, on) }
      else s.setFrozen (s.frozenGroup k t.desc) on).finish k t.h .done := by
  refine if_neg fun hbad => ?_
  obtain hnone | hany := Bool.or_eq_true_iff.mp hbad
  · rw [← Option.not_isSome, hm] at hnone
    exact absurd hnone Bool.false_ne_true
  · obtain ⟨id, hid, hbad⟩ := List.any_eq_true.mp hany
    obtain ⟨hne, hnone⟩ := (Bool.and_eq_true_iff).mp hbad
    obtain h | h := hothers id hid
    · exact absurd h (bne_iff_ne.mp hne)
    · rw [← Option.not_isSome, h] at hnone
      exact absurd hnone Bool.false_ne_true

/-- The blocks of a master whose retained tag is not that of a step (R276). -/
def State.unretained (s : State) (c : UpdCtx) (ret step : Nat) : List Nat :=
  (List.range (c.m.nBlocks c.st)).filter fun g =>
    s.le (64 * ret + 64 + 4 * g) 4 / 2 ^ 31 != 1 || s.le (64 * ret + 64 + 4 * g) 4 % 2 ^ 24 != step % 2 ^ 24

theorem State.updateVerify_of_checked (hrec : s.Readable k t (if t.desc.arg 0 5 = 0 then 0 else 1))
    (hctx : (s.updCtx k t fun nr nc nb => if t.desc.arg 0 5 = 0 then [] else
      (field (s.bytes (64 * t.desc.arg 0 5) 64) 0x20 5,
        units (64 + up64 (4 * nr) + up64 (2 * nc) + 16 * nr + 16 * nc + 256 * field (s.bytes (64 * t.desc.arg 0 5) 64) 0x2A 4)) ::
        (if field (s.bytes (64 * t.desc.arg 0 5) 64) 0x25 5 = 0 then []
         else [(field (s.bytes (64 * t.desc.arg 0 5) 64) 0x25 5, units (retainSize nb))])) = .ok c)
    (hret : t.desc.arg 0 5 ≠ 0 → crc32 ((s.bytes (64 * t.desc.arg 0 5) 64).take 60) = field (s.bytes (64 * t.desc.arg 0 5) 64) 0x3C 4 ∧
      (c.m.retain = true ↔ field (s.bytes (64 * t.desc.arg 0 5) 64) 0x25 5 ≠ 0)) :
    s.updateVerify k t = ((s.verifyEvent k t c (s.otherTags c (t.desc.arg 8 4)).length
      (if t.desc.arg 0 5 = 0 ∨ field (s.bytes (64 * t.desc.arg 0 5) 64) 0x25 5 = 0 then 0
       else (s.unretained c (field (s.bytes (64 * t.desc.arg 0 5) 64) 0x25 5) (t.desc.arg 8 4)).length)).modTask k t.h fun z =>
        { z with count := min 65535 (s.otherTags c (t.desc.arg 8 4)).length }).finish k t.h .done := by
  have hgo : ¬(t.desc.arg 0 5 ≠ 0 ∧ (crc32 ((s.bytes (64 * t.desc.arg 0 5) 64).take 60) ≠ field (s.bytes (64 * t.desc.arg 0 5) 64) 0x3C 4 ∨
      (field (s.bytes (64 * t.desc.arg 0 5) 64) 0x25 5 ≠ 0) ≠ (c.m.retain = true))) := by
    rintro ⟨ha, hcrc | hne⟩
    · exact hcrc (hret ha).1
    · exact hne (propext (hret ha).2.symm)
  rw [State.updateVerify, State.withRecord_of_readable hrec]
  simp only [hctx, if_neg hgo]
  rfl

end

/-- Settles O28: APPLY, REPLAY and RENDER by their checks and their unit, FREEZE and THAW by the RUN in flight, and VERIFY. -/
theorem updateTasks : Obligations.UpdateTasks := by
  refine ⟨fun k h t c r lr e b s => ?_, fun c k h mode on t s hrun hc => ?_, fun k h t c s hrun => ?_⟩
  · intro v out hrec
    refine ⟨fun hcheck hunit => ⟨fun hbind hopen hwait hmaster => ⟨fun hroom hfirst => ⟨fun hrun => ?_, fun hrun hthaw hret => ?_⟩,
      fun hfull => ⟨fun hrun => ?_, fun hrun hthaw => ?_⟩⟩, fun hbind hrun hclean => ?_⟩, fun hcheck => ⟨fun hrun => ?_, fun hrun => ?_, fun hrun => ?_⟩⟩
    · exact State.next_runTask hrun ((State.withRecord_of_readable hrec _).trans
        ((State.runApply_of_checked hcheck hunit hbind false).trans (State.startUpdate_of_room ⟨hopen, hwait, hmaster⟩ hroom hfirst _ _)))
    · exact State.next_runTask hrun ((State.withRecord_of_readable hrec _).trans
        ((State.runReplay_of_checked hcheck hunit hthaw hbind false).trans
          ((State.startUpdate_of_room ⟨hopen, hwait, hmaster⟩ hroom hfirst _ _).trans (State.replayBody_of_retained hret))))
    · exact State.next_runTask hrun ((State.withRecord_of_readable hrec _).trans
        ((State.runApply_of_checked hcheck hunit hbind false).trans (State.startUpdate_of_full ⟨hopen, hwait, hmaster⟩ hfull _)))
    · exact State.next_runTask hrun ((State.withRecord_of_readable hrec _).trans
        ((State.runReplay_of_checked hcheck hunit hthaw hbind false).trans (State.startUpdate_of_full ⟨hopen, hwait, hmaster⟩ hfull _)))
    · exact State.next_runTask hrun (State.updateRender_of_clean hrec hcheck hunit hbind hclean)
    · exact State.next_runTask hrun ((State.withRecord_of_readable hrec _).trans (State.runApply_of_refused hcheck false))
    · exact State.next_runTask hrun ((State.withRecord_of_readable hrec _).trans (State.runReplay_of_refused hcheck false))
    · exact State.next_runTask hrun (State.updateRender_of_refused hrec hcheck)
  · have hexec : exec c s = .next (s.merge k ((s.view k).runFreeze k t on)) := by
      obtain ⟨rfl, rfl, rfl⟩ | ⟨rfl, rfl, rfl⟩ := hc
      all_goals exact congrArg Host.Outcome.next (State.runTask_of_runs hrun _)
    intro v hm hothers
    rw [hexec, State.runFreeze_of_defined hm hothers]
    refine ⟨fun hidle => ?_, fun hflight => ?_⟩
    · rw [hidle]
      rfl
    · rw [if_pos hflight]
  · intro v a bs ret step n m hrec hctx hret
    exact State.next_runTask hrun (State.updateVerify_of_checked hrec hctx hret)

end Sys2Proof.Machine
end

section
/-! The step boundary, the update units, and the start of a tile on the array (R21 to R24, R34, R35, R42, R98, R178, R243, R253, R256, R257). -/

namespace Sys2Proof.Machine

/-! ### The step boundary -/

/-- The state after the boundary work of a step that is over, with the boundary at time `b` (R35). -/
def State.bounded (s : State) (k : Fin 8) (b : Nat) : State :=
  { s with clk := { s.clk with time := b } }.boundaryWork k (b - s.suites[k].stepStart)

theorem execStepBoundary_of_over {s : State} {k : Fin 8} {r : Run} (hrun : s.suites[k].run = some r) (hover : s.stepOver k r = true) :
    execStepBoundary k s = .next ((s.bounded k ((s.clk.time + 2048) % 2 ^ 64)).beginStep k r) := by
  have hgo : ¬(!s.stepOver k r) = true := by rw [hover]; exact Bool.false_ne_true
  unfold execStepBoundary
  rw [hrun]
  exact congrArg Host.Outcome.next (if_neg hgo)

/-- A step that is over belongs to a RUN that has steps left. -/
theorem State.steps_of_stepOver {s : State} {k : Fin 8} {r : Run} (hover : s.stepOver k r = true) : 0 < r.steps := by
  unfold State.stepOver at hover
  simp only [Bool.and_eq_true, decide_eq_true_eq] at hover
  exact hover.1.1.2

section
variable {s : State} {k : Fin 8} {r : Run}

theorem State.nextStep_of_last (h : r.steps = 1) : s.nextStep k r = (s.modSuite k fun u => { u with run := none }).finish k r.h .done :=
  if_pos h.le

theorem State.nextStep_of_drain (hpos : 0 < r.steps) (h : r.steps ≠ 1) (hst : s.suites[k].st = .draining) :
    s.nextStep k r = (s.modSuite k fun u => { u with run := none }).finish k r.h .disabled :=
  (if_neg (by omega)).trans (if_pos hst)

theorem State.nextStep_of_more (hpos : 0 < r.steps) (h : r.steps ≠ 1) (hst : s.suites[k].st ≠ .draining) : s.nextStep k r =
    s.modSuite k fun u => { u with run := some { r with steps := r.steps - 1, pc := if r.count ≤ r.pc then 0 else r.pc, ended := 0 } } :=
  (if_neg (by omega)).trans (if_neg hst)

end

theorem State.still_parts {s u : State} (h : u.still = s.still) :
    u.clk = s.clk ∧ u.power = s.power ∧ u.flash = s.flash ∧ u.sec = s.sec ∧ u.layout = s.layout :=
  ⟨congrArg (·.2.2.1) h, congrArg (·.2.1) h, congrArg (·.1) h, congrArg (·.2.2.2.2.1) h, congrArg (·.2.2.2.2.2.1) h⟩

/-- The boundary touches neither the power chain, the flash, the security service nor the layout, and no time but the boundary's own. -/
theorem State.bounded_still (s : State) (k : Fin 8) (r : Run) (b : Nat) :
    ((s.bounded k b).beginStep k r).still = { s with clk := { s.clk with time := b } }.still :=
  ((State.beginStep_keeps _ k r (State.boundaryWork_keeps (quiet := true) _ k _ (Keeps.refl _))).still rfl).1

/-! ### The update units (R253, R256, R257) -/

/-- The task that APPLY_OPEN takes from the line opens without regard to the others. -/
theorem State.startUpdate_of_next {s : State} {k : Fin 8} {t : Task} {c : UpdCtx} (hnew : s.NewOnUnit k t c) (f : State → State) :
    s.startUpdate k t c true f = f s := by
  obtain ⟨hopen, hwait⟩ := hnew.notThere
  simp only [State.startUpdate, hopen, hwait, hnew.masterFree]
  rfl

/-- APPLY_OPEN with room on the unit runs the task that has waited longest. -/
theorem execApplyOpen_of_room {s : State} {d : Fin 8} {i : Fin 12} {kk h : Nat} {rest : List (Nat × Nat)} {t : Task}
    (hwait : (s.stack d i).upd.waiting = (kk, h) :: rest) (hroom : (s.stack d i).upd.opened.length < 64)
    (ht : (s.modUpd d i fun x => { x with waiting := rest }).Has (fin8 kk) h .running t) :
    let s1 := s.modUpd d i fun x => { x with waiting := rest }
    execApplyOpen d i s = .next (s1.merge (fin8 kk) (if t.desc.mode = 4 then (s1.view (fin8 kk)).runReplay (fin8 kk) t true
      else (s1.view (fin8 kk)).runApply (fin8 kk) t true)) := by
  simp only [execApplyOpen, hwait, if_neg (Nat.not_le.mpr hroom), State.onRunning_of_has ht]
  rfl

theorem execGradientArrival_of_apply {s : State} {d k : Fin 8} {i : Fin 12} {h elem : Nat} {total grid : Int} {marked : Bool} {t : Task}
    (howner : s.owner d = some k) (htask : s.task? k h = some t) (htype : t.desc.type = 5) (hmode : t.desc.mode = 0) (hst : t.state ≠ .finished) :
    execGradientArrival d i h elem total grid marked s = .next (s.merge k
      ((s.view k).deliver d i k (t.desc.tensor 0) [{ p := elem, s := total, g := grid, marked := marked }])) := by
  simp only [execGradientArrival, howner, htask, if_pos (And.intro htype (And.intro hmode hst))]
  rfl

/-- Settles O31: the boundary of a step by what its RUN has left, the opening of a waiting task, and a value that arrives. -/
theorem boundaryAndUnits : Obligations.BoundaryAndUnits := by
  refine ⟨fun k r s hrun hover => ?_, fun d i kk h rest t c r lr b s => ?_, fun d k i h elem total grid marked t o s howner htask htype hmode hst => ?_⟩
  · have hpos := State.steps_of_stepOver hover
    intro b w
    have hexec : exec (.stepBoundary k) s = .next (w.beginStep k r) := execStepBoundary_of_over hrun hover
    have hstill : (w.beginStep k r).still = { s with clk := { s.clk with time := b } }.still := s.bounded_still k r b
    clear_value b w
    intro w1 w2 w3 ended
    have hnext : exec (.stepBoundary k) s = .next (w3.nextStep k r) := hexec
    refine ⟨fun hlast => ?_, fun hmore hdrain => ?_, fun hmore hgoes => ?_, _, hexec, State.still_parts hstill⟩
    · rw [hnext, State.nextStep_of_last hlast]
    · rw [hnext, State.nextStep_of_drain hpos hmore hdrain]
    · rw [hnext, State.nextStep_of_more hpos hmore hgoes]
  · intro k s1 v hwait hroom ht hcheck hunit hbind u hopen hwaits hmaster
    have hexec := execApplyOpen_of_room hwait hroom ht
    refine ⟨fun hmode => hexec.trans ?_, fun hmode hthaw hret => hexec.trans ?_⟩
    · rw [if_neg hmode, State.runApply_of_checked hcheck hunit hbind, State.startUpdate_of_next ⟨hopen, hwaits, hmaster⟩]
    · rw [if_pos hmode, State.runReplay_of_checked hcheck hunit hthaw hbind, State.startUpdate_of_next ⟨hopen, hwaits, hmaster⟩,
        State.replayBody_of_retained hret]
  · have hexec := execGradientArrival_of_apply (i := i) (elem := elem) (total := total) (grid := grid) (marked := marked) howner htask htype hmode hst
    refine ⟨fun happly => hexec.trans ?_, fun hnone => hexec.trans ?_⟩
    · simp only [State.deliver, happly]
    · simp only [State.deliver, hnone]

/-! ### Taking the array (R42, R43, R85, R98, R178, R243) -/

/-- The grid-group tiles of a unit (R243). -/
def UnitCtx.groupTiles (c : UnitCtx) : List (Nat × Nat × Nat) := if c.p.r.epi.groupEn then rowTiles c.rows else []

/-- The state in which a tile's task is open and its extremes are reported. -/
def State.unitOpened (s : State) (th : Thread) (c : UnitCtx) : State :=
  (s.openTask th.tile c).1.merge (fin8 th.tile.k)
    (((s.openTask th.tile c).1.view (fin8 th.tile.k)).reportExtremes (fin8 th.tile.k) th.tile.h c.q c.groupTiles)

section
variable {s : State} {d : Fin 8} {p : Fin 104} {th : Thread}

theorem State.takeArray_of_saved_free {a b : Bank} (hth : th.saved = some (a, b)) (hA : (s.panel d p).bankA.state = .free)
    (hB : (s.panel d p).bankB.state = .free) : s.takeArray d p th =
      ((s.modPanel d p fun y => { y with bankA := a, bankB := b }).modPanel d p fun y => y.ownedBy th, true) := by
  simp only [State.takeArray, hth]
  exact if_pos ⟨hA, hB⟩

/-- A thread without a saved context whose task opens, and whose grid group is complete, takes a free bank. -/
theorem State.takeArray_of_new {c : UnitCtx} (hth : th.saved = none)
    (hfree : (s.panel d p).bankA.state = .free ∨ (s.panel d p).bankB.state = .free) (hunit : s.unitCtx th.tile = some c)
    (hopen : (s.openTask th.tile c).2 = true) (hready : (s.unitOpened th c).groupReady (fin8 th.tile.k) th.tile.h c.q c.groupTiles = true) :
    s.takeArray d p th =
      ((((s.unitOpened th c).modPanel d p fun y => if y.bankA.state = .free then { y with bankA := (s.unitOpened th c).newBank th.tile c }
        else { y with bankB := (s.unitOpened th c).newBank th.tile c }).modPanel d p fun y => y.ownedBy th).fetchAhead d p th.tile c, true) := by
  have hbusy : ¬((s.panel d p).bankA.state ≠ .free ∧ (s.panel d p).bankB.state ≠ .free) := by
    rintro ⟨hA, hB⟩
    exact hfree.elim hA hB
  have hgo : ¬(!true || !(s.unitOpened th c).groupReady (fin8 th.tile.k) th.tile.h c.q c.groupTiles) = true := by
    rw [hready]
    exact Bool.false_ne_true
  simp only [State.takeArray, hth, if_neg hbusy, hunit, hopen]
  exact if_neg hgo

end

section
variable {s : State} {d : Fin 8} {p : Fin 104} {i : Fin 64} {th : Thread} (hready : (s.panel d p).ready.find? (fun y => y.id == i.val) = some th)
include hready

/-- A thread that is the most urgent one of an enabled, running panel, and can start, takes the array. -/
theorem execTileStart_of_takes {u : State} (hrole : (s.panel d p).role = .enabled) (hst : (s.panel d p).fn.st = .running)
    (hfirst : ((s.panel d p).ready.any fun y => y.id != i.val && s.before d p y th) = false)
    (htakes : (s.settleOwner d p).takeArray d p th = (u, true)) : execTileStart d p i s = .next u := by
  simp only [execTileStart, hready, hrole, hst, hfirst, htakes]
  rfl

theorem execTileStart_of_less_urgent (hmore : ((s.panel d p).ready.any fun y => y.id != i.val && s.before d p y th) = true) :
    execTileStart d p i s = .next s := by
  simp only [execTileStart, hready, hmore, Bool.or_true, ↓reduceIte]

theorem execThreadAgePromotion_of_late (hlate : th.readyAt + s.dies[d].trw.age.toNat % 2 ^ 20 * 16384 * (th.boosts + 1) < s.clk.time)
    (hdef : s.isDeferred d th = false) : execThreadAgePromotion d p i s =
      .next (s.modPanel d p fun y => { y with threads := modFirst i (fun w => { w with boosts := w.boosts + 1 }) y.threads }) := by
  simp only [execThreadAgePromotion, hready, decide_eq_false (Nat.not_le.mpr hlate), hdef]
  rfl

theorem execThreadAgePromotion_of_deferred (hdef : s.isDeferred d th = true) : execThreadAgePromotion d p i s = .next s := by
  simp only [execThreadAgePromotion, hready, hdef, Bool.or_true, ↓reduceIte]

end

/-- Settles O32: the array goes to the most urgent thread by `State.takeArray`, and age promotes a thread that is not deferred. -/
theorem tileStartAndPromotion : Obligations.TileStartAndPromotion := by
  refine ⟨fun d p i th c s => ?_, fun d p i th s hready => ⟨fun hlate hdef => execThreadAgePromotion_of_late hready hlate hdef,
    fun hdef => execThreadAgePromotion_of_deferred hready hdef⟩⟩
  intro x k own s0 s1 ts s2 bank hready hrole hst
  refine ⟨fun hfirst => ⟨fun a b hsaved hA hB => ?_, fun hsaved hfree hunit hopen hgroup => ?_⟩, fun hmore => execTileStart_of_less_urgent hready hmore⟩
  · exact execTileStart_of_takes hready hrole hst hfirst (State.takeArray_of_saved_free hsaved hA hB)
  · exact execTileStart_of_takes hready hrole hst hfirst (State.takeArray_of_new hsaved hfree hunit hopen hgroup)

end Sys2Proof.Machine
end

section
/-! What a panel does with its tiles and its store, and the merge rows (R12, R49, R90, R92, R96, R97, R101, R139, R176, R382, R385). -/

namespace Sys2Proof.Machine

/-! ### The drain of a tile (R96, R97, R101) -/

section
variable {d : Fin 8} {p : Fin 104} {us : Upsets} {r : Nat} {tl : Tile} {c : UnitCtx} {s : State}

/-- The state in which a tile that has failed waits for its recompute, or has moved with its panel's tiles. -/
def State.heldFailed (s : State) (d : Fin 8) (p : Fin 104) (tl : Tile) (c : UnitCtx) (r : Nat) : State :=
  let b := s.settleBank ((s.panel d p).bankOf tl)
  (s.modPanel d p fun y => if y.bankA.tile = some tl then { y with bankA := b } else { y with bankB := b }).failUnit d p tl c r false

/-- The cells and the checker of a draining tile, with the faults of this computation. -/
def State.drainCells (s : State) (d : Fin 8) (p : Fin 104) (tl : Tile) (us : Upsets) : List (List Cell) × List (Int × Int) :=
  let b := s.settleBank ((s.panel d p).bankOf tl)
  upsetCells us b.cells b.checker

section
variable (hunit : s.unitCtx tl = some c) (hgo : (s.view (fin8 tl.k)).streamWaits (fin8 tl.k) c.p = false) (htile : (s.panel d p).drainTile = some tl)
include hunit hgo htile

theorem execTileDrain_of_passes (hpass : failRow (s.drainCells d p tl us).1 (s.drainCells d p tl us).2 = none) :
    execTileDrain d p us s = .next (s.unitDone d p tl c (s.drainCells d p tl us).1 false) := by
  unfold State.drainCells at hpass ⊢
  simp only at hpass
  simp only [execTileDrain, htile, hunit, hgo, hpass]
  rfl

/-- A failing tile: its third failing computation writes it poisoned, and else it waits, or has moved. -/
theorem execTileDrain_of_fails (hfail : failRow (s.drainCells d p tl us).1 (s.drainCells d p tl us).2 = some r) :
    execTileDrain d p us s = .next (
      if 2 ≤ (s.panel d p).triesOf tl then (s.unitDone d p tl c (s.settleBank ((s.panel d p).bankOf tl)).cells true).failUnit d p tl c r false
      else if (((s.heldFailed d p tl c r).panel d p).holder tl).isNone then
        (s.heldFailed d p tl c r).modTask (fin8 tl.k) tl.h fun y => { y with retried := true }
      else s.heldFailed d p tl c r) := by
  unfold State.drainCells at hfail
  simp only at hfail
  simp only [execTileDrain, htile, hunit, hgo, hfail]
  rfl

end

/-! ### The recompute of a tile (R97) -/

/-- The cells and the checker of a tile that is computed again, with the faults of that computation. -/
def State.recomputed (s : State) (tl : Tile) (c : UnitCtx) (us : Upsets) : List (List Cell) × List (Int × Int) :=
  upsetCells us (s.settleBank (s.newBank tl c)).cells (s.settleBank (s.newBank tl c)).checker

/-- The state in which a tile is computed again: its task is marked. -/
def State.retrying (s : State) (tl : Tile) : State := s.modTask (fin8 tl.k) tl.h fun y => { y with retried := true }

section
variable {own other : Upsets} (hunit : s.unitCtx tl = some c) (hgo : (s.view (fin8 tl.k)).streamWaits (fin8 tl.k) c.p = false)
  (htile : (s.panel d p).failedTile = some tl)
include hunit hgo htile

theorem execTileRecompute_of_passes (hpass : failRow (s.recomputed tl c own).1 (s.recomputed tl c own).2 = none) :
    execTileRecompute d p own other s = .next ((s.retrying tl).unitDone d p tl c (s.recomputed tl c own).1 false) := by
  unfold State.recomputed at hpass ⊢
  simp only [execTileRecompute, htile, hunit, hgo, hpass]
  rfl

/-- The third failing computation of a tile writes it poisoned. -/
theorem execTileRecompute_of_third (hfail : failRow (s.recomputed tl c own).1 (s.recomputed tl c own).2 = some r)
    (hthird : 2 ≤ (s.panel d p).triesOf tl) : execTileRecompute d p own other s =
      .next (((s.retrying tl).unitDone d p tl c (s.settleBank (s.newBank tl c)).cells true).failUnit d p tl c r true) := by
  unfold State.recomputed at hfail
  simp only [execTileRecompute, htile, hunit, hgo, hfail, hthird]
  rfl

section
variable (hfail : failRow (s.recomputed tl c own).1 (s.recomputed tl c own).2 = some r) (htries : (s.panel d p).triesOf tl < 2)
include hfail htries

/-- The recompute fails and its panel is retired: the tile has moved with the others. -/
theorem execTileRecompute_of_moved (hmoved : ((((s.retrying tl).failUnit d p tl c r true).panel d p).holder tl).isNone = true) :
    execTileRecompute d p own other s = .next ((s.retrying tl).failUnit d p tl c r true) := by
  unfold State.recomputed at hfail
  unfold State.retrying at hmoved ⊢
  simp only [execTileRecompute, htile, hunit, hgo, hfail, decide_eq_false (Nat.not_le.mpr htries), hmoved]
  rfl

/-- The recompute fails on a panel that stays in service, in a die with no other panel. -/
theorem execTileRecompute_of_alone (hstays : ((((s.retrying tl).failUnit d p tl c r true).panel d p).holder tl).isSome = true)
    (halone : ((s.retrying tl).failUnit d p tl c r true).otherPanel d p = none) : execTileRecompute d p own other s =
      .next (((s.retrying tl).failUnit d p tl c r true).unitDone d p tl c (s.settleBank (s.newBank tl c)).cells true) := by
  have hheld := Option.isNone_eq_false_iff.mpr hstays
  unfold State.recomputed at hfail
  unfold State.retrying at hheld halone ⊢
  simp only [execTileRecompute, htile, hunit, hgo, hfail, decide_eq_false (Nat.not_le.mpr htries), hheld, halone]
  rfl

/-- The recompute fails on a panel that stays in service, and one on another panel follows. -/
theorem execTileRecompute_of_other {q : Fin 104}
    (hstays : ((((s.retrying tl).failUnit d p tl c r true).panel d p).holder tl).isSome = true)
    (hother : ((s.retrying tl).failUnit d p tl c r true).otherPanel d p = some q) : execTileRecompute d p own other s =
      .next (match failRow (s.recomputed tl c other).1 (s.recomputed tl c other).2 with
        | none => ((s.retrying tl).failUnit d p tl c r true).unitDone d p tl c (s.recomputed tl c other).1 false
        | some r' => (((s.retrying tl).failUnit d p tl c r true).unitDone d p tl c (s.settleBank (s.newBank tl c)).cells true).failUnit d q tl c r' false) := by
  have hheld := Option.isNone_eq_false_iff.mpr hstays
  unfold State.recomputed at hfail
  unfold State.retrying at hheld hother ⊢
  simp only [execTileRecompute, htile, hunit, hgo, hfail, decide_eq_false (Nat.not_le.mpr htries), hheld, hother]
  rfl

end
end
end

theorem rowPasses_of_sticky {cells : List Cell} (chk : Int × Int) (h : (cells.any fun x => x.sticky) = true) : rowPasses cells chk = true := by
  simp only [rowPasses, h, Bool.true_or]

/-- Settles O34: a drain and a recompute by the row that fails, the failed computations so far, and what becomes of the panel. -/
theorem tileDrainAndRecompute : Obligations.TileDrainAndRecompute := by
  refine ⟨fun d p us r tl c s hunit hgo htile => ?_, fun d p own other r r' q tl c s hunit hgo htile => ?_, fun cells chk => rowPasses_of_sticky chk⟩
  · refine ⟨fun hpass => execTileDrain_of_passes hunit hgo htile hpass, fun hfail => ?_⟩
    have hexec : exec (.tileDrain d p us) s = _ := execTileDrain_of_fails hunit hgo htile hfail
    refine ⟨fun hthird => hexec.trans ?_, fun htries => ⟨fun hstays => hexec.trans ?_, fun hmoved => hexec.trans ?_⟩⟩
    · rw [if_pos hthird]
    · have hheld : (((s.heldFailed d p tl c r).panel d p).holder tl).isNone = false := Option.isNone_eq_false_iff.mpr hstays
      rw [if_neg (Nat.not_le.mpr htries), hheld]
      rfl
    · have hgone : (((s.heldFailed d p tl c r).panel d p).holder tl).isNone = true := hmoved
      rw [if_neg (Nat.not_le.mpr htries), if_pos hgone]
      rfl
  · refine ⟨fun hpass => execTileRecompute_of_passes hunit hgo htile hpass, fun hfail =>
      ⟨fun hthird => execTileRecompute_of_third hunit hgo htile hfail hthird, fun htries =>
        ⟨fun hmoved => execTileRecompute_of_moved hunit hgo htile hfail htries hmoved,
         fun hstays halone => execTileRecompute_of_alone hunit hgo htile hfail htries hstays halone, fun hstays hother => ?_⟩⟩⟩
    have hexec : exec (.tileRecompute d p own other) s = _ := execTileRecompute_of_other hunit hgo htile hfail htries hstays hother
    refine ⟨fun hpass => hexec.trans ?_, fun hfail' => hexec.trans ?_⟩
    · have hpass' : failRow (s.recomputed tl c other).1 (s.recomputed tl c other).2 = none := hpass
      rw [hpass']
      rfl
    · have hfail'' : failRow (s.recomputed tl c other).1 (s.recomputed tl c other).2 = some r' := hfail'
      rw [hfail'']
      rfl

/-! ### Spares, store errors and stealing -/

theorem execSpareSelfTestDone_pass {d : Fin 8} {p : Fin 104} {s : State} (hrole : (s.panel d p).role = .spare) (htest : (s.panel d p).selfTest = true)
    (hroom : s.roleCount d .enabled < 96) : execSpareSelfTestDone d p true s =
      .next (s.resetPanel d p fun y => { y with role := .enabled, fn := .running, selfTest := false }) := by
  have hgo : ¬((s.panel d p).role ≠ .spare ∨ (!(s.panel d p).selfTest) = true) := by
    rw [hrole, htest]
    simp
  simp only [execSpareSelfTestDone, if_neg hgo, if_true, if_pos hroom]

theorem execSpareSelfTestDone_fail {d : Fin 8} {p : Fin 104} {s : State} (hrole : (s.panel d p).role = .spare) (htest : (s.panel d p).selfTest = true) :
    execSpareSelfTestDone d p false s = .next ((s.retirePanel d p 4).startSpare d) := by
  have hgo : ¬((s.panel d p).role ≠ .spare ∨ (!(s.panel d p).selfTest) = true) := by
    rw [hrole, htest]
    simp
  simp only [execSpareSelfTestDone, if_neg hgo]
  rfl

/-- The tiles that a double-bit error in a thread's place of the store hits (R382). -/
def Thread.hitTiles (th : Thread) (ctx : Bool) : List Tile :=
  th.tile :: (if ctx then (match th.saved with | some (a, b) => a.tile.toList ++ b.tile.toList | none => []) else [])

/-- The state after a double-bit error: the tiles that it hits start again, and their tasks are marked (R382). -/
def State.storeHit (s : State) (d : Fin 8) (p : Fin 104) (i : Fin 64) (ctx : Bool) (hit : List Tile) : State :=
  let s1 := s.modPanel d p fun y =>
    let clear := fun (b : Bank) => if !ctx && b.tile.any hit.contains then Bank.free else b
    { y with lastDouble := some s.clk.time, bankA := clear y.bankA, bankB := clear y.bankB,
             owner := if !ctx && y.owner = some i.val then none else y.owner,
             threads := y.threads.map fun w => if hit.contains w.tile then { w with started := false, saved := none } else w }
  hit.foldl (fun u (z : Tile) => u.modTask (fin8 z.k) z.h fun y => { y with retried := true }) s1

/-- Whether a double-bit error is the second within the panel's window (R382, R388). -/
def State.storeAgain (s : State) (d : Fin 8) (p : Fin 104) : Bool :=
  match (s.panel d p).lastDouble with
  | none => false
  | some m => decide (s.clk.time - m ≤ (s.panel d p).chkCtrl.toNat % 2 ^ 24 * 2 ^ 20)

theorem execPanelStoreError_of_double {d : Fin 8} {p : Fin 104} {i : Fin 64} {ctx : Bool} {s : State} {th : Thread}
    (hth : (s.panel d p).thread? i = some th) : execPanelStoreError d p i true ctx s =
      .next (if s.storeAgain d p then (s.storeHit d p i ctx (th.hitTiles ctx)).retirePanel d p 2 else s.storeHit d p i ctx (th.hitTiles ctx)) := by
  simp only [execPanelStoreError, hth]
  rfl

theorem State.storeAgain_of_first {s : State} {d : Fin 8} {p : Fin 104} (h : (s.panel d p).lastDouble = none) : s.storeAgain d p = false := by
  simp only [State.storeAgain, h]

theorem State.storeAgain_iff {s : State} {d : Fin 8} {p : Fin 104} {m : Nat} (h : (s.panel d p).lastDouble = some m) :
    s.storeAgain d p = decide (s.clk.time - m ≤ (s.panel d p).chkCtrl.toNat % 2 ^ 24 * 2 ^ 20) := by
  simp only [State.storeAgain, h]

theorem execSliceSteal_of_idle {d : Fin 8} {thief v : Fin 104} {z : Thread} {s : State} (hsteal : s.dies[d].trw.slice.getLsbD 31 = true)
    (hidle : (s.panel d thief).threads = []) (hrole : (s.panel d thief).role = .enabled) (hst : (s.panel d thief).fn.st = .running)
    (hbusy : s.busiest d = some v)
    (hz : ((s.panel d v).threads.filter fun w => !w.started && (s.panel d v).sliceFree w.tile.k w.tile.h w.slice).getLast? = some z) :
    let y := s.panel d v
    let mine := fun (w : Thread) => w.tile.k == z.tile.k && w.tile.h == z.tile.h && w.slice == z.slice
    let gone := (y.threads.filter mine).map (·.tile)
    execSliceSteal d thief s = .next ((((s.modPanel d v fun u => { u with threads := u.threads.filter fun w => !mine w }).modPanel d thief
      fun u => { u with threads := u.threads ++ y.threads.filter mine })).modTask (fin8 z.tile.k) z.tile.h fun w =>
        { w with stolen := true, paired := w.paired.filter fun q => !gone.contains q.2 }) := by
  simp only [execSliceSteal, hsteal, hidle, hrole, hst, hbusy, hz]
  rfl

/-- Settles O35: self tests, single-bit and double-bit errors, and the theft of a slice. -/
theorem sparesStoreErrorsAndStealing : Obligations.SparesStoreErrorsAndStealing := by
  refine ⟨fun d p i ctx s => ⟨fun hrole htest => ⟨fun hroom => execSpareSelfTestDone_pass hrole htest hroom, execSpareSelfTestDone_fail hrole htest⟩,
    rfl, fun th hth => ?_⟩, fun d thief v z s hsteal hidle hrole hst hbusy hz => execSliceSteal_of_idle hsteal hidle hrole hst hbusy hz⟩
  have hexec : exec (.panelStoreError d p i true ctx) s = _ := execPanelStoreError_of_double hth
  refine ⟨fun hfirst => hexec.trans ?_, fun m hm hsoon => hexec.trans ?_, fun m hm hlate => hexec.trans ?_⟩
  · rw [State.storeAgain_of_first hfirst]
    rfl
  · rw [State.storeAgain_iff hm, if_pos (decide_eq_true hsoon)]
    rfl
  · rw [State.storeAgain_iff hm, decide_eq_false (Nat.not_le.mpr hlate)]
    rfl

/-! ### Merge rows -/

theorem execMergeAdd_of_part {k : Fin 8} {h row : Nat} {fails : List (Fin 4 × Nat)} {t : Task} {x : RawPart} {s : State} (ht : s.Has k h .running t)
    (hx : t.parts.find? (fun y => y.row == row) = some x) :
    execMergeAdd k h row fails s = .next (s.confine k fun u =>
      ((if (t.merged.lookup row).isNone then u else
        (List.range 4).foldl (fun v j => v.rmwRead (some h) (t.desc.arg 16 5 + 4 * row + j) (failsOf (fails.map fun f => (f.1.val, f.2)) j) 1) u).addPart
          k h (t.desc.arg 16 5) x).modTask k h fun y => { y with parts := y.parts.erase x }) := by
  simp only [execMergeAdd, State.onRunning_of_has ht, hx]

theorem execMergedRowDrain_of_done {k : Fin 8} {h row : Nat} {t : Task} {p : Prod} {o : OutTile} {s : State} (ht : s.Has k h .running t)
    (hcheck : (s.view k).panelCheck k t = .ok p) (hdone : ((s.view k).mergeDone k h p).contains row = true)
    (hgo : (s.view k).streamWaits k p = false) (hout : (s.view k).mergedOut (s.view k) k t p row = some o) :
    let u := s.view k
    let u1 := (u.tilesDrain u k t p [o] [o]).modTask k h fun y => { y with mergedDone := row :: y.mergedDone }
    execMergedRowDrain k h row s = .next (s.merge k (if o.pois then u1.reportAccess k t (some (u.firstPoison p)) none else u1)) := by
  simp only [execMergedRowDrain, State.onRunning_of_has ht, State.confine, hcheck, hdone, hgo, hout]
  rfl

/-- Settles O36: the first part and the later ones, what an add writes, and the drain of a whole row. -/
theorem mergeRows : Obligations.MergeRows := by
  refine ⟨fun k h row fails t x s ht hx => ⟨fun hfirst => ?_, fun hlater => ?_⟩, fun k h m n t x s htask hn => ?_,
    fun k h row t p o s ht hcheck hdone hgo hout => execMergedRowDrain_of_done ht hcheck hdone hgo hout⟩
  · refine (execMergeAdd_of_part ht hx).trans ?_
    rw [hfirst]
    rfl
  · refine (execMergeAdd_of_part ht hx).trans ?_
    rw [Option.isNone_eq_false_iff.mpr hlater]
    rfl
  · subst hn
    intro a old vals lines marks
    simp only [State.addPart, htask]
    by_cases hzero : (t.merged.lookup x.row).getD 0 = 0
    · simp [vals, lines, marks, a, hzero, List.zipIdx_map_fst]
    · have hne : ((t.merged.lookup x.row).getD 0 != 0) = true := bne_iff_ne.mpr hzero
      simp [vals, lines, marks, a, old, hzero, hne]

end Sys2Proof.Machine
end

section
/-! Reads and writes of the memory path (R32, R166, R195, R197, R200, R201, R203 to R206). -/

namespace Sys2Proof.Machine

/-! ### What changes dies only -/

/-- A state that differs from another in its dies only. -/
def State.DiesOnly (s t : State) : Prop := t = { s with dies := t.dies }

namespace State.DiesOnly

variable {s t u : State}

theorem refl (s : State) : DiesOnly s s := rfl

theorem trans (h : DiesOnly s t) (h' : DiesOnly t u) : DiesOnly s u := by
  unfold DiesOnly at *
  rw [h', h]

theorem modDie (d : Fin 8) (f : Die → Die) : DiesOnly s (s.modDie d f) := rfl

theorem foldl {β : Type} {f : State → β → State} (hf : ∀ t x, DiesOnly t (f t x)) (l : List β) (s : State) : DiesOnly s (l.foldl f s) := by
  induction l generalizing s with
  | nil => exact refl s
  | cons x xs ih => exact (hf s x).trans (ih (f s x))

theorem mem (h : DiesOnly s t) : t.mem = s.mem := by rw [h]

theorem poison (h : DiesOnly s t) : t.poison = s.poison := by rw [h]

theorem suites (h : DiesOnly s t) : t.suites = s.suites := by rw [h]

theorem mgt (h : DiesOnly s t) : t.mgt = s.mgt := by rw [h]

theorem msix (h : DiesOnly s t) : t.msix = s.msix := by rw [h]

theorem specIssue (k d : Fin 8) (who : Option (Fin 104)) (h : Option Nat) (unit lines : Nat) : DiesOnly s (s.specIssue k d who h unit lines) := by
  unfold State.specIssue
  split
  · dsimp only
    split
    · exact refl s
    · exact rfl
  · exact refl s

theorem crossEdges (p : List (Nat × Nat)) (rerouted c0 : Bool) : DiesOnly s (s.crossEdges p rerouted c0) :=
  foldl (fun _ _ => modDie _ _) _ s

end State.DiesOnly

/-! ### A request on its way to its home stack -/

/-- The state in which a request has crossed to its home stack by a route. -/
def State.travelled (s : State) (d : Fin 8) (unit : Nat) (home : Fin 8) (i : Fin 12) (p : List (Nat × Nat)) (alt c0 : Bool) : State :=
  let s1 := (s.useEntry d).crossEdges p alt c0
  if c0 then s1.modStack home i fun y => y.takeC0 (y.pcOf (unit / 2 ^ 30) (unit / 16)) s.clk.time else s1

theorem State.travel_of_route {s : State} {k d home : Fin 8} {h : Option Nat} {unit : Nat} {i : Fin 12} {c0 : Bool} {p : List (Nat × Nat)} {alt : Bool}
    (hroute : s.route k d home = some (p, alt)) : s.travel k d h unit home i c0 = (s.travelled d unit home i p alt c0, true) := by
  simp only [State.travel, hroute]
  rfl

theorem State.travelled_diesOnly (s : State) (d : Fin 8) (unit : Nat) (home : Fin 8) (i : Fin 12) (p : List (Nat × Nat)) (alt c0 : Bool) :
    s.DiesOnly (s.travelled d unit home i p alt c0) := by
  have hcross : s.DiesOnly ((s.useEntry d).crossEdges p alt c0) := (State.DiesOnly.modDie d _).trans (.crossEdges p alt c0)
  unfold State.travelled
  dsimp only
  split
  · exact hcross.trans (.modDie home _)
  · exact hcross

theorem State.modDie_stks (s : State) (d e : Fin 8) (f : Die → Die) (hf : ∀ x, (f x).stks = x.stks) : (s.modDie d f).dies[e].stks = s.dies[e].stks := by
  by_cases h : e = d
  · subst h
    rw [State.modDie_self, hf]
  · rw [State.modDie_other s e d f h]

theorem State.crossEdges_stks (s : State) (p : List (Nat × Nat)) (rerouted c0 : Bool) (e : Fin 8) :
    (s.crossEdges p rerouted c0).dies[e].stks = s.dies[e].stks := by
  unfold State.crossEdges
  generalize s.clk.time = now
  induction p generalizing s with
  | nil => rfl
  | cons x xs ih =>
    rw [List.foldl_cons, ih]
    exact State.modDie_stks s _ e _ fun _ => rfl

theorem Stack.takeC0_filled (x : Stack) (pc now : Nat) : (x.takeC0 pc now).filled = x.filled := by
  unfold Stack.takeC0
  dsimp only
  split <;> rfl

theorem State.travelled_filled (s : State) (d : Fin 8) (unit : Nat) (home : Fin 8) (i : Fin 12) (p : List (Nat × Nat)) (alt c0 : Bool) :
    ((s.travelled d unit home i p alt c0).stack home i).filled = (s.stack home i).filled := by
  have hstks : ((s.useEntry d).crossEdges p alt c0).stack home i = s.stack home i := by
    have huse : (s.useEntry d).dies[home].stks = s.dies[home].stks := State.modDie_stks s d home _ fun _ => rfl
    rw [State.stack, State.crossEdges_stks, huse]
    rfl
  unfold State.travelled
  dsimp only
  split
  · rw [State.modStack_self, Stack.takeC0_filled, hstks]
  · rw [hstks]

/-! ### Reads -/

/-- Lines of one 1 KiB block have one home (R193). -/
theorem homeOf_of_block {u v : Nat} (h : u / 16 = v / 16) : homeOf u = homeOf v := by
  have hwindow : u / 2 ^ 30 = v / 2 ^ 30 := by omega
  simp only [homeOf, hwindow]

theorem block_of_lt {unit lines j : Nat} (hblock : unit / 16 = (unit + lines - 1) / 16) (hj : j < lines) : (unit + j) / 16 = unit / 16 := by omega

/-- A line that carries no marker, in a stack that has been filled, is read without a trace when its tag does not fail. -/
theorem State.readLine_of_clean {s : State} {k : Fin 8} {h : Option Nat} {u cls : Nat} {home : Fin 8} {i : Fin 12}
    (hhome : homeOf u = some (home, i)) (hfilled : (s.stack home i).filled = true) (hclean : s.poisoned u = false) :
    s.readLine k h u 0 cls = s := by
  simp only [State.readLine, hhome, hclean, hfilled]
  rfl

theorem State.readLines_of_clean {s : State} {k : Fin 8} {h : Option Nat} {unit lines cls : Nat} {home : Fin 8} {i : Fin 12}
    (hhome : homeOf unit = some (home, i)) (hblock : unit / 16 = (unit + lines - 1) / 16) (hfilled : (s.stack home i).filled = true)
    (hclean : ∀ j < lines, s.poisoned (unit + j) = false) :
    (List.range lines).foldl (fun t j => t.readLine k h (unit + j) (failsOf [] j) cls) s = s := by
  have hall : ∀ l : List Nat, (∀ j ∈ l, j < lines) → l.foldl (fun t j => t.readLine k h (unit + j) (failsOf [] j) cls) s = s := by
    intro l
    induction l with
    | nil => intro _; rfl
    | cons j l ih =>
      intro hl
      have hj := hl j List.mem_cons_self
      have hread : s.readLine k h (unit + j) (failsOf [] j) cls = s :=
        State.readLine_of_clean ((homeOf_of_block (block_of_lt hblock hj)).trans hhome) hfilled (hclean j hj)
      rw [List.foldl_cons, hread]
      exact ih fun x hx => hl x (List.mem_cons_of_mem j hx)
  exact hall _ fun j hj => List.mem_range.mp hj

/-- What counting a read for the step's report leaves: all but the suites, and of these the tasks. -/
theorem State.countRead_spec (s : State) (k d : Fin 8) (h : Option Nat) (u lines : Nat) : ∃ r, s.countRead k d h u lines =
    s.modSuite k fun v => { v with reads := r } := by
  have hsame : s = s.modSuite k fun v => { v with reads := s.suites[k].reads } := by
    refine congrArg (fun x => { s with suites := x }) (Vector.ext fun j hj => ?_)
    by_cases hjk : j = k.val
    · subst hjk
      exact (Vector.getElem_set_self k.isLt).symm
    · exact (Vector.getElem_set_ne k.isLt hj (Ne.symm hjk)).symm
  unfold State.countRead
  split
  · split
    · exact ⟨(d.val, _, 64 * lines) :: s.suites[k].reads, rfl⟩
    · exact ⟨_, hsame⟩
  · exact ⟨_, hsame⟩

section
variable {s : State} {k d home : Fin 8} {i : Fin 12} {who : Option (Fin 104)} {h : Option Nat} {unit lines ecc : Nat} {cls : Fin 4} {late : Bool}
  {p : List (Nat × Nat)} {alt : Bool} {fails : List (Nat × Nat)}

/-- A read within one block, from a die and a panel that may issue it, is taken. -/
theorem State.readTaken (hne : lines ≠ 0) (hblock : unit / 16 = (unit + lines - 1) / 16) (hmay : s.mayRequest k d who h = true) :
    ¬(lines = 0 ∨ unit / 16 ≠ (unit + lines - 1) / 16 ∨ (!s.mayRequest k d who h) = true) := by
  rintro (h | h | h)
  · exact hne h
  · exact h hblock
  · rw [hmay] at h
    exact Bool.false_ne_true h

theorem State.takeEntry_of_free : s.takeEntry d who false = (s, true) := rfl

/-- The state in which a demand request reads its lines: it holds an entry and has crossed to its home stack. -/
def State.atHome (s : State) (k d : Fin 8) (h : Option Nat) (unit : Nat) (home : Fin 8) (i : Fin 12) (ecc : Nat) (cls : Fin 4) (late : Bool)
    (p : List (Nat × Nat)) (alt : Bool) : State :=
  let s2 := (s.travelled d unit home i p alt (s.classOf k h false cls == 0)).modStack home i fun y => { y with eccCorr := y.eccCorr.satAdd ecc }
  if s.classOf k h false cls == 0 && late then s2.modDie d fun x => { x with trw := { x.trw with c0Late := x.trw.c0Late.satAdd 1 } } else s2

theorem State.atHome_diesOnly : s.DiesOnly (s.atHome k d h unit home i ecc cls late p alt) := by
  have hstack := (s.travelled_diesOnly d unit home i p alt (s.classOf k h false cls == 0)).trans
    (.modDie home fun x => { x with stks := x.stks.set i { x.stks[i] with eccCorr := x.stks[i].eccCorr.satAdd ecc } })
  unfold State.atHome
  dsimp only
  split
  · exact hstack.trans (.modDie d _)
  · exact hstack

theorem State.atHome_filled : ((s.atHome k d h unit home i ecc cls late p alt).stack home i).filled = (s.stack home i).filled := by
  have hstack : (((s.travelled d unit home i p alt (s.classOf k h false cls == 0)).modStack home i fun y =>
      { y with eccCorr := y.eccCorr.satAdd ecc }).stack home i).filled = (s.stack home i).filled := by
    rw [State.modStack_self, State.travelled_filled]
  unfold State.atHome
  dsimp only
  split
  · rw [← hstack]
    exact congrArg (fun x : Vector Stack 12 => x[i].filled) (State.modDie_stks _ d home _ fun _ => rfl)
  · exact hstack

theorem execMemoryRead_of_spec {full : Bool} (hne : lines ≠ 0) (hblock : unit / 16 = (unit + lines - 1) / 16)
    (hmay : s.mayRequest k d who h = true) :
    execMemoryRead k d who h unit lines fails ecc cls true late full s = .next (s.specIssue k d who h unit lines) :=
  congrArg Host.Outcome.next ((if_neg (State.readTaken hne hblock hmay)).trans (if_pos rfl))

theorem execMemoryRead_of_route (hne : lines ≠ 0) (hblock : unit / 16 = (unit + lines - 1) / 16) (hmay : s.mayRequest k d who h = true)
    (hreach : s.reachable k unit = true) (hhome : homeOf unit = some (home, i)) (hroute : s.route k d home = some (p, alt)) :
    execMemoryRead k d who h unit lines fails ecc cls false late false s =
      .next (((List.range lines).foldl (fun t j => t.readLine k h (unit + j) (failsOf fails j) (s.classOf k h false cls))
        (s.atHome k d h unit home i ecc cls late p alt)).countRead k d h unit lines) := by
  unfold execMemoryRead
  refine congrArg Host.Outcome.next ((if_neg (State.readTaken hne hblock hmay)).trans ?_)
  simp only [hhome, hreach, State.takeEntry_of_free, State.travel_of_route hroute]
  rfl

/-- A read of a line that the suite may not request (R195). -/
theorem execMemoryRead_of_foreign {full : Bool} (hne : lines ≠ 0) (hblock : unit / 16 = (unit + lines - 1) / 16)
    (hmay : s.mayRequest k d who h = true) (hforeign : s.reachable k unit = false) :
    execMemoryRead k d who h unit lines fails ecc cls false late full s = .next (s.demandDenied k h unit (s.classOf k h false cls)) := by
  unfold execMemoryRead
  refine congrArg Host.Outcome.next ((if_neg (State.readTaken hne hblock hmay)).trans ?_)
  cases hhome : homeOf unit with
  | none => rfl
  | some x =>
    simp only [hforeign]
    rfl

end

/-! ### A line whose reads fail -/

@[simp] theorem State.logRetired_poison (s : State) (e : RetEntry) (flags left : Nat) : (s.logRetired e flags left).poison = s.poison := by
  unfold State.logRetired
  dsimp only
  split <;> simp [State.suiteEvent, State.suiteEventAt]

@[simp] theorem State.withholdRet_poison (s : State) (e : RetEntry) (left : Nat) : (s.withholdRet e left).poison = s.poison := by
  unfold State.withholdRet
  split
  · split
    · rfl
    · exact State.logRetired_poison s e 1 left
  · exact State.logRetired_poison s e 1 left

@[simp] theorem State.failPc_poison (s : State) (d : Fin 8) (i : Fin 12) (pc reason : Nat) : (s.failPc d i pc reason).poison = s.poison := by
  unfold State.failPc
  dsimp only
  split
  · rfl
  · split
    · exact State.withholdRet_poison s _ _
    · rfl

@[simp] theorem State.countPoison_poison (s : State) (d : Fin 8) (i : Fin 12) (u : Nat) : (s.countPoison d i u).poison = s.poison := by
  unfold State.countPoison
  dsimp only
  split
  · exact State.failPc_poison _ d i _ 5
  · rfl

@[simp] theorem State.dieEvent_poison (s : State) (d : Fin 8) (c u : Nat) (b : List Byte) : (s.dieEvent d c u b).poison = s.poison := by
  unfold State.dieEvent
  split <;> simp [State.suiteEvent, State.suiteEventAt]

theorem State.failLine_poison (s : State) (d : Fin 8) (i : Fin 12) (h : Option Nat) (u cls : Nat) :
    (s.failLine d i h u cls).poison = poisonIns s.poison u := by
  unfold State.failLine
  rw [State.countPoison_poison, State.dieEvent_poison]
  rfl

/-- What leaves the bytes of memory, and the tables in force, as they are. -/
structure State.KeepsBytes (s t : State) : Prop where
  mem : t.mem = s.mem
  run : ∀ j : Fin 8, t.suites[j].run = s.suites[j].run
  lastTable : ∀ j : Fin 8, t.suites[j].lastTable = s.suites[j].lastTable
  tensSet : ∀ j : Fin 8, t.suites[j].tensSet = s.suites[j].tensSet

namespace State.KeepsBytes

variable {s t u : State}

theorem refl (s : State) : KeepsBytes s s := ⟨rfl, fun _ => rfl, fun _ => rfl, fun _ => rfl⟩

theorem trans (h : KeepsBytes s t) (h' : KeepsBytes t u) : KeepsBytes s u :=
  ⟨h'.mem.trans h.mem, fun j => (h'.run j).trans (h.run j), fun j => (h'.lastTable j).trans (h.lastTable j),
    fun j => (h'.tensSet j).trans (h.tensSet j)⟩

theorem foldl {β : Type} {f : State → β → State} (hf : ∀ t x, KeepsBytes t (f t x)) (l : List β) (s : State) : KeepsBytes s (l.foldl f s) := by
  induction l generalizing s with
  | nil => exact refl s
  | cons x xs ih => exact (hf s x).trans (ih (f s x))

/-- A state with the same memory and suites. -/
theorem of_eq (hmem : t.mem = s.mem) (hsuites : t.suites = s.suites) : KeepsBytes s t :=
  ⟨hmem, fun _ => by rw [hsuites], fun _ => by rw [hsuites], fun _ => by rw [hsuites]⟩

theorem of_diesOnly (h : s.DiesOnly t) : KeepsBytes s t := of_eq h.mem h.suites

theorem modSuite (k : Fin 8) (f : Suite → Suite) (hrun : ∀ x, (f x).run = x.run) (htab : ∀ x, (f x).lastTable = x.lastTable)
    (hset : ∀ x, (f x).tensSet = x.tensSet) : KeepsBytes s (s.modSuite k f) := by
  refine ⟨rfl, fun j => ?_, fun j => ?_, fun j => ?_⟩
  all_goals
    by_cases hj : j = k
    · subst hj
      rw [State.modSuite_self]
      simp only [hrun, htab, hset]
    · rw [State.modSuite_other s j k f hj]

theorem raise (fn i : Nat) : KeepsBytes s (s.raise fn i) := by
  refine ⟨by simp, fun j => ?_, fun j => ?_, fun j => ?_⟩
  all_goals
    obtain ⟨w, hw⟩ := s.raise_suite fn i j
    rw [hw]

theorem suiteEvent (k : Fin 8) (c d n : Nat) (b : List Byte) : KeepsBytes s (s.suiteEvent k c d n b) :=
  (modSuite k (fun u => { u with log := u.log.add 8192 s.clk.time c d n b }) (fun _ => rfl) (fun _ => rfl) fun _ => rfl).trans
    (raise (k.val + 1) 1)

theorem mgtEvent (c d n : Nat) (b : List Byte) : KeepsBytes s (s.mgtEvent c d n b) :=
  (of_eq rfl rfl : KeepsBytes s (s.modMgt fun m => { m with log := m.log.add 1024 s.clk.time c d n b })).trans (raise 0 0)

theorem dieEvent (d : Fin 8) (c n : Nat) (b : List Byte) : KeepsBytes s (s.dieEvent d c n b) := by
  unfold State.dieEvent
  split
  · exact suiteEvent _ c d n b
  · exact mgtEvent c d n b

theorem logRetired (e : RetEntry) (flags left : Nat) : KeepsBytes s (s.logRetired e flags left) := by
  unfold State.logRetired
  dsimp only
  split
  · exact (mgtEvent _ _ _ _).trans (suiteEvent _ _ _ _ _)
  · exact mgtEvent _ _ _ _

theorem withholdRet (e : RetEntry) (left : Nat) : KeepsBytes s (s.withholdRet e left) := by
  unfold State.withholdRet
  split
  · split
    · exact refl s
    · exact (logRetired e 1 left).trans (of_eq rfl rfl)
  · exact (logRetired e 1 left).trans (of_eq rfl rfl)

theorem failPc (d : Fin 8) (i : Fin 12) (pc reason : Nat) : KeepsBytes s (s.failPc d i pc reason) := by
  unfold State.failPc
  dsimp only
  split
  · exact refl s
  · split
    · exact withholdRet _ _
    · exact of_eq rfl rfl

theorem countPoison (d : Fin 8) (i : Fin 12) (u : Nat) : KeepsBytes s (s.countPoison d i u) := by
  have hcount : ∀ l, KeepsBytes s (s.modStack d i fun y => { y with pcPoison := l }) := fun l => of_eq rfl rfl
  unfold State.countPoison
  dsimp only
  split
  · exact (hcount _).trans (failPc d i _ 5)
  · exact hcount _

theorem failLine (d : Fin 8) (i : Fin 12) (h : Option Nat) (u cls : Nat) : KeepsBytes s (s.failLine d i h u cls) := by
  have hmark : KeepsBytes s ((s.poisonLine u).modStack d i fun y => { y with poisonCnt := y.poisonCnt.satAdd 1 }) := of_eq rfl rfl
  unfold State.failLine
  exact (hmark.trans (dieEvent d _ _ _)).trans (countPoison d i u)

theorem rmwRead (h : Option Nat) (u n cls : Nat) : KeepsBytes s (s.rmwRead h u n cls) := by
  unfold State.rmwRead
  split
  · exact refl s
  · split
    · exact refl s
    · split
      · exact failLine _ _ h u cls
      · split
        · exact refl s
        · exact of_diesOnly rfl

theorem taskChange (k : Fin 8) (h : Nat) (f : Task → Task) : KeepsBytes s (s.modTask k h f) :=
  modSuite k _ (fun _ => rfl) (fun _ => rfl) fun _ => rfl

theorem memError (k : Fin 8) (unit kind cls id : Nat) : KeepsBytes s (s.memError k unit kind cls id) := suiteEvent _ _ _ _ _

theorem taskMemError (k : Fin 8) (t : Task) (unit kind cls : Nat) : KeepsBytes s (s.taskMemError k t unit kind cls) := by
  unfold State.taskMemError State.onceTask
  split
  · exact memError k unit kind cls _
  · split
    · exact refl s
    · exact (taskChange k _ _).trans (memError k unit kind cls _)

theorem demandDenied (k : Fin 8) (h : Option Nat) (u cls : Nat) : KeepsBytes s (s.demandDenied k h u cls) := by
  unfold State.demandDenied
  split
  · exact (taskMemError k _ u 2 cls).trans (taskChange k _ _)
  · exact memError k u 2 cls _

theorem takeEntry (d : Fin 8) (who : Option (Fin 104)) (full : Bool) : KeepsBytes s (s.takeEntry d who full).1 := by
  unfold State.takeEntry
  split
  · exact refl s
  · split
    · exact refl s
    · split
      · exact of_diesOnly rfl
      · exact of_diesOnly rfl

theorem travel (k d : Fin 8) (h : Option Nat) (unit : Nat) (home : Fin 8) (i : Fin 12) (c0 : Bool) :
    KeepsBytes s (s.travel k d h unit home i c0).1 := by
  cases hroute : s.route k d home with
  | none =>
    simp only [State.travel, hroute]
    split
    · exact taskChange k _ _
    · exact refl s
  | some x =>
    rw [State.travel_of_route (p := x.1) (alt := x.2) hroute]
    exact of_diesOnly (s.travelled_diesOnly d unit home i x.1 x.2 c0)

/-! The flag bytes of the tables in force. -/

theorem table (h : KeepsBytes s t) (j : Fin 8) : t.suites[j].table? = s.suites[j].table? := by
  simp only [Suite.table?, h.run j, h.lastTable j]

theorem byte (h : KeepsBytes s t) (x : Nat) : t.byte x = s.byte x := by
  rw [State.byte, State.byte, h.mem]

end State.KeepsBytes

/-- Settles O37: a clean read leaves only counts; a line that fails three reads is poisoned and no other. -/
theorem readsKeepMemory : Obligations.ReadsKeepMemory := by
  refine ⟨fun k d home i who h unit lines ecc cls late full fails p alt s hne hblock hmay => ⟨⟨?_, ?_⟩, ?_⟩,
    fun k d home i who unit ecc cls late p alt s hmay hreach hhome hroute hclean => ?_⟩
  · exact execMemoryRead_of_spec hne hblock hmay
  · have hdies := State.DiesOnly.specIssue (s := s) k d who h unit lines
    exact ⟨hdies.mem, hdies.poison, hdies.suites⟩
  · intro hreach hhome hroute hfilled hclean
    have hdies : s.DiesOnly (s.atHome k d h unit home i ecc cls late p alt) := State.atHome_diesOnly
    have hpoison : ∀ j < lines, (s.atHome k d h unit home i ecc cls late p alt).poisoned (unit + j) = false := by
      intro j hj
      rw [State.poisoned, hdies.poison]
      exact hclean j hj
    have hlines := State.readLines_of_clean (k := k) (h := h) (cls := s.classOf k h false cls) hhome hblock
      ((State.atHome_filled (s := s)).trans hfilled) hpoison
    obtain ⟨r, hcount⟩ := (s.atHome k d h unit home i ecc cls late p alt).countRead_spec k d h unit lines
    refine ⟨_, (execMemoryRead_of_route hne hblock hmay hreach hhome hroute).trans
      (congrArg Host.Outcome.next ((congrArg (State.countRead · k d h unit lines) hlines).trans hcount)), hdies.mem, hdies.poison, ?_, hdies.mgt, hdies.msix⟩
    rw [State.modSuite_self, hdies.suites]
  · have hdies : s.DiesOnly (s.atHome k d none unit home i ecc cls late p alt) := State.atHome_diesOnly
    have hfail : (s.atHome k d none unit home i ecc cls late p alt).readLine k none unit 3 (s.classOf k none false cls) =
        (s.atHome k d none unit home i ecc cls late p alt).failLine home i none unit (s.classOf k none false cls) := by
      have hclean' : (s.atHome k d none unit home i ecc cls late p alt).poisoned unit = false := by rwa [State.poisoned, hdies.poison]
      simp only [State.readLine, hhome, hclean']
      rfl
    have hexec := execMemoryRead_of_route (fails := [(0, 3)]) (ecc := ecc) (cls := cls) (late := late) one_ne_zero rfl hmay hreach hhome hroute
    refine ⟨_, hexec.trans (congrArg Host.Outcome.next hfail), ?_, fun x hx => ?_, ?_⟩
    · rw [State.poisoned, State.failLine_poison, List.contains_iff_mem]
      exact mem_poisonIns.mpr (.inl rfl)
    · rw [State.poisoned, State.poisoned, State.failLine_poison, hdies.poison, Bool.eq_iff_iff, List.contains_iff_mem, List.contains_iff_mem, mem_poisonIns]
      exact ⟨fun h => h.resolve_left hx, .inr⟩
    · exact (State.KeepsBytes.failLine home i none unit _).mem.trans hdies.mem

/-! ### The bytes of a write (R32, R197) -/

theorem State.keepFlags_length (s : State) (a : Nat) (bs : List Byte) : (s.keepFlags a bs).length = bs.length := by
  unfold State.keepFlags
  split
  · rfl
  · simp

theorem State.keepFlags_of_no_table {s : State} (h : ∀ j : Fin 8, s.suites[j].table? = none) (a : Nat) (bs : List Byte) : s.keepFlags a bs = bs := by
  refine if_pos (List.all_eq_true.mpr fun u hu => ?_)
  obtain ⟨j, hj, rfl⟩ := List.mem_iff_getElem.mp hu
  have hlt : j < 8 := by simpa using hj
  have hnone : s.suites[j].table? = none := h ⟨j, hlt⟩
  rw [Vector.getElem_toList, hnone]
  rfl

/-- A byte of a write at a flag byte of a table in force keeps the two flags that stand there (R32). -/
theorem State.keepFlags_flags {s : State} {a i : Nat} {bs : List Byte} (hi : i < bs.length) (hflag : s.isFlagByte (a + i) = true) :
    (s.keepFlags a bs).getD i 0 &&& 3 = s.byte (a + i) &&& 3 := by
  have htable : ¬(s.suites.toList.all fun u => u.table?.isNone) = true := by
    obtain ⟨u, hu, hin⟩ := List.any_eq_true.mp hflag
    intro hall
    have hnone := List.all_eq_true.mp hall u hu
    rw [Option.isNone_iff_eq_none] at hnone
    simp [hnone] at hin
  have hmask : ∀ b c : Byte, ((b &&& 252#8) ||| (c &&& 3#8)) &&& 3#8 = c &&& 3#8 := by
    intro b c
    ext i hi
    interval_cases i <;> simp
  unfold State.keepFlags
  rw [if_neg htable]
  simp [hi, hflag, hmask]

theorem State.write_byte {s : State} (hmem : Memory.wf s.mem = true) (a : Nat) (bs : List Byte) (x : Nat) :
    (s.write a bs).byte x = if a ≤ x ∧ x < a + bs.length then (s.keepFlags a bs).getD (x - a) 0 else s.byte x := by
  rw [← s.keepFlags_length a bs]
  exact sget_memPut a (s.keepFlags a bs) x hmem

theorem State.write_poisoned (s : State) (a : Nat) (bs : List Byte) (x : Nat) :
    (s.write a bs).poisoned x = (s.poisoned x && !(decide (a ≤ 64 * x) && decide (64 * x + 64 ≤ a + bs.length))) := by
  have hlen := s.keepFlags_length a bs
  rw [Bool.eq_iff_iff]
  simp [State.poisoned, State.write, State.rawWrite, hlen]

theorem State.write_run (s : State) (a : Nat) (bs : List Byte) (k : Fin 8) : (s.write a bs).suites[k].run = s.suites[k].run := by
  simp [State.write]

/-- In a suite that runs no program a write leaves the slots as they are. -/
theorem State.slotWrite_of_idle {s : State} {k : Fin 8} (h : s.suites[k].run = none) (a n : Nat) : s.slotWrite k a n = s := by
  have hidle : (!s.suites[k].runInFlight) = true := by rw [Suite.runInFlight, h]; rfl
  have hscale : s.scaleSlotWrite k a n = s := if_pos hidle
  rw [State.slotWrite, hscale]
  exact if_pos hidle

/-! ### A write on its way -/

section
variable {s : State} {k d home : Fin 8} {i : Fin 12} {who : Option (Fin 104)} {h : Option Nat} {unit off ecc : Nat} {bytes : List Byte} {cls : Fin 4}
  {p : List (Nat × Nat)} {alt full : Bool} {fails : List (Nat × Nat)}

/-- A write within one block, from a die and a panel that may issue it, is taken. -/
theorem State.writeTaken (hne : bytes ≠ []) (hoff : off < 64) (hblock : unit / 16 = (unit + cdiv (off + bytes.length) 64 - 1) / 16)
    (hmay : s.mayRequest k d who h = true) :
    ¬(bytes = [] ∨ 64 ≤ off ∨ unit / 16 ≠ (unit + cdiv (off + bytes.length) 64 - 1) / 16 ∨ (!s.mayRequest k d who h) = true) := by
  rintro (h | h | h | h)
  · exact hne h
  · omega
  · exact h hblock
  · rw [hmay] at h
    exact Bool.false_ne_true h

/-- A write of a line that the suite may not request (R195). -/
theorem execMemoryWrite_of_foreign (hne : bytes ≠ []) (hoff : off < 64) (hblock : unit / 16 = (unit + cdiv (off + bytes.length) 64 - 1) / 16)
    (hmay : s.mayRequest k d who h = true) (hforeign : s.reachable k unit = false) :
    execMemoryWrite k d who h unit off bytes cls fails ecc full s = .next (s.demandDenied k h unit (s.classOf k h false cls)) := by
  unfold execMemoryWrite
  refine congrArg Host.Outcome.next ((if_neg (State.writeTaken hne hoff hblock hmay)).trans ?_)
  cases hhome : homeOf unit with
  | none => rfl
  | some x =>
    simp only [hforeign]
    rfl

/-- The lines that a write supplies in part (R197). -/
def partLines (off n : Nat) : List Nat := (List.range (cdiv (off + n) 64)).filter fun j => !wholeLine off n j

/-- What a write does at its home stack: it reads the lines that it supplies in part, and stores its bytes (R197). -/
def State.storeAt (s1 s : State) (k : Fin 8) (h : Option Nat) (unit off : Nat) (home : Fin 8) (i : Fin 12) (bytes : List Byte) (fails : List (Nat × Nat))
    (ecc c : Nat) : State :=
  let s2 := if (partLines off bytes.length).isEmpty then s1 else s1.modStack home i fun y => { y with eccCorr := y.eccCorr.satAdd ecc }
  let s4 := ((partLines off bytes.length).foldl (fun t j => t.rmwRead h (unit + j) (failsOf fails j) c) s2).write (64 * unit + off) bytes
  if (h.bind (s.task? k)).any fun t => decide (t.desc.type = 9 ∨ (t.desc.type = 2 ∧ 2 ≤ t.desc.mode)) then s4
  else s4.slotWrite k (64 * unit + off) bytes.length

theorem execMemoryWrite_of_route (hne : bytes ≠ []) (hoff : off < 64) (hblock : unit / 16 = (unit + cdiv (off + bytes.length) 64 - 1) / 16)
    (hmay : s.mayRequest k d who h = true) (hreach : s.reachable k unit = true) (hhome : homeOf unit = some (home, i))
    (hroute : s.route k d home = some (p, alt)) : execMemoryWrite k d who h unit off bytes cls fails ecc false s =
      .next ((s.travelled d unit home i p alt (s.classOf k h false cls == 0)).storeAt s k h unit off home i bytes fails ecc (s.classOf k h false cls)) := by
  unfold execMemoryWrite
  refine congrArg Host.Outcome.next ((if_neg (State.writeTaken hne hoff hblock hmay)).trans ?_)
  simp only [hhome, hreach, State.takeEntry_of_free, State.travel_of_route hroute]
  rfl

/-- The reads of a write in a filled stack, none of which fails, change nothing. -/
theorem State.rmwReads_of_clean {lines c : Nat} {l : List Nat} (hhome : homeOf unit = some (home, i)) (hblock : unit / 16 = (unit + lines - 1) / 16)
    (hfilled : (s.stack home i).filled = true) (hl : ∀ j ∈ l, j < lines) : l.foldl (fun t j => t.rmwRead h (unit + j) (failsOf [] j) c) s = s := by
  induction l with
  | nil => rfl
  | cons j l ih =>
    have hj := (homeOf_of_block (block_of_lt hblock (hl j List.mem_cons_self))).trans hhome
    have hread : s.rmwRead h (unit + j) (failsOf [] j) c = s := by
      simp only [State.rmwRead, hj, hfilled]
      split <;> rfl
    rw [List.foldl_cons, hread]
    exact ih fun x hx => hl x (List.mem_cons_of_mem j hx)

/-- In a suite that runs no program, a write none of whose reads fails stores its bytes and changes dies otherwise. -/
theorem State.storeAt_of_clean {s1 : State} {c : Nat} (hdies : s.DiesOnly s1) (hfilled : (s1.stack home i).filled = true)
    (hhome : homeOf unit = some (home, i)) (hblock : unit / 16 = (unit + cdiv (off + bytes.length) 64 - 1) / 16) (hidle : s.suites[k].run = none) :
    ∃ s2, s.DiesOnly s2 ∧ s1.storeAt s k h unit off home i bytes [] ecc c = s2.write (64 * unit + off) bytes := by
  let s2 := if (partLines off bytes.length).isEmpty then s1 else s1.modStack home i fun y => { y with eccCorr := y.eccCorr.satAdd ecc }
  have hs2 : s.DiesOnly s2 ∧ (s2.stack home i).filled = true := by
    by_cases hnone : (partLines off bytes.length).isEmpty = true
    · have hsame : s2 = s1 := if_pos hnone
      rw [hsame]
      exact ⟨hdies, hfilled⟩
    · have hcount : s2 = s1.modStack home i fun y => { y with eccCorr := y.eccCorr.satAdd ecc } := if_neg hnone
      rw [hcount, State.modStack_self]
      exact ⟨hdies.trans (.modDie home _), hfilled⟩
  have hreads : (partLines off bytes.length).foldl (fun t j => t.rmwRead h (unit + j) (failsOf [] j) c) s2 = s2 :=
    State.rmwReads_of_clean hhome hblock hs2.2 fun j hj => List.mem_range.mp (List.mem_filter.mp hj).1
  have hrun : (s2.write (64 * unit + off) bytes).suites[k].run = none := by rw [State.write_run, hs2.1.suites, hidle]
  have hstore : s1.storeAt s k h unit off home i bytes [] ecc c =
      if (h.bind (s.task? k)).any fun t => decide (t.desc.type = 9 ∨ (t.desc.type = 2 ∧ 2 ≤ t.desc.mode)) then s2.write (64 * unit + off) bytes
      else (s2.write (64 * unit + off) bytes).slotWrite k (64 * unit + off) bytes.length := by
    unfold State.storeAt
    simp only [s2] at hreads ⊢
    rw [hreads]
  exact ⟨s2, hs2.1, by rw [hstore, State.slotWrite_of_idle hrun, ite_self]⟩

end

/-- Dies that change leave the flag bytes and the bytes of memory as they are. -/
theorem State.DiesOnly.keepFlags {s t : State} (hd : s.DiesOnly t) (a : Nat) (bs : List Byte) : t.keepFlags a bs = s.keepFlags a bs := by
  rw [hd]
  rfl

/-- Settles O38: none of the reads of the write fails, and its bytes are stored by `State.write`. -/
theorem writeStoresItsBytes : Obligations.WriteStoresItsBytes := by
  intro k d home i who h unit off ecc bytes cls p alt s hinv hne hoff hblock hmay hreach hhome hroute hfilled hidle a
  obtain ⟨s2, hdies, hstore⟩ := State.storeAt_of_clean (h := h) (ecc := ecc) (c := s.classOf k h false cls)
    (s.travelled_diesOnly d unit home i p alt (s.classOf k h false cls == 0)) ((s.travelled_filled d unit home i p alt _).trans hfilled)
    hhome hblock hidle
  refine ⟨_, (execMemoryWrite_of_route hne hoff hblock hmay hreach hhome hroute).trans (congrArg Host.Outcome.next hstore), fun x => ?_,
    fun htab => State.keepFlags_of_no_table htab a bytes, fun x => ?_⟩
  · have hmem : Memory.wf s2.mem = true := by rw [hdies.mem]; exact hinv.1.1
    rw [State.write_byte hmem, hdies.keepFlags, State.byte, State.byte, hdies.mem]
  · rw [State.write_poisoned, State.poisoned, State.poisoned, hdies.poison]

/-! ### Flags and foreign lines (R32, R195) -/

theorem State.KeepsBytes.isFlagByte {s t : State} (h : s.KeepsBytes t) (x : Nat) : t.isFlagByte x = s.isFlagByte x := by
  have hone : ∀ s : State, s.isFlagByte x = (List.finRange 8).any fun j => match s.suites[j].table? with
      | none => false
      | some tb => decide (64 * tb ≤ x) && (x - 64 * tb) % 64 == 5 && s.suites[j].tensSet.contains ((x - 64 * tb) / 64) := by
    intro s
    rw [Bool.eq_iff_iff, State.isFlagByte, List.any_eq_true, List.any_eq_true]
    constructor
    · rintro ⟨u, hu, hin⟩
      obtain ⟨j, hj, rfl⟩ := List.mem_iff_getElem.mp hu
      rw [Vector.getElem_toList] at hin
      exact ⟨⟨j, by simpa using hj⟩, List.mem_finRange _, hin⟩
    · rintro ⟨j, -, hin⟩
      exact ⟨s.suites[j], by simp, hin⟩
  rw [hone, hone]
  simp only [h.table, h.tensSet]

/-- A write to a flag byte of a table in force keeps the two flags (R32). -/
theorem State.write_flags {s : State} (hmem : Memory.wf s.mem = true) (a : Nat) (bs : List Byte) {x : Nat} (hflag : s.isFlagByte x = true) :
    (s.write a bs).byte x &&& 3 = s.byte x &&& 3 := by
  rw [State.write_byte hmem]
  split
  case isTrue hin =>
    have hx : a + (x - a) = x := by omega
    rw [State.keepFlags_flags (a := a) (i := x - a) (by omega) (by rwa [hx]), hx]
  case isFalse => rfl

/-- Whatever becomes of a write in a suite that runs no program: no byte of memory changes, or the write's bytes are stored. -/
theorem execMemoryWrite_stores {s t : State} {k d : Fin 8} {who : Option (Fin 104)} {h : Option Nat} {unit off ecc : Nat} {bytes : List Byte}
    {cls : Fin 4} {fails : List (Nat × Nat)} {full : Bool} (hidle : s.suites[k].run = none)
    (hexec : execMemoryWrite k d who h unit off bytes cls fails ecc full s = .next t) :
    s.KeepsBytes t ∨ ∃ u, s.KeepsBytes u ∧ t = u.write (64 * unit + off) bytes := by
  cases hexec
  dsimp only
  split
  · exact .inl (.refl s)
  · split
    · exact .inl (.demandDenied k h unit _)
    · rename_i home i _
      split
      · exact .inl (.demandDenied k h unit _)
      · have hentry := State.KeepsBytes.takeEntry (s := s) d who full
        split
        · rename_i s0 hs0
          rw [hs0] at hentry
          exact .inl hentry
        · rename_i s0 hs0
          rw [hs0] at hentry
          have htravel := State.KeepsBytes.travel (s := s0) k d h unit home i (s.classOf k h false cls == 0)
          split
          · rename_i s1 hs1
            rw [hs1] at htravel
            exact .inl (hentry.trans htravel)
          · rename_i s1 hs1
            rw [hs1] at htravel
            have hcount : s.KeepsBytes (if (partLines off bytes.length).isEmpty then s1
                else s1.modStack home i fun y => { y with eccCorr := y.eccCorr.satAdd ecc }) := by
              split
              · exact hentry.trans htravel
              · exact (hentry.trans htravel).trans (.of_eq rfl rfl)
            have hread := hcount.trans (.foldl (f := fun t j => t.rmwRead h (unit + j) (failsOf fails j) (s.classOf k h false cls))
              (fun _ _ => .rmwRead h _ _ _) (partLines off bytes.length) _)
            refine .inr ⟨_, hread, ?_⟩
            split
            · rfl
            · exact State.slotWrite_of_idle (by rw [State.write_run]; exact (hread.run k).trans hidle) _ _

theorem State.demandDenied_poison (s : State) (k : Fin 8) (h : Option Nat) (u cls : Nat) : (s.demandDenied k h u cls).poison = s.poison := by
  have herr : ∀ (s : State) (kind id : Nat), (s.memError k u kind cls id).poison = s.poison := by
    intro s kind id
    simp [State.memError, State.suiteEvent, State.suiteEventAt]
  unfold State.demandDenied
  split
  · rename_i t _
    have htask : (s.taskMemError k t u 2 cls).poison = s.poison := by
      unfold State.taskMemError State.onceTask
      split
      · exact herr s 2 _
      · split
        · rfl
        · exact herr _ 2 _
    exact htask
  · exact herr s 2 _

/-- Settles O39: whatever is written is written by `State.write`, which keeps the flags; a foreign request is denied before it crosses. -/
theorem writesKeepFlagsAndForeignLines : Obligations.WritesKeepFlagsAndForeignLines := by
  refine ⟨fun k d who h unit off ecc bytes cls fails full s t hinv hidle hexec x hflag => ?_,
    fun k d who h unit off lines ecc bytes cls late full fails s hmay hforeign hlines hblock hne hoff hblock' => ?_⟩
  · obtain hkept | ⟨u, hkept, rfl⟩ := execMemoryWrite_stores hidle hexec
    · rw [hkept.byte]
    · have hmem : Memory.wf u.mem = true := by rw [hkept.mem]; exact hinv.1.1
      rw [State.write_flags hmem _ _ ((hkept.isFlagByte x).trans hflag), hkept.byte]
  · exact ⟨execMemoryRead_of_foreign hlines hblock hmay hforeign, execMemoryWrite_of_foreign hne hoff hblock' hmay hforeign,
      (State.KeepsBytes.demandDenied k h unit _).mem, State.demandDenied_poison s k h unit _⟩

end Sys2Proof.Machine
end

section
/-! Retirement moves and flit replays, codewords, link cells and the training of ports (R196, R219 to R226, R304, R305, R382). -/

namespace Sys2Proof.Machine

/-! ### The memory service (R196, R304, R305, R382) -/

/-- The unreadable lines of a move that are poisoned: those of the window that is left, not poisoned yet (R196). -/
def State.moveLines (s : State) (d : Fin 8) (i : Fin 12) (lost : List Nat) : List Nat :=
  lost.filter fun u => decide ((12 * d.val + i.val) * 2 ^ 30 ≤ u) &&
    decide (u < (12 * d.val + i.val) * 2 ^ 30 + ((s.stack d i).cap - 0xFC0000 * (s.stack d i).pcPending.length)) && !s.poisoned u

theorem execPcRetirementMove_of_pending {s : State} {d : Fin 8} {i : Fin 12} {pc : Fin 64} (lost : List Nat)
    (h : ((s.stack d i).pcPending.any fun (q : Nat × Nat) => q.1 == pc.val) = true) :
    let s2 := ((s.moveLines d i lost).foldl (fun t u => t.poisonLine u) s).modStack d i fun y =>
      { y with moveLost := y.moveLost + (s.moveLines d i lost).length }
    execPcRetirementMove d i pc lost s = .next (if s.owner d = none then s2.commitStack d i 0xFFFFFFFF else s2) :=
  if_neg (by rw [h]; exact Bool.false_ne_true)

theorem execD2dFlitReplay_of_more {s : State} {d : Fin 8} {e : Fin 3} {g : Fin 16} {n : Nat} (hedge : s.edgePresent d e = true)
    (hmore : 16 * min (s.hlt.ctrl.toNat / 256 % 256) s.policy.edgeRetry < n) : execD2dFlitReplay d e g n s = .next (s.retireGroup d e g 7) :=
  if_pos (Bool.and_eq_true_iff.mpr ⟨hedge, decide_eq_true hmore⟩)

theorem execD2dFlitReplay_of_few {s : State} {d : Fin 8} {e : Fin 3} {g : Fin 16} {n : Nat}
    (hfew : n ≤ 16 * min (s.hlt.ctrl.toNat / 256 % 256) s.policy.edgeRetry) : execD2dFlitReplay d e g n s = .next s := by
  refine if_neg fun h => ?_
  have hmore := of_decide_eq_true (Bool.and_eq_true_iff.mp h).2
  omega

/-- Settles O40: each command under the condition that lets it work. -/
theorem memoryServiceCommands : Obligations.MemoryServiceCommands := by
  intro d k i pc e g n lost s x w bad lim s1 s2
  refine ⟨fun hpend howned => ?_, fun hpend hfree => ?_, fun hedge hmore => execD2dFlitReplay_of_more hedge hmore, fun hfew => execD2dFlitReplay_of_few hfew,
    fun hrot hkey hst => execMemKeyRotationStart_of_keyed hrot hkey hst, fun hreenc => if_neg (by rw [hreenc]; exact Bool.false_ne_true)⟩
  · exact (execPcRetirementMove_of_pending lost hpend).trans (congrArg Host.Outcome.next (if_neg howned))
  · exact (execPcRetirementMove_of_pending lost hpend).trans (congrArg Host.Outcome.next (if_pos hfree))

/-! ### Codewords (R219, R223) -/

/-- Two updates of a port that agree on it as it stands have one effect. -/
theorem State.modPort_congr {s : State} {d : Fin 8} {q : Fin 2} {f g : Port → Port} (h : f (s.port d q) = g (s.port d q)) :
    s.modPort d q f = s.modPort d q g := by
  unfold State.port at h
  simp only [State.modPort, State.modDie, h]

section
variable {s : State} {d : Fin 8} {q : Fin 2} {seq ack : BitVec 10} {corrected : Bool}

/-- A port that has counted the correction of a codeword. -/
def Port.fixed (y : Port) (corrected : Bool) : Port := if corrected then { y with cwCorr := y.cwCorr.satAdd 1 } else y

/-- What an ACTIVE port does with a codeword. -/
def Port.receive (y : Port) (now : Nat) (seq ack : BitVec 10) (correctable corrected : Bool) : Port :=
  if !correctable then { y.discard with cwUncorr := y.cwUncorr.satAdd 1 }
  else if seq.toNat ≠ y.rxSeq then (y.fixed corrected).discard
  else { (y.fixed corrected).acked ack.toNat with rxSeq := (y.rxSeq + 1) % 1024, nakSent := false, lastGood := now }

theorem Port.receive_of_inOrder {y : Port} (now : Nat) (h : seq.toNat = y.rxSeq) : y.receive now seq ack true corrected =
    { (y.fixed corrected).acked ack.toNat with rxSeq := (y.rxSeq + 1) % 1024, nakSent := false, lastGood := now } :=
  (if_neg fun h => Bool.false_ne_true h).trans (if_neg fun hne => hne h)

theorem Port.receive_of_outOfOrder {y : Port} (now : Nat) (h : seq.toNat ≠ y.rxSeq) :
    y.receive now seq ack true corrected = (y.fixed corrected).discard :=
  (if_neg fun h => Bool.false_ne_true h).trans (if_pos h)

theorem execCodewordReceive_of_active (correctable : Bool) (hst : (s.port d q).st = .active) :
    execCodewordReceive d q seq ack correctable corrected s = .next (s.modPort d q fun y => y.receive s.clk.time seq ack correctable corrected) :=
  if_neg fun h => h hst

theorem execCodewordReceive_of_inactive (correctable : Bool) (hst : (s.port d q).st ≠ .active) :
    execCodewordReceive d q seq ack correctable corrected s = .next s :=
  if_pos hst

end

/-! ### Link cells and the handshake (R220, R223 to R225) -/

section
variable {s : State} {d : Fin 8} {q : Fin 2}

theorem execLink_of_active (nak : Option (BitVec 10)) (credits : List Nat) (reserved : Bool) (hst : (s.port d q).st = .active) :
    let s1 := s.modPort d q fun y => ((credits.take 16).zipIdx).foldl (fun z c => z.credit c.2 c.1) y
    execLink d q nak credits reserved s =
      if reserved then .next (s.scrDrop d q) else .next (match nak with | some a => s1.nak d q a.toNat | none => s1) :=
  if_neg fun h => h hst

/-- The link image's IFACE window leaves a HELLO out (R225, R341). -/
def State.ifaceOut (s : State) (cell : HelloCell) : Bool :=
  match s.linkWindow with
  | some w => decide (cell.iface < w.1 ∨ w.2 < cell.iface)
  | none => false

theorem execHello_of_handshake (cell : HelloCell) (hst : (s.port d q).st = .handshake) : execHello d q cell s =
    if !s.helloFits d q cell then .next (s.setPort d q .miswired)
    else if s.ifaceOut cell then .next (s.trainFail d q)
    else .next ((s.modPort d q fun y => { y with lastGood := s.clk.time }).setPort d q .active) :=
  if_neg fun h => h hst

end

/-- Settles O42: codewords by their SEQ, link cells, and HELLO by what it shows. -/
theorem codewordsAndLinkCells : Obligations.CodewordsAndLinkCells := by
  refine ⟨fun d q seq ack corrected s => ?_, fun d q nak credits time cell s => ?_⟩
  · intro x fixed
    refine ⟨fun hst hseq => ?_, fun hst hseq => ?_, fun hst => ?_, fun good hst => execCodewordReceive_of_inactive good hst⟩
    · exact (execCodewordReceive_of_active true hst).trans (congrArg Host.Outcome.next (State.modPort_congr (Port.receive_of_inOrder _ hseq)))
    · exact (execCodewordReceive_of_active true hst).trans (congrArg Host.Outcome.next (State.modPort_congr (Port.receive_of_outOfOrder _ hseq)))
    · exact execCodewordReceive_of_active false hst
  · intro s1 low
    refine ⟨fun hst => ⟨execLink_of_active nak credits true hst, execLink_of_active nak credits false hst⟩, rfl, rfl, fun hst => ?_⟩
    have hexec : exec (.hello d q cell) s = _ := execHello_of_handshake cell hst
    refine ⟨fun hfits => ?_, fun hfits hlow => ?_, fun hfits hlow => ?_⟩
    · rw [hexec, hfits]
      rfl
    · have hout : s.ifaceOut cell = true := hlow
      rw [hexec, hfits, hout]
      rfl
    · have hin : s.ifaceOut cell = false := hlow
      rw [hexec, hfits, hin]
      rfl

/-! ### Training, loss and retry (R225, R226) -/

section
variable {s : State} {d : Fin 8} {q : Fin 2}

/-- EQUALIZE ends by the pairs that are left (R226). -/
theorem execEqualizeDone_of_equalize (good : BitVec 10) (hst : (s.port d q).st = .equalize) :
    let x := s.port d q
    let left := x.pairs &&& ~~~(x.chosen &&& ~~~good)
    let pick := pickPairs left
    let s1 := s.modPort d q fun y => { y with pairs := left, chosen := pick }
    execEqualizeDone d q good s =
      if popcount left.toNat 10 < 5 then .next (s1.setPort d q .down)
      else if pick &&& ~~~(x.chosen &&& good) ≠ 0 then .next s1
      else .next (s1.setPort d q .align) :=
  if_neg fun h => h hst

theorem execTrainingLimitExpiry_of_training (hst : (s.port d q).st = .equalize ∨ (s.port d q).st = .align ∨ (s.port d q).st = .handshake) :
    execTrainingLimitExpiry d q s = .next (s.trainFail d q) :=
  if_pos (by simpa using hst)

theorem execPairDegrade_of_more {pair : Fin 10} {n : Nat} (hauto : (s.port d q).autoDegrade = true) (hmore : (s.port d q).degrade.toNat < n)
    (hgood : (s.port d q).pairs.getLsbD pair = true) :
    let s1 := s.modPort d q fun y => { y with pairs := y.pairs &&& ~~~((1 : BitVec 10) <<< pair.val) }
    execPairDegrade d q pair n s = .next (if (s.port d q).st = .active then s1.retrain d q else s1) := by
  refine if_neg ?_
  rintro (h | h | h)
  · rw [hauto] at h
    exact Bool.false_ne_true h
  · omega
  · rw [hgood] at h
    exact Bool.false_ne_true h

end

/-- Settles O43: each command in the state of the port that it moves. -/
theorem linkTrainingAndLoss : Obligations.LinkTrainingAndLoss := by
  refine ⟨fun d q pairs good s => ?_, fun d q pair n s => ?_⟩
  · intro x left pick s1
    refine ⟨fun hst hmany => if_pos ⟨hst, hmany⟩, fun hno => if_neg hno, fun hrun => if_pos hrun, fun hst => ?_, fun hst => if_pos hst,
      fun hst => execTrainingLimitExpiry_of_training hst⟩
    have hexec := execEqualizeDone_of_equalize good hst
    refine ⟨fun hfew => hexec.trans (if_pos hfew), fun hmany hnew => hexec.trans ((if_neg (Nat.not_lt.mpr hmany)).trans (if_pos hnew)),
      fun hmany hold => hexec.trans ((if_neg (Nat.not_lt.mpr hmany)).trans (if_neg fun h => h hold))⟩
  · intro x s1
    exact ⟨fun hst hlate => if_pos ⟨hst, hlate⟩, fun hno => if_neg hno, fun hauto hmore hgood => execPairDegrade_of_more hauto hmore hgood,
      fun hfew => if_pos (.inr (.inl hfew)), fun hst hauto hrun => if_pos ⟨hst, hauto, hrun⟩⟩

end Sys2Proof.Machine
end

section
/-! The reception of exchange and transfer frames, and the resending of chunks (R220, R231, R236 to R245, R317). -/

namespace Sys2Proof.Machine

/-! ### A frame that is taken, and one that is not -/

section
variable {s : State} {d : Fin 8} {q : Fin 2} {f : Frame} {k : Fin 8} {p : PairKey} {base : Nat} {type : BitVec 8} {g : State → Fin 8 → State}

/-- A frame of the type received that its port takes has its effect where its counter is seen (R220, R231, R236, R308, R319). -/
theorem State.receiveFrame_of_takes (h : s.TakesFrame d f k p base) (htype : f.type = type) :
    s.receiveFrame d q f type g = g (s.taken d q k f p base) k := by
  obtain ⟨hwf, henc, hlt, hown, hk, hst, hsrc, hmember, hpair, hkey, hfresh, htag⟩ := h
  subst hk
  have hform : ¬(f.type ≠ type ∨ frameMalformed f = true ∨ (!f.flags.getLsbD 0) = true) := by
    rw [hwf, henc]
    simp [htype]
  have hhere : ¬(8 ≤ f.dstSuite ∨ s.owner d ≠ some (fin8 f.dstSuite)) := by
    rw [hown]
    simp [hlt]
  have hfrom : ¬(f.srcSuite ≠ f.dstSuite ∨ (!s.isMember (fin8 f.dstSuite) f.srcCoord) = true) := by
    rw [hmember]
    simp [hsrc]
  have hnew : ¬((!p.fresh (base + f.srcDie % 8) (f.frameCtr.toNat % 2 ^ 60)) = true) := by
    rw [hfresh]
    exact Bool.false_ne_true
  have hsig : ¬((!f.tagOk) = true) := by
    rw [htag]
    exact Bool.false_ne_true
  refine (if_neg hform).trans ((if_neg hhere).trans ((if_neg hst).trans ((if_neg hfrom).trans ?_)))
  have hpair' : (s.modPort d q fun x => x.freed f).suites[fin8 f.dstSuite].pairOf f.srcCoord f.srcSuite = some p := hpair
  simp only [hpair', hkey]
  exact (if_neg hnew).trans (if_neg hsig)

theorem State.next_receiveFrame {u : State} (h : s.TakesFrame d f k p base) (htype : f.type = type) (hu : g (s.taken d q k f p base) k = u) :
    (.next (s.receiveFrame d q f type g) : Out) = .next u := by
  rw [State.receiveFrame_of_takes h htype, hu]

/-- What a frame that is not taken leaves: the bytes, the markers, the host's bytes, and each suite's tasks, chunks, pair keys and barriers. -/
structure State.Untaken (s t : State) : Prop where
  mem : t.mem = s.mem
  poison : t.poison = s.poison
  host : t.host = s.host
  tasks : ∀ j : Fin 8, t.suites[j].tasks = s.suites[j].tasks
  chunks : ∀ j : Fin 8, t.suites[j].chunks = s.suites[j].chunks
  pairs : ∀ j : Fin 8, t.suites[j].pairs = s.suites[j].pairs
  barriers : ∀ j : Fin 8, t.suites[j].barriers = s.suites[j].barriers

namespace State.Untaken

variable {t u : State}

theorem trans (h : Untaken s t) (h' : Untaken t u) : Untaken s u :=
  ⟨h'.mem.trans h.mem, h'.poison.trans h.poison, h'.host.trans h.host, fun j => (h'.tasks j).trans (h.tasks j),
    fun j => (h'.chunks j).trans (h.chunks j), fun j => (h'.pairs j).trans (h.pairs j), fun j => (h'.barriers j).trans (h.barriers j)⟩

theorem modPort (d : Fin 8) (q : Fin 2) (f : Port → Port) : Untaken s (s.modPort d q f) :=
  ⟨rfl, rfl, rfl, fun _ => rfl, fun _ => rfl, fun _ => rfl, fun _ => rfl⟩

/-- A change of one suite that keeps what another of its fields says, seen from any suite. -/
theorem field {β : Type} (π : Suite → β) (k : Fin 8) (f : Suite → Suite) (hf : ∀ x, π (f x) = π x) (j : Fin 8) :
    π (s.modSuite k f).suites[j] = π s.suites[j] := by
  by_cases hj : j = k
  · subst hj
    rw [State.modSuite_self, hf]
  · rw [State.modSuite_other s j k f hj]

theorem modSuite (k : Fin 8) (f : Suite → Suite) (htasks : ∀ x, (f x).tasks = x.tasks) (hchunks : ∀ x, (f x).chunks = x.chunks)
    (hpairs : ∀ x, (f x).pairs = x.pairs) (hbarriers : ∀ x, (f x).barriers = x.barriers) : Untaken s (s.modSuite k f) :=
  ⟨rfl, rfl, rfl, field (·.tasks) k f htasks, field (·.chunks) k f hchunks, field (·.pairs) k f hpairs, field (·.barriers) k f hbarriers⟩

theorem raise (fn i : Nat) : Untaken s (s.raise fn i) := by
  have hsuite := fun j : Fin 8 => s.raise_suite fn i j
  refine ⟨by simp, by simp, by simp, fun j => ?_, fun j => ?_, fun j => ?_, fun j => ?_⟩ <;>
  · obtain ⟨w, hw⟩ := hsuite j
    rw [hw]

theorem suiteEvent (k : Fin 8) (c e n : Nat) (b : List Byte) : Untaken s (s.suiteEvent k c e n b) :=
  (modSuite k (fun u => { u with log := u.log.add 8192 s.clk.time c e n b }) (fun _ => rfl) (fun _ => rfl) (fun _ => rfl) fun _ => rfl).trans
    (raise (k.val + 1) 1)

/-- A frame that fails its check is counted and logged once per pair, reason and step (R237). -/
theorem authFail (k : Fin 8) (f : Frame) (reason : Nat) : Untaken s (s.authFail d q k f reason) := by
  refine (modPort d q fun x => { x with authFail := x.authFail.satAdd 1 }).trans ?_
  unfold State.authFail State.oncePerStep
  dsimp only
  split
  · exact ⟨rfl, rfl, rfl, fun _ => rfl, fun _ => rfl, fun _ => rfl, fun _ => rfl⟩
  · exact (modSuite k (fun u => { u with once := _ :: u.once }) (fun _ => rfl) (fun _ => rfl) (fun _ => rfl) fun _ => rfl).trans
      (suiteEvent k _ _ _ _)

end State.Untaken

/-- A frame that no suite takes is dropped or counted (R220, R231, R237), whatever type its command receives. -/
theorem State.receiveFrame_untaken (h : ∀ k p base, ¬s.TakesFrame d f k p base) : s.Untaken (s.receiveFrame d q f type g) := by
  have hfreed : s.Untaken (s.modPort d q fun x => x.freed f) := .modPort d q _
  refine hfreed.trans ?_
  unfold State.receiveFrame
  dsimp only
  split
  · exact .modPort d q _
  next hform =>
  split
  · exact .modPort d q _
  next hhere =>
  split
  · exact .modPort d q _
  next hst =>
  split
  · exact .modPort d q _
  next hfrom =>
  split
  · exact .authFail _ f 0
  next p hpair =>
  split
  · exact .authFail _ f 0
  next base hkey =>
  split
  · exact .authFail _ f 1
  next hnew =>
  split
  · exact .authFail _ f 2
  next htag =>
  simp only [not_or, not_le, not_not, Bool.not_eq_true, Bool.not_eq_true', ne_eq, Bool.not_eq_false] at hform hhere hfrom hnew htag
  obtain ⟨-, hwf, henc⟩ := hform
  obtain ⟨hlt, hown⟩ := hhere
  exact absurd ⟨hwf, henc, hlt, hown, rfl, hst, hfrom.1, hfrom.2, hpair, hkey, hnew, htag⟩ (h _ _ _)

end

/-- Settles O47: each of the six commands receives its frame, and a frame that no suite takes is dropped or counted. -/
theorem unauthenticFramesChangeNothing : Obligations.UnauthenticFramesChangeNothing := by
  intro c d q f s t hc hno hexec
  have hframe : s.Untaken t := by
    obtain ⟨a, b, e, rfl⟩ | ⟨a, rfl⟩ | ⟨m, rfl⟩ | ⟨a, rfl⟩ | ⟨a, b, rfl⟩ | ⟨a, rfl⟩ := hc <;>
    · obtain rfl := Host.Outcome.next.inj hexec
      exact State.receiveFrame_untaken hno
  exact ⟨hframe.mem, hframe.poison, hframe.host, fun j => ⟨hframe.tasks j, hframe.chunks j, hframe.pairs j, hframe.barriers j⟩⟩

/-- Settles O46: the effect of each command on a frame that is taken. -/
theorem remoteReadsAndWrites : Obligations.RemoteReadsAndWrites := by
  intro d q f k p base h key bytes s htakes t t1 unit lines n
  refine ⟨fun htype => ⟨fun hok => ?_, fun hno => ?_⟩, fun htype => ⟨fun hok => ?_, fun hno => ?_⟩, fun htype => ?_⟩
  · have hstep : t.suites[k].step = s.suites[k].step := by
      simp only [t, State.taken, State.modSuite_self]
      rfl
    refine State.next_receiveFrame htakes htype ((if_neg ?_).trans ?_)
    · rw [hok]
      exact Bool.false_ne_true
    · rw [hstep]
  · refine State.next_receiveFrame htakes htype (if_pos ?_)
    rw [hno]
    rfl
  · exact State.next_receiveFrame htakes htype (if_pos hok)
  · exact State.next_receiveFrame htakes htype (if_neg (ne_true_of_eq_false hno))
  · intro task w hrun hw at_ hfrom hroom hpeer
    have hin : ¬(unit < task.desc.arg 12 5 ∨ w.2 < unit - task.desc.arg 12 5 + n ∨ task.desc.peer ≠ f.srcCoord) := by
      rintro (h | h | h)
      · omega
      · omega
      · exact h hpeer
    refine State.next_receiveFrame htakes htype ?_
    refine Host.Outcome.next.inj (State.next_runTask hrun ?_)
    simp only [t] at hw
    simp only [hw]
    exact if_neg hin

section
variable {s : State} {k : Fin 8} {h : Nat} {t : Task}

theorem State.next_onRunning {f : Task → State} {u : State} (hhas : s.Has k h .running t) (hu : f t = u) :
    (.next (s.onRunning k h f) : Out) = .next u := by
  rw [State.onRunning_of_has hhas, hu]

end

/-- Settles O45: the effect of each exchange frame that is taken, and of a resend of a chunk that is due. -/
theorem exchangeFramesAndResends : Obligations.ExchangeFramesAndResends := by
  refine ⟨fun d q f k p base stage step chunk id n h tile hi lo vals marks grids carries sum sat s htakes => ?_,
    fun k h stage step chunk t x r s hhas => ?_⟩
  · intro t a group held t1 c seen
    refine ⟨fun htype => ⟨fun hseen => ?_, fun hseen => ?_⟩, fun htype => ?_, fun htype => ⟨fun x hx => ?_, fun hnone => ?_, ?_, ?_, ?_⟩⟩
    · exact State.next_receiveFrame htakes htype (if_pos hseen)
    · exact State.next_receiveFrame htakes htype (if_neg (ne_true_of_eq_false hseen))
    · exact State.next_receiveFrame htakes htype rfl
    · refine State.next_receiveFrame htakes htype ?_
      simp only [t, group] at hx
      simp only [hx]
      rfl
    · refine State.next_receiveFrame htakes htype ?_
      simp only [t, group] at hnone
      simp only [hnone]
      rfl
    · exact State.next_receiveFrame htakes htype rfl
    · exact State.next_receiveFrame htakes htype rfl
    · exact State.next_receiveFrame htakes htype rfl
  · intro mine
    refine ⟨fun hnone => State.next_onRunning hhas ?_, fun hmine hr => ⟨fun hearly => ?_, fun hdue hlast => ?_, fun hdue hmore => ?_⟩⟩
    · simp only [mine] at hnone
      simp only [hnone]
    · refine State.next_onRunning hhas ?_
      simp only [mine] at hmine
      simp only [hmine, hr]
      exact if_pos hearly
    · refine State.next_onRunning hhas ?_
      simp only [mine] at hmine
      simp only [hmine, hr]
      exact (if_neg (Nat.not_lt.mpr hdue)).trans (if_pos hlast)
    · intro dim i plus s0 hway rail die fr hsent s1 y s2
      refine State.next_onRunning hhas ?_
      simp only [mine] at hmine
      simp only [hmine, hr]
      refine (if_neg (Nat.not_lt.mpr hdue)).trans ((if_neg (Nat.not_le.mpr hmore)).trans ?_)
      simp only [rail, die, fr] at hsent
      simp only [hway, hsent]
      rfl

end Sys2Proof.Machine
end

section
/-! The injection and forwarding of frames, pair keys, and the time synchronisation exchange (R220 to R236, R246, R247, R307, R308). -/

namespace Sys2Proof.Machine

/-! ### The header of an injected frame (R220, R228, R236, R308) -/

theorem frameCtr_low (high src n : Nat) : (BitVec.ofNat 64 (high * 2 ^ 63 + src * 2 ^ 60 + n % 2 ^ 60)).toNat % 2 ^ 60 = n % 2 ^ 60 := by
  rw [BitVec.toNat_ofNat]
  omega

theorem encFlag_set (flags : BitVec 8) : ((flags &&& 2) ||| 1).getLsbD 0 = true := by simp

section
variable {s : State} {src : Fin 8} {f g : Frame} {k : Fin 8}

/-- A stamped frame of types 0x10 to 0x15 is encrypted, under its pair's epoch, with the next FRAME_CTR of the pair. -/
theorem State.stamp_pair (hstamp : s.stamp src f = some g) (howner : s.owner src = some k) (htype : 0x10 ≤ f.type.toNat) :
    g.type = f.type ∧ g.dstCoord = f.dstCoord ∧ g.dstSuite = f.dstSuite ∧ g.flags.getLsbD 0 = true ∧
      ∃ p, s.suites[k].pairOf f.dstCoord f.dstSuite = some p ∧ g.keyEpoch = p.epoch ∧ g.frameCtr.toNat % 2 ^ 60 = p.sent % 2 ^ 60 := by
  unfold State.stamp at hstamp
  simp only [howner] at hstamp
  split at hstamp
  · cases hstamp
  rw [if_neg (Nat.not_lt.mpr htype)] at hstamp
  split at hstamp
  · cases hstamp
  split at hstamp
  · cases hstamp
  next p hpair =>
  obtain rfl := Option.some.inj hstamp
  exact ⟨rfl, rfl, rfl, encFlag_set f.flags, p, hpair, rfl, frameCtr_low _ _ _⟩

end

/-- A frame counted against a peer's pair (R308): the pair that stands for that peer has sent one more. -/
theorem Suite.countPair_pairOf {u : Suite} {coord : List Nat} {suite : Nat} {p : PairKey} (h : u.pairOf coord suite = some p) :
    (u.countPair coord suite).pairOf coord suite = some { p with sent := p.sent + 1 } := by
  obtain ⟨i, hi, hp⟩ := Option.bind_eq_some_iff.mp h
  have hpeer : p.peer = i := by simpa using List.find?_some hp
  have hcount : u.countPair coord suite = u.modPair i fun x => { x with sent := x.sent + 1 } := by
    simp only [Suite.countPair, hi]
  have hidx : (u.modPair i fun x => { x with sent := x.sent + 1 }).peerIdx coord suite = some i := hi
  rw [hcount, Suite.pairOf, hidx, Option.bind_some, Suite.modPair, List.find?_map]
  have hkeeps : ((fun x : PairKey => x.peer == i) ∘ fun x : PairKey => if x.peer = i then { x with sent := x.sent + 1 } else x) =
      fun x => x.peer == i := by
    funext x
    by_cases hx : x.peer = i <;> simp [hx]
  rw [hkeeps, hp]
  simp [hpeer]

section
variable {s : State} {src : Fin 8} {f g : Frame} {k : Fin 8} {dim : Nat}

theorem State.countSent_pairOf {p : PairKey} (howner : s.owner src = some k) (htype : 0x10 ≤ g.type.toNat)
    (hpair : s.suites[k].pairOf g.dstCoord g.dstSuite = some p) :
    (s.countSent src g).suites[k].pairOf g.dstCoord g.dstSuite = some { p with sent := p.sent + 1 } := by
  have hsent : s.countSent src g = s.modSuite k fun u => u.countPair g.dstCoord g.dstSuite := by
    simp only [State.countSent, howner]
    exact if_pos htype
  rw [hsent, State.modSuite_self, Suite.countPair_pairOf hpair]

theorem execFrameForward_inject (hlink : f.type.toNat ∉ linkTypes) (hwf : frameMalformed f = false) (hfwd : f.type.toNat ∈ forwardTypes) :
    execFrameForward none src f s = .next (s.inject src f) := by
  refine congrArg Host.Outcome.next ((if_neg hlink).trans (if_neg ?_))
  rw [hwf]
  exact fun h => h.elim Bool.false_ne_true fun h => h hfwd

theorem State.inject_of_here (hstamp : s.stamp src f = some g) (howner : s.owner src = some k) (hhere : s.nextDim g = none) :
    s.inject src f = s.crossEdges (rowFirst src (g.dstDie % 8)) false (g.vc.toNat / 4 % 4 == 0) := by
  simp only [State.inject, hstamp, howner, hhere]

theorem State.inject_of_plain (hstamp : s.stamp src f = some g) (howner : s.owner src = some k) (hdim : s.nextDim g = some dim)
    (h10 : g.type ≠ 0x10) (h11 : g.type ≠ 0x11) : s.inject src f = ((s.forward none src g dim).map (·.1)).getD s := by
  simp only [State.inject, hstamp, howner, hdim]
  rw [if_neg fun h => h.elim h10 h11]
  cases s.forward none src g dim <;> rfl

theorem State.inject_of_wait (hstamp : s.stamp src f = some g) (howner : s.owner src = some k) (hdim : s.nextDim g = some dim)
    (hchunk : g.type = 0x10 ∨ g.type = 0x11) (hwait : s.chunkGoes k g = none ∨ s.forward none src g dim = none) : s.inject src f = s := by
  simp only [State.inject, hstamp, howner, hdim]
  rw [if_pos hchunk]
  obtain hno | hno := hwait
  · rw [hno]
  · rw [hno]
    cases s.chunkGoes k g <;> rfl

theorem State.inject_of_chunk {t : Task} {rec : Option SentChunk} {u : State} {b : Bool} (hstamp : s.stamp src f = some g)
    (howner : s.owner src = some k) (hdim : s.nextDim g = some dim) (hchunk : g.type = 0x10 ∨ g.type = 0x11)
    (hgoes : s.chunkGoes k g = some (t, rec)) (hleaves : s.forward none src g dim = some (u, b)) :
    s.inject src f = rec.elim u fun c => u.modTask k t.h fun x => { x with sent := c :: x.sent } := by
  simp only [State.inject, hstamp, howner, hdim, hgoes, hleaves]
  cases rec <;> exact if_pos hchunk

end

section
variable {s : State} {src : Fin 8} {f : Frame} {p : Fin 16} {dim : Nat} (hlink : f.type.toNat ∉ linkTypes)
  (hwf : frameMalformed f = false) (hfwd : f.type.toNat ∈ forwardTypes)
include hlink hwf hfwd

theorem execFrameForward_passing {u : State} (hu : (match s.nextDim f with
      | none => s.crossEdges (rowFirst (fin8 (p.val / 2)) (f.dstDie % 8)) false (f.vc.toNat / 4 % 4 == 0)
      | some dim => match s.forward (some p) (fin8 (p.val / 2)) f dim with
        | some (u, _) => u.modPort (fin8 (p.val / 2)) (Fin.ofNat 2 (p.val % 2)) fun x => x.freed f
        | none => s.modPort (fin8 (p.val / 2)) (Fin.ofNat 2 (p.val % 2)) fun x =>
            if x.inBuf.contains f || decide (2048 < x.buffered + 1 + f.cells) then x else { x with inBuf := x.inBuf ++ [f] }) = u) :
    execFrameForward (some p) src f s = .next u := by
  refine congrArg Host.Outcome.next ((if_neg hlink).trans ((if_neg ?_).trans ?_))
  · rw [hwf]
    exact fun h => h.elim Bool.false_ne_true fun h => h hfwd
  · exact hu

end

section
variable {s : State} {inPort : Option (Fin 16)} {here : Fin 8} {f : Frame} {dim : Nat}

theorem State.forward_of_no_route (hnone : s.outPort inPort f dim = none) : s.forward inPort here f dim = some (s.noRoute inPort here f dim, false) := by
  simp only [State.forward, hnone]

end

/-- Settles O44: the injected frame by its type, the passing one by its destination, and both by the port they leave on. -/
theorem frameForwarding : Obligations.FrameForwarding := by
  refine ⟨fun src f g k dim s => ⟨fun hlink => congrArg Host.Outcome.next (if_pos hlink), fun hlink hwf hfwd => ?_, fun hstamp howner htype => ?_⟩,
    fun p src f dim s => ?_, fun inPort here f dim s => ⟨State.forward_of_no_route, fun die face hport => ?_⟩⟩
  · have hexec := execFrameForward_inject (s := s) (src := src) hlink hwf hfwd
    refine ⟨fun hnone => hexec.trans (congrArg _ ?_), fun hstamp howner => ⟨fun hhere => ?_, fun hdim =>
      ⟨fun h10 h11 => ?_, fun hchunk => ⟨fun hwait => ?_, fun t rec u b hgoes hleaves => ?_⟩⟩⟩⟩
    · unfold State.inject
      rw [hnone]
    · exact hexec.trans (congrArg _ (State.inject_of_here hstamp howner hhere))
    · exact hexec.trans (congrArg _ (State.inject_of_plain hstamp howner hdim h10 h11))
    · exact hexec.trans (congrArg _ (State.inject_of_wait hstamp howner hdim hchunk hwait))
    · refine hexec.trans (congrArg _ ((State.inject_of_chunk hstamp howner hdim hchunk hgoes hleaves).trans ?_))
      cases rec <;> rfl
  · obtain ⟨hty, hcoord, hsuite, henc, p, hpair, hepoch, hctr⟩ := State.stamp_pair hstamp howner htype
    refine ⟨henc, p, hpair, hepoch, hctr, ?_⟩
    rw [← hty] at htype
    rw [← hcoord, ← hsuite] at hpair ⊢
    exact State.countSent_pairOf howner htype hpair
  · intro here face
    refine ⟨fun hlink => congrArg Host.Outcome.next (if_pos hlink), fun hlink hbad => congrArg Host.Outcome.next ((if_neg hlink).trans (if_pos hbad)),
      fun hlink hwf hfwd => ⟨fun hhere => ?_, fun hdim => ⟨fun u b hleaves => ?_, fun hwait => ?_⟩⟩⟩
    · refine execFrameForward_passing (src := src) hlink hwf hfwd ?_
      rw [hhere]
    · refine execFrameForward_passing (src := src) hlink hwf hfwd ?_
      simp only [here] at hleaves
      simp only [hdim, hleaves]
      rfl
    · refine execFrameForward_passing (src := src) hlink hwf hfwd ?_
      simp only [here] at hwait
      simp only [hdim, hwait]
      rfl
  · intro straight dl sent
    have hforward : s.forward inPort here f dim = sent.map fun x =>
        let t := (s.modPort (fin8 die) (Fin.ofNat 2 face) fun _ => x).crossEdges (rowFirst here die) false (f.vc.toNat / 4 % 4 == 0)
        (if inPort.isNone then t.countSent here f else t, true) := by
      simp only [State.forward, hport]
      rfl
    refine ⟨fun hsent => ?_, fun x hsent => ?_⟩ <;>
    · rw [hforward, hsent]
      rfl

/-! ### Pair keys and time synchronisation -/

section
variable {s : State} {d : Fin 8} {q : Fin 2} {m : PairKeyMsg} {k : Fin 8} {i : Nat}

/-- The state in which a PAIR_KEY has crossed to its die and to the primary core over C0 (R307). -/
def State.pairKeyCrossed (s : State) (d : Fin 8) (m : PairKeyMsg) : State :=
  (s.crossEdges (rowFirst d (m.dstDie % 8)) false true).crossEdges (rowFirst (m.dstDie % 8) s.primaryDie) false true

theorem State.pairKeyCrossed_suites (s : State) (d : Fin 8) (m : PairKeyMsg) : (s.pairKeyCrossed d m).suites = s.suites :=
  ((State.DiesOnly.crossEdges (s := s) _ false true).trans (.crossEdges _ false true)).suites

/-- Whether a PAIR_KEY comes from the device of the peer table's entry, signed (R307). -/
def keyTrusted (m : PairKeyMsg) (u : Suite) (i : Nat) : Bool :=
  (match u.peers[i]? with | some p => p.digest == m.keyDigest | none => false) && m.sigOk

theorem execPairKey_of_peer (henc : m.enc = false) (hcells : m.cells = 5) (hres : m.reserved = false) (hk : m.dstSuite = k.val)
    (hscrub : s.suites[k].st ≠ .scrubbing) (habsent : s.suites[k].st ≠ .absent) (hpeer : s.suites[k].peerIdx m.srcCoord m.srcSuite = some i) :
    let s0 := s.pairKeyCrossed d m
    let s1 := s0.modSuite k fun v => v.setPair i m.keyEpoch
    execPairKey d q m s = if !keyTrusted m s.suites[k] i then .next (s0.modSuite k fun v => { v with pairs := v.pairs.filter fun p => p.peer != i })
      else .next (if s.suites[k].pairs.any fun p => p.peer == i && p.epoch != m.keyEpoch then
        s1.suiteEvent k 0x193 0xFF 0 (pack ([(1, 1), (3, 0), (2, m.keyEpoch), (2, 0)] ++ coordFields m.srcCoord ++ [(4, 0)])) else s1) := by
  have hfin : fin8 m.dstSuite = k := by rw [hk]; exact Fin.ofNat_val_eq_self k
  subst hfin
  intro s0 s1
  have hwf : ¬(m.enc = true ∨ m.cells ≠ 5 ∨ m.reserved = true) := by
    rw [henc, hres, hcells]
    decide
  have hlt : ¬8 ≤ m.dstSuite := by
    have := (fin8 m.dstSuite).isLt
    omega
  have hsuite : s0.suites[fin8 m.dstSuite] = s.suites[fin8 m.dstSuite] := by rw [s.pairKeyCrossed_suites d m]
  rw [← hsuite] at hscrub habsent hpeer ⊢
  refine (if_neg hwf).trans ((if_neg hlt).trans ((if_neg fun h => h.elim hscrub habsent).trans ?_))
  simp only [s0, State.pairKeyCrossed] at hpeer
  simp only [hpeer]
  rfl

end

/-- Settles O48: each command by the branch that its hypotheses choose. -/
theorem pairKeysAndTimeSync : Obligations.PairKeysAndTimeSync := by
  refine ⟨fun d q m k i p s => ?_, fun d q cell phase s => ⟨fun hparent => if_pos hparent,
    fun hres => congrArg Host.Outcome.next (if_pos hres), fun hres => ?_⟩⟩
  · intro u s0 good s1 e co
    refine ⟨fun hbad => if_pos hbad, fun henc hcells hres hk hscrub habsent hpeer => ?_, fun hp => ⟨fun hfew => ?_, fun hmany => ?_⟩, rfl⟩
    · have hexec := execPairKey_of_peer (d := d) (q := q) henc hcells hres hk hscrub habsent hpeer
      refine ⟨fun hbad => hexec.trans (if_pos ?_), fun hgood => hexec.trans (if_neg ?_)⟩
      · rw [Bool.not_eq_true']
        exact hbad
      · rw [Bool.not_eq_true', Bool.not_eq_false]
        exact hgood
    · simp only [u] at hp
      simp only [exec, execPairKeyRotation, hp]
      exact if_pos hfew
    · simp only [u] at hp
      simp only [exec, execPairKeyRotation, hp]
      exact if_neg (Nat.not_lt.mpr hmany)
  · intro now s1 mine
    have hkept : ¬cell.reserved = true := ne_true_of_eq_false hres
    refine ⟨fun hreq => congrArg Host.Outcome.next ((if_neg hkept).trans (if_pos ?_)),
      fun hrep hnot => congrArg Host.Outcome.next ((if_neg hkept).trans ((if_neg ?_).trans (if_pos ?_))), fun hrep hmine => ?_⟩
    · rw [hreq]
      rfl
    · rw [hrep]
      exact Bool.false_ne_true
    · simp only [mine] at hnot
      tauto
    · obtain ⟨ht1, hparent, hsync⟩ := hmine
      intro off xs s2
      refine congrArg Host.Outcome.next ((if_neg hkept).trans ((if_neg ?_).trans (if_neg ?_)))
      · rw [hrep]
        exact Bool.false_ne_true
      · exact fun h => h.elim (fun h => h ht1) fun h => h.elim (fun h => h hparent) hsync

end Sys2Proof.Machine
end

section
/-! Resets, power-off and the stages of start-up (R329 to R333, R349 to R351, R377, R397, R399, R404). -/

namespace Sys2Proof.Machine

/-- Settles O49: each command by its condition; a cold reset starts from `State.fresh`, which is the reset state but for what is kept. -/
theorem resetAndPowerCommands : Obligations.ResetAndPowerCommands := by
  refine ⟨fun straps n mv us trip off s => ⟨rfl, fun hlong hon => if_neg ?_, fun hshort => if_pos (.inl hshort), fun hon => if_pos (.inl hon),
    fun hmv hus => if_pos ⟨hmv, hus⟩, fun hno => if_neg hno, fun hmv hon => if_pos ⟨hmv, hon⟩, fun hon => if_pos hon⟩, fun straps s t hexec => ?_⟩
  · exact fun h => h.elim (Nat.not_lt.mpr hlong) fun h => h hon
  · obtain rfl := Host.Outcome.next.inj hexec
    have hsuite : ∀ k : Fin 8, State.reset.suites[k] = Suite.reset := fun k => Vector.getElem_replicate ..
    exact ⟨rfl, rfl, rfl, rfl, rfl, rfl, rfl, rfl, fun k => ⟨congrArg Suite.tasks (hsuite k), congrArg Suite.key (hsuite k)⟩⟩

/-! ### The stages -/

section
variable {s : State} {failed : List Nat}

/-- Whether a class does not start in stage 0x2: its image failed, or its slot holds no valid one once TRIAL classes have fallen back (R349, R350). -/
def State.badClass (s : State) (failed : List Nat) (c : Nat) : Bool :=
  failed.contains c ||
    !(match ([2, 3, 4, 5].foldl (fun t c => t.trialFallback c) s).fwRun c with
      | some x => ([2, 3, 4, 5].foldl (fun t c => t.trialFallback c) s).fwValid c x
      | none => false)

/-- The state in which stage 0x2 has counted the failed starts (R349). -/
def State.startsCounted (s : State) (failed : List Nat) : State :=
  (([2, 3, 4, 5].foldl (fun t c => t.trialFallback c) s).setStatus fun x =>
    { x with failedStarts := (List.range 5).map fun i => if s.badClass failed (i + 1) then x.failedStarts.getD i 0 + 1 else 0 }).loadFwState

theorem execStageFirmware_of_stage (hst : s.mgt.stage = .firmware) : execStageFirmware failed s =
    .next (if s.badClass failed 1 then (s.startsCounted failed).setStage .recovery
      else if [2, 3, 4, 5].any (s.badClass failed) then (s.startsCounted failed).setStage .maintenance
      else (s.startsCounted failed).setStage .primer) :=
  if_neg fun h => h hst

theorem execStageFirmware_recovery (hst : s.mgt.stage = .firmware) (hbad : s.badClass failed 1 = true) :
    execStageFirmware failed s = .next ((s.startsCounted failed).setStage .recovery) := by
  rw [execStageFirmware_of_stage hst, if_pos hbad]

theorem execStageFirmware_maintenance (hst : s.mgt.stage = .firmware) (hone : s.badClass failed 1 = false)
    (hbad : (s.badClass failed 2 || s.badClass failed 3 || s.badClass failed 4 || s.badClass failed 5) = true) :
    execStageFirmware failed s = .next ((s.startsCounted failed).setStage .maintenance) := by
  have hany : [2, 3, 4, 5].any (s.badClass failed) = true := by simpa [or_assoc] using hbad
  rw [execStageFirmware_of_stage hst, if_neg (ne_true_of_eq_false hone), if_pos hany]

theorem execStageFirmware_primer (hst : s.mgt.stage = .firmware)
    (hok : (s.badClass failed 1 || s.badClass failed 2 || s.badClass failed 3 || s.badClass failed 4 || s.badClass failed 5) = false) :
    execStageFirmware failed s = .next ((s.startsCounted failed).setStage .primer) := by
  simp only [Bool.or_eq_false_iff, and_assoc] at hok
  obtain ⟨hone, htwo, hthree, hfour, hfive⟩ := hok
  have hany : ¬[2, 3, 4, 5].any (s.badClass failed) = true := by simp [htwo, hthree, hfour, hfive]
  rw [execStageFirmware_of_stage hst, if_neg (ne_true_of_eq_false hone), if_neg hany]

end

section
variable {s : State} {badA badB : Bool}

/-- The valid, trusted primer image of a slot that can be read (R332, R333). -/
def State.goodPrimer (s : State) (badA badB b : Bool) : Option Primer :=
  (if (if b then badB else badA) then none else if b then s.flash.primerB else s.flash.primerA).filter fun p =>
    s.primerForm p && s.primerTrusted p s.ownerDigest

theorem execStagePrimer_first {p : Primer} (hst : s.mgt.stage = .primer) (hgood : s.goodPrimer badA badB s.flash.status.primerB = some p) :
    execStagePrimer badA badB s = .next (((s.modMgt fun m => { m with primerSlotB := s.flash.status.primerB }).applyPrimer p).setStage .memory) := by
  simp only [State.goodPrimer] at hgood
  refine (if_neg fun h => h hst).trans ?_
  simp only [hgood]

theorem execStagePrimer_other {p : Primer} (hst : s.mgt.stage = .primer) (hfirst : s.goodPrimer badA badB s.flash.status.primerB = none)
    (hgood : s.goodPrimer badA badB (!s.flash.status.primerB) = some p) : execStagePrimer badA badB s =
      .next (((s.modMgt fun m => { m with primerSlotB := !s.flash.status.primerB, primerFallback := true }).applyPrimer p).setStage .memory) := by
  simp only [State.goodPrimer] at hfirst hgood
  refine (if_neg fun h => h hst).trans ?_
  simp only [hfirst, hgood]

theorem execStagePrimer_none (hst : s.mgt.stage = .primer) (hfirst : s.goodPrimer badA badB s.flash.status.primerB = none)
    (hother : s.goodPrimer badA badB (!s.flash.status.primerB) = none) :
    execStagePrimer badA badB s = .next ((s.modMgt fun m => { m with primerFallback := true }).setStage .maintenance) := by
  simp only [State.goodPrimer] at hfirst hother
  refine (if_neg fun h => h hst).trans ?_
  simp only [hfirst, hother]

/-- Stage 0x6 ends once every scrub has and module time is LOCKED or its own root (R331). -/
theorem execReady_of_done (hst : s.mgt.stage = .scrubTime) (hscrub : (s.suites.toList.any fun u => u.st == .scrubbing) = false)
    (htime : s.clk.root = true ∨ s.clk.syncState = .locked) : execReady s = .next (s.setStage .ready) := by
  refine if_pos ⟨hst, ?_, htime⟩
  rw [hscrub]
  rfl

end

/-- The record applied to a stack of a die (R377). -/
theorem State.loadStacks_stack (s : State) (d : Fin 8) (i : Fin 12) :
    (s.loadStacks d).stack d i = (s.stack d i).fromRecord (((s.recorded 1 d).filter fun n => n / 64 == i.val).map (· % 64)) := by
  simp only [State.loadStacks, State.stack, State.modDie_self]
  exact Vector.getElem_ofFn ..

/-- The roles of a die's panels from its fuses and the record (R11, R377). -/
theorem State.loadPanels_role (s : State) (d : Fin 8) (p : Fin 104) : ((s.loadPanels d).panel d p).role =
    (((s.flash.status.retired.filter fun e => e.kind == 0 && e.die == d.val).map fun e => e.index).foldl retireRole
      (fuseRoles ((s.fuses.fusedOff.filter fun x => x.1 == d.val).map fun x => x.2))).getD p.val .fusedOff := by
  simp only [State.loadPanels, State.panel, State.modDie_self]
  exact congrArg Panel.role (Vector.getElem_ofFn ..)

theorem State.failDie_inService (s : State) (d : Fin 8) : (s.failDie d).dies[d].inService = false := by
  change ((s.modMgt fun m => { m with failed := m.failed ||| (1 <<< d.val) }).modDie d fun x => { x with inService := false }).dies[d].inService = false
  rw [State.modDie_self]

/-- Settles O50: each stage in its order, by the images, dies and panels that start. -/
theorem startUpStages : Obligations.StartUpStages := by
  refine ⟨fun pll serdes absent badA badB failed s => ⟨fun hst hon => ?_, fun hst => ?_, fun hst => ?_⟩,
    fun dies pcs groups panels s => ?_, fun d i p s _ => ⟨s.loadStacks_stack d i, s.loadPanels_role d p, s.failDie_inService d⟩⟩
  · have hrun : ¬(s.mgt.stage ≠ .rom ∨ s.power.phase ≠ .on) := fun h => h.elim (fun h => h hst) fun h => h hon
    intro on s1 s3 ok
    refine ⟨fun hok => (if_neg hrun).trans (if_pos hok), fun hbad hok => (if_neg hrun).trans ((if_neg (ne_true_of_eq_false hbad)).trans (if_pos hok)),
      fun hbad hother => (if_neg hrun).trans ((if_neg (ne_true_of_eq_false hbad)).trans (if_neg (ne_true_of_eq_false hother)))⟩
  · intro s1 bad s3
    have hbads : bad = s.badClass failed := rfl
    have hs3 : s3 = s.startsCounted failed := rfl
    clear_value bad s3
    subst hbads hs3
    exact ⟨fun hbad => execStageFirmware_recovery hst hbad, fun hone hbad => execStageFirmware_maintenance hst hone hbad,
      fun hok => execStageFirmware_primer hst hok⟩
  · intro slot good first
    exact ⟨fun p hp => execStagePrimer_first hst hp, fun p hno hp => execStagePrimer_other hst hno hp, fun hno hno' => execStagePrimer_none hst hno hno'⟩
  · intro ds
    refine ⟨fun hst hvin => ?_, fun hst => ?_, fun hst => if_neg fun h => h hst, fun hst hscrub htime => execReady_of_done hst hscrub htime⟩
    · intro s2 s3 s4
      refine if_neg fun h => h.elim (fun h => h hst) ?_
      rw [hvin]
      exact Bool.false_ne_true
    · intro s1 of s2 s3
      exact if_neg fun h => h hst

end Sys2Proof.Machine
end

section
/-! Firmware staging, activation and confirmation (R337 to R348, R353). -/

namespace Sys2Proof.Machine

section
variable {s u : State} {fn : Fin 9} {code : Nat} {f : State → State}

/-- A mailbox command that is taken answers with its effect on the state in which it has started. -/
theorem State.next_command (h : s.Accepts fn code) (hu : f (s.started fn code) = u) : (.next (s.command fn code f) : Out) = .next u := by
  rw [State.command_of_accepts f h, hu]

end

/-! ### Staging (R337 to R340, R353) -/

theorem not_busy_of_idle_or_staged {x : FwState} (h : x = .idle ∨ x = .staged) : ¬(x ≠ .idle ∧ x ≠ .staged) :=
  fun hno => h.elim hno.1 hno.2

/-- Settles O56: FW_STAGE by the checks of the package, FW_UNSTAGE of a staged class. -/
theorem firmwareStaging : Obligations.FirmwareStaging := by
  refine fun fn img cls s => ⟨fun hacc => ?_, fun hacc => ?_⟩
  · intro t slot t1 t2 hstate
    have hopen : ¬(t.mgt.fwState ≠ .idle ∧ t.mgt.fwState ≠ .staged) := not_busy_of_idle_or_staged hstate
    have hform : ∀ b : Bool, b = true → ¬(!b) = true := fun b hb => by simp [hb]
    refine ⟨fun hbad => State.next_command hacc ?_, fun hok hbad => State.next_command hacc ?_, fun hok htrust horder => State.next_command hacc ?_⟩
    · refine (if_neg hopen).trans (if_pos ?_)
      rw [hbad]
      rfl
    · refine (if_neg hopen).trans ((if_neg (hform _ hok)).trans (if_pos ?_))
      rw [hbad]
      rfl
    · refine (if_neg hopen).trans ((if_neg (hform _ hok)).trans ((if_neg (hform _ htrust)).trans (if_neg ?_)))
      exact fun h => hform _ (horder h.1) h.2
  · intro t t1 hstate hlow hhigh hstaged
    refine State.next_command hacc ((if_neg fun h => h hstate).trans (if_neg ?_))
    rintro (h | h | h)
    · omega
    · omega
    · rw [hstaged] at h
      exact Bool.false_ne_true h

/-! ### Activation (R339 to R343, R348) -/

section
variable {t : State} {fn : Fin 9} {p : Primer} {revert : Bool}

theorem State.mayActivate_of_staged {f : State → State} (h : t.mgt.fwState = .staged) : t.mayActivate fn f = f t := by
  unfold State.mayActivate
  rw [h]

theorem State.arm_of_allowed {time : Nat} (hp : t.primer = some p) (hen : p.scheduledEn = true) (hlead : t.clk.time + armLead ≤ time)
    (htime : time < 2 ^ 64) (hwin : t.windowsHold revert = true) : t.arm fn revert time =
      ((t.modMgt fun m => { m with fwMode := 0, fwRevert := revert, fwTime := BitVec.ofNat 64 time }).setFwState .armed).mbxEnd fn .done [] := by
  have hmay : ¬(!(match t.primer with | some p => p.scheduledEn | none => false)) = true := by simp [hp, hen]
  refine (if_neg hmay).trans (if_neg ?_)
  rw [hwin]
  rintro (h | h | h)
  · omega
  · omega
  · exact Bool.false_ne_true h

theorem State.startHitless_of_allowed (hp : t.primer = some p) (hen : p.hitlessEn = true) (hwin : t.windowsHold revert = true) :
    t.startHitless fn revert =
      let u := (t.modMgt fun m => { m with fwMode := 1, fwRevert := revert, fwSwitched := [] }).setFwState .switching
      (u.nextClass revert (u.moving revert)).mbxEnd fn .done [] := by
  have hmay : ¬(!(match t.primer with | some p => p.hitlessEn | none => false)) = true := by simp [hp, hen]
  refine (if_neg hmay).trans (if_neg ?_)
  rw [hwin]
  exact Bool.false_ne_true

end

/-- Settles O57: both activations on a staged update, the reverts on a TRIAL one, and what follows at the time or at each handover. -/
theorem firmwareActivation : Obligations.FirmwareActivation := by
  refine ⟨fun fn time s => ⟨fun hacc => ?_, fun hacc => ?_, fun harmed hdue => ?_⟩, fun proc s => ?_⟩
  · intro t
    refine ⟨State.next_command hacc rfl, State.next_command hacc rfl, fun p hstaged hp hwin => ⟨fun hen hlead htime => ?_, fun hen => ?_⟩⟩
    · exact State.next_command hacc ((State.mayActivate_of_staged hstaged).trans (State.arm_of_allowed hp hen hlead htime hwin))
    · exact State.next_command hacc ((State.mayActivate_of_staged hstaged).trans (State.startHitless_of_allowed hp hen hwin))
  · intro t htrial hsome
    have hopen : ¬(t.mgt.fwState ≠ .trial ∨ (classesOf t.flash.status.trial).isEmpty = true) := by
      rw [List.isEmpty_iff]
      exact fun h => h.elim (fun h => h htrial) hsome
    exact ⟨State.next_command hacc (if_neg hopen), State.next_command hacc (if_neg hopen), fun p hp hen hlead htime hwin =>
      State.next_command hacc ((if_neg hopen).trans (State.arm_of_allowed hp hen hlead htime hwin))⟩
  · intro s1
    have hrun : ¬(s.mgt.fwState ≠ .armed ∨ s.clk.time < s.mgt.fwTime.toNat) :=
      fun h => h.elim (fun h => h harmed) (Nat.not_lt.mpr hdue)
    exact ⟨fun hbusy => (if_neg hrun).trans (if_pos hbusy), fun hidle => (if_neg hrun).trans (if_neg (ne_true_of_eq_false hidle))⟩
  · intro s1 s2
    refine ⟨fun hturn hidle => if_neg ?_, fun hclass hruns => if_pos (.inr ⟨hclass, hruns⟩), fun hst hpend => if_neg ?_⟩
    · rintro (⟨hone, hnot⟩ | ⟨htwo, hruns⟩)
      · exact hnot (hturn hone)
      · rw [hidle htwo] at hruns
        exact Bool.false_ne_true hruns
    · rintro (h | h)
      · exact h hst
      · rw [hpend] at h
        exact Bool.false_ne_true h

/-! ### A running image with a security version above 64 (R338, R347) -/

/-- A Pyrhoax image whose SECVER is 65, above what a rollback counter can hold. -/
def imageAbove64 : FwImage :=
  { magic := 0x46574C43, cls := 1, ownerSigned := false, iface := 0, version := 0, secver := 65, schema := 0, window := [], primerWin := (0, 0),
    digest := [], reservedZero := true, vendorOk := true, ownerOk := true, tagOk := true, digestOk := true }

/-- A READY module that runs this image in TRIAL. -/
def trialAbove64 : State :=
  { State.reset with
    mgt := { State.reset.mgt with stage := .ready, fwState := .trial }
    flash := { State.reset.flash with
      status := { State.reset.flash.status with trial := [true, false, false, false, false] }
      fwA := [some imageAbove64, none, none, none, none] } }

/-- A primer image with no section. -/
def emptyPrimer : Primer :=
  { magic := 0x50524C43, schema := 0, secver := 1, length := 0, ownerDigest := [], bodyOk := true, sigOk := true, sectionsOk := true, layout := none,
    ledEn := false, topology := none, power := none, policy := none, ownerCosign := false, hitlessEn := false, scheduledEn := false, digest := [] }

theorem trialAbove64_accepts : trialAbove64.Accepts 0 0x32 := ⟨rfl, rfl, rfl⟩

/-- Refutes O58: FW_CONFIRM of class 1's image with SECVER 65 leaves its rollback counter at 64, the most that the fuses hold, below 65. -/
theorem not_confirmPrimerAndRecovery : ¬Obligations.ConfirmPrimerAndRecovery := by
  intro h
  obtain ⟨hconfirm, -⟩ := h 0 imageAbove64 emptyPrimer none 0 false trialAbove64
  obtain ⟨u, hexec, -, -, -, hraised⟩ := hconfirm trialAbove64_accepts (.inl rfl) rfl
  have hrollback : u.fuses.rollback.getD 0 0 = 64 := by
    rw [← Host.Outcome.next.inj hexec]
    rfl
  have hle := hraised 1 (by decide) imageAbove64 rfl (by decide)
  rw [hrollback] at hle
  exact absurd hle (by decide)

end Sys2Proof.Machine
end

section
/-! Mailbox commands, PROVISION and UNWRAP (R305, R306, R313 to R316, R367, R368, R371). -/

namespace Sys2Proof.Machine

/-! ### What the start of a mailbox command leaves -/

section
variable (s : State) (fn : Fin 9) (code : Nat)

theorem State.modMailbox_fuses (f : Mailbox → Mailbox) : (s.modMailbox fn f).fuses = s.fuses := by
  unfold State.modMailbox
  split <;> rfl

theorem State.modMailbox_layout (f : Mailbox → Mailbox) : (s.modMailbox fn f).layout = s.layout := by
  unfold State.modMailbox
  split <;> rfl

theorem State.mbxBegin_fuses (c : BitVec 8) : (s.mbxBegin fn c).fuses = s.fuses := by
  unfold State.mbxBegin
  split
  · exact State.modMailbox_fuses _ _ _
  · exact State.modMailbox_fuses _ _ _

theorem State.mbxBegin_layout (c : BitVec 8) : (s.mbxBegin fn c).layout = s.layout := by
  unfold State.mbxBegin
  split
  · exact State.modMailbox_layout _ _ _
  · exact State.modMailbox_layout _ _ _

theorem State.mbxProgress_fuses : (s.mbxProgress fn code).fuses = s.fuses := by
  unfold State.mbxProgress
  split
  · exact State.modMailbox_fuses _ _ _
  · rfl

theorem State.mbxProgress_layout : (s.mbxProgress fn code).layout = s.layout := by
  unfold State.mbxProgress
  split
  · exact State.modMailbox_layout _ _ _
  · rfl

theorem State.started_fuses : (s.started fn code).fuses = s.fuses := by
  rw [State.started, State.mbxProgress_fuses, State.modMailbox_fuses, State.mbxBegin_fuses]

theorem State.started_layout : (s.started fn code).layout = s.layout := by
  rw [State.started, State.mbxProgress_layout, State.modMailbox_layout, State.mbxBegin_layout]

end

/-! ### Commands and records (R306, R313, R367, R368) -/

section
variable {s : State} {fn : Fin 9} {k : Fin 8}

theorem execMailboxUndefinedCommand_of_idle {code : BitVec 8} (hkind : s.mbxKind fn = none) (hidle : (s.mailbox fn).busy = false) :
    execMailboxUndefinedCommand fn code s = .next (if code.toNat ∈ mbxCodes then s.mbxBegin fn code
      else ((s.mbxBegin fn code).modMailbox fn fun x => { x with begun := true }).mbxEnd fn .formatError []) := by
  unfold execMailboxUndefinedCommand State.writeCmd
  rw [hkind]
  exact congrArg Host.Outcome.next (if_neg (ne_true_of_eq_false hidle))

/-- A command that ends writes its results and its status, counts, clears BUSY and raises its vector (R367). -/
theorem execMailboxCompletion_of_outcome {st : Nat} {rs : List Word} (hbusy : (s.mailbox fn).busy = true) (hend : (s.mailbox fn).outcome = some (st, rs)) :
    execMailboxCompletion fn s = .next ((s.modMailbox fn fun y =>
      { y with results := putResults y.results rs, status := BitVec.ofNat 8 st, seq := y.seq + 1, busy := false, begun := false,
               outcome := none }).raise fn (if fn.val = 0 then 1 else 2)) := by
  simp only [execMailboxCompletion, hbusy, hend]

theorem execIdentify_of_accepts (hacc : s.Accepts fn 0x01) : execIdentify fn s =
    .next ((s.started fn 0x01).mbxEnd fn .done [s.moduleId, loWord s.fuses.serial.toNat, hiWord s.fuses.serial.toNat, s.layoutWord]) := by
  refine State.next_command hacc ?_
  simp only [State.moduleId, State.layoutWord, State.started_fuses, State.started_layout]

/-- A command of a suite that is taken acts on it where it is neither ABSENT nor SCRUBBING (R368). -/
theorem State.next_onSuite {code : Nat} {f : State → Fin 8 → State} {u : State} (hacc : s.Accepts fn code)
    (habsent : (s.started fn code).suites[k].st ≠ .absent) (hscrub : (s.started fn code).suites[k].st ≠ .scrubbing)
    (hu : f (s.started fn code) k = u) : (.next (s.command fn code fun t => t.onSuite fn k (f t)) : Out) = .next u :=
  State.next_command hacc ((State.onSuite_of_present fn _ habsent hscrub).trans hu)

end

theorem not_badKeys {keys : List (List Byte)} (hsome : keys ≠ []) (hfew : keys.length ≤ 64) (hlen : ∀ x ∈ keys, x.length = 97) :
    ¬(keys.isEmpty = true ∨ 64 < keys.length ∨ (keys.any fun x => x.length != 97) = true) := by
  rw [List.isEmpty_iff]
  rintro (h | h | h)
  · exact hsome h
  · omega
  · obtain ⟨x, hx, hne⟩ := List.any_eq_true.mp h
    simp [hlen x hx] at hne

/-- Settles O53: each command by what it carries and what is in force. -/
theorem mailboxAndProvision : Obligations.MailboxAndProvision := by
  refine ⟨fun fn code st rs owner vendor key s => ⟨fun hkind hidle => ?_, fun hbusy hend => execMailboxCompletion_of_outcome hbusy hend,
    fun hacc => execIdentify_of_accepts hacc, fun hacc => ?_⟩, fun fn k keys es r s => ⟨fun hacc => ?_, fun hacc => ?_⟩⟩
  · have hexec := execMailboxUndefinedCommand_of_idle (code := code) hkind hidle
    exact ⟨fun hdef => hexec.trans (congrArg _ (if_pos hdef)), fun hundef => hexec.trans (congrArg _ (if_neg hundef))⟩
  · intro t
    refine ⟨fun howner hvendor hkey => State.next_command hacc (if_pos ?_), fun hno => State.next_command hacc (if_neg ?_)⟩
    · simp [howner, hvendor, hkey, t]
    · simpa [t, and_assoc] using hno
  · intro t habsent hscrub
    refine ⟨State.next_onSuite hacc habsent hscrub (if_pos rfl), fun hsome hfew hlen => ?_, fun hfew => ?_⟩
    · intro b held
      have hform := not_badKeys hsome hfew hlen
      have hsigned : ¬(!true) = true := Bool.false_ne_true
      refine ⟨fun hno => ?_, fun hown hnew hroom => ?_, fun hown hnew hfull => ?_⟩
      · refine State.next_onSuite hacc habsent hscrub ((if_neg hsigned).trans ((if_neg hform).trans (if_pos ?_)))
        rw [Bool.not_eq_true']
        exact hno
      · refine State.next_onSuite hacc habsent hscrub ((if_neg hsigned).trans ((if_neg hform).trans ((if_neg ?_).trans (if_neg (Nat.not_le.mpr hroom)))))
        rw [Bool.not_eq_true', not_or, Bool.not_eq_false]
        exact ⟨hown, ne_true_of_eq_false hnew⟩
      · refine State.next_onSuite hacc habsent hscrub ((if_neg hsigned).trans ((if_neg hform).trans ((if_neg ?_).trans (if_pos hfull))))
        rw [Bool.not_eq_true', not_or, Bool.not_eq_false]
        exact ⟨hown, ne_true_of_eq_false hnew⟩
    · intro new
      exact State.next_onSuite hacc habsent hscrub ((if_neg Bool.false_ne_true).trans (if_neg (Nat.not_lt.mpr hfew)))
  · intro t habsent hscrub
    exact State.next_onSuite hacc habsent hscrub rfl

/-! ### UNWRAP (R313 to R316) -/

/-- The refusals of UNWRAP in its order, one by one, and as the failure of one check (R315). -/
theorem refused_iff {a b c d e : Bool} {n : Nat} :
    ((!a) = true ∨ (!b) = true ∨ (!c) = true ∨ (!d) = true ∨ 1024 < n ∨ (!e) = true) ↔ (a && b && c && d && decide (n ≤ 1024) && e) = false := by
  simp only [Bool.not_eq_true', Bool.and_eq_false_iff, decide_eq_false_iff_not, Nat.not_le, or_assoc]

/-- Settles O54: UNWRAP by the checks of the header, of the trust in it, and of the chunks. -/
theorem unwrapBindsATensor : Obligations.UnwrapBindsATensor := by
  intro fn k tensor pkg x s hacc t habsent hscrub hx rs bs trusted n
  simp only [t] at hx
  have hheader : packageOk pkg = true → ¬(!packageOk pkg) = true := fun h => by simp [h]
  have htrusted : trusted = true → ¬trusted = false := fun h => by simp [h]
  refine ⟨fun hbad => ?_, fun hok hno => ?_, fun hok htrust hpart => ?_, fun hok htrust hwhole => ?_⟩
  · refine State.next_onSuite hacc habsent hscrub ?_
    simp only [hx]
    refine if_pos ?_
    rw [hbad]
    rfl
  · refine State.next_onSuite hacc habsent hscrub ?_
    simp only [hx]
    exact (if_neg (hheader hok)).trans (if_pos (refused_iff.mpr hno))
  · refine State.next_onSuite hacc habsent hscrub ?_
    simp only [hx, hpart]
    exact (if_neg (hheader hok)).trans (if_neg fun h => htrusted htrust (refused_iff.mp h))
  · intro e
    refine State.next_onSuite hacc habsent hscrub ?_
    simp only [hx, hwhole]
    exact (if_neg (hheader hok)).trans (if_neg fun h => htrusted htrust (refused_iff.mp h))

end Sys2Proof.Machine
end

section
/-! The retirement record, temperatures, the power controller, SMBus, the TAPs and SPDM (R309, R311, R356, R369 to R371, R388 to R392, R399 to
R403). -/

namespace Sys2Proof.Machine

/-! ### Throttling (R399, R400, R411) -/

/-- Applying the bounds changes the factors, the count of changes and the alert bits only. -/
theorem State.throttle_spec (s : State) :
    ∃ clk n b, s.throttle = { s with clk := clk, power := { s.power with throtCnt := n }, smbus := b } := by
  obtain ⟨clk, n, happly⟩ : ∃ clk n, s.applyK true = { s with clk := clk, power := { s.power with throtCnt := n } } := by
    unfold State.applyK
    split
    · exact ⟨s.clk, s.power.throtCnt, rfl⟩
    · exact ⟨_, _, rfl⟩
  unfold State.throttle State.alert
  rw [happly]
  dsimp only
  split
  · exact ⟨clk, n, s.smbus, rfl⟩
  · exact ⟨clk, n, _, rfl⟩

/-! ### Temperatures (R192, R399) -/

/-- A stack at its sensor's temperature, in °C (R192). -/
def Stack.heated (x : Stack) (now temp : Nat) : Stack := { x.settleC0 now with temp := temp, refresh2x := decide (85 < temp) }

/-- The populated dies with each stack at its sensor's temperature. -/
def State.heated (s : State) (ts : List (List Nat)) : State :=
  ((List.finRange 8).filter fun (d : Fin 8) => s.populated d).foldl (fun t d => t.modDie d fun x =>
    { x with stks := Vector.ofFn fun (i : Fin 12) => x.stks[i].heated s.clk.time ((ts.getD d.val []).getD i.val 0) }) s

theorem State.foldl_modDie_at {d : Fin 8} {l : List (Fin 8)} (f : Fin 8 → Die → Die) (s : State) (hl : l.Nodup) (h : d ∈ l) :
    (l.foldl (fun t e => t.modDie e (f e)) s).dies[d] = f d s.dies[d] := by
  have hrest : ∀ (l : List (Fin 8)) (s : State), d ∉ l → (l.foldl (fun t e => t.modDie e (f e)) s).dies[d] = s.dies[d] := by
    intro l
    induction l with
    | nil => exact fun _ _ => rfl
    | cons e l ih =>
      intro s hd
      obtain ⟨hne, hl⟩ := not_or.mp (List.mem_cons.not.mp hd)
      rw [List.foldl_cons, ih (s.modDie e (f e)) hl, s.modDie_other d e (f e) hne]
  induction l generalizing s with
  | nil => cases h
  | cons e l ih =>
    obtain ⟨he, hl⟩ := List.nodup_cons.mp hl
    rw [List.foldl_cons]
    obtain rfl | hd := List.mem_cons.mp h
    · rw [hrest l _ he, s.modDie_self]
    · rw [ih (s.modDie e (f e)) hl hd, s.modDie_other d e (f e) (ne_of_mem_of_not_mem hd he)]

theorem State.heated_stack {s : State} (ts : List (List Nat)) {d : Fin 8} (hd : s.populated d = true) (i : Fin 12) :
    (s.heated ts).stack d i = (s.stack d i).heated s.clk.time ((ts.getD d.val []).getD i.val 0) := by
  have hmem : d ∈ (List.finRange 8).filter fun (d : Fin 8) => s.populated d := List.mem_filter.mpr ⟨List.mem_finRange d, hd⟩
  have hnodup : ((List.finRange 8).filter fun (d : Fin 8) => s.populated d).Nodup := (List.nodup_finRange 8).filter _
  rw [State.stack, State.heated, State.foldl_modDie_at (fun d x =>
    { x with stks := Vector.ofFn fun (i : Fin 12) => x.stks[i].heated s.clk.time ((ts.getD d.val []).getD i.val 0) }) s hnodup hmem]
  exact Vector.getElem_ofFn ..

section
variable {s : State} {js : List Nat} {ts : List (List Nat)}

/-- Whether a sensor of a die is at 108 °C. -/
def trips (js : List Nat) (ts : List (List Nat)) (d : Fin 8) : Bool :=
  decide (108 ≤ js.getD d.val 0) || (ts.getD d.val []).any fun t => decide (108 ≤ t)

theorem execThermalTick_of_trip {d : Fin 8} (hon : s.power.phase = .on) (hd : s.populated d = true) (hhot : trips js ts d = true) :
    execThermalTick js ts s = .next s.trip :=
  (if_neg fun h => h hon).trans (if_pos (List.any_eq_true.mpr ⟨d, List.mem_filter.mpr ⟨List.mem_finRange d, hd⟩, hhot⟩))

/-- The thermal bounds of the dies after 1 ms (R399). -/
def State.thermalBounds (s : State) (js : List Nat) : Vector Nat 8 :=
  Vector.ofFn fun (d : Fin 8) => if s.populated d then thermalK s.power.kTherm[d] (s.kLeast d) (js.getD d.val 0) else 32

theorem execThermalTick_of_cool (hon : s.power.phase = .on) (hcool : ∀ d : Fin 8, s.populated d = true → trips js ts d = false) :
    ∃ u : State, execThermalTick js ts s = .next u.throttle ∧ u.dies = (s.heated ts).dies ∧ u.power.kTherm = s.thermalBounds js := by
  have hnone : ¬((List.finRange 8).filter fun (d : Fin 8) => s.populated d).any (trips js ts) = true := by
    intro h
    obtain ⟨d, hd, hhot⟩ := List.any_eq_true.mp h
    rw [hcool d (List.mem_filter.mp hd).2] at hhot
    exact Bool.false_ne_true hhot
  refine ⟨_, (if_neg fun h => h hon).trans (if_neg hnone), ?_, ?_⟩
  · dsimp only
    split <;> rfl
  · dsimp only
    split <;> rfl

/-- The readings of a power tick are the registers' values (R402, R411). -/
theorem execPowerControlTick_of_on (r : PowerReading) (hon : s.power.phase = .on) : ∃ p : Power,
    execPowerControlTick r s = .next ({ s with power := p } : State).throttle ∧ p.vin = reading r.vin ∧ p.iin = reading r.iin ∧
      p.moduleW = reading r.moduleDraw ∧ p.holdup = decide (46000 ≤ r.vin) :=
  ⟨_, if_neg fun h => h hon, rfl, rfl, rfl, rfl⟩

end

theorem execRetirementRecordWrite_cons {s : State} {e : RetEntry} {es : List RetEntry} (h : s.hlt.pendingRecs = e :: es) :
    let t := { s with hlt := { s.hlt with pendingRecs := es } }
    execRetirementRecordWrite s =
      .next (if 4096 ≤ t.flash.status.retired.length then t else t.setStatus fun x => { x with retired := x.retired ++ [e] }) := by
  simp only [execRetirementRecordWrite, h]

theorem execRetirementRecordWrite_nil {s : State} (h : s.hlt.pendingRecs = []) : execRetirementRecordWrite s = .next s := by
  simp only [execRetirementRecordWrite, h]

/-- Settles O59: the record, the ageing sample, and the ticks of the thermal and of the power controller. -/
theorem healthThermalAndPower : Obligations.HealthThermalAndPower := by
  refine ⟨fun e es samples others days s => ⟨execRetirementRecordWrite_cons, execRetirementRecordWrite_nil, rfl, rfl⟩, fun js ts r s hon => ?_⟩
  intro hot
  refine ⟨fun ⟨d, hd, hhot⟩ => execThermalTick_of_trip hon hd hhot, fun hcool => ?_, ?_,
    fun hlong => if_neg (Nat.not_lt.mpr hlong), fun hshort => if_pos hshort⟩
  · obtain ⟨u, hexec, hdies, hbounds⟩ := execThermalTick_of_cool hon hcool
    obtain ⟨clk, n, b, hthrottle⟩ := u.throttle_spec
    refine ⟨_, hexec, fun d i hd => ?_⟩
    have hstack : u.throttle.stack d i = (s.stack d i).heated s.clk.time ((ts.getD d.val []).getD i.val 0) := by
      rw [← State.heated_stack ts hd i, hthrottle]
      exact State.stack_of_dies hdies d i
    have hk : u.throttle.power.kTherm = s.thermalBounds js := by rw [hthrottle, ← hbounds]
    refine ⟨congrArg Stack.temp hstack, congrArg Stack.refresh2x hstack, ?_⟩
    rw [hk]
    exact (Vector.getElem_ofFn ..).trans (if_pos hd)
  · obtain ⟨p, hexec, hvin, hiin, hw, hhold⟩ := execPowerControlTick_of_on r hon
    obtain ⟨clk, n, b, hthrottle⟩ := State.throttle_spec { s with power := p }
    rw [hthrottle] at hexec
    exact ⟨_, hexec, hvin, hiin, hw, hhold, rfl, rfl⟩

/-! ### SMBus, the TAPs and SPDM -/

theorem execRespondIfReady_of_deferred {s : State} {fn : Fin 9} {x : Nat × Nat}
    (hx : (s.mgt.deferredSpdm.find? fun y => y.1 == fn.val) = some x) (hready : s.deferred = false) : execRespondIfReady fn s =
      .next ((s.modMgt fun m => { m with deferredSpdm := m.deferredSpdm.filter fun y => y.1 != fn.val }).measure fn x.2) := by
  simp only [execRespondIfReady, hx, hready]
  rfl

theorem execRespondIfReady_of_none {s : State} {fn : Fin 9} (hnone : (s.mgt.deferredSpdm.find? fun y => y.1 == fn.val) = none) :
    execRespondIfReady fn s = .next (s.doeAnswer fn [0x7F, 0x04] []) := by
  simp only [execRespondIfReady, hnone]

/-- Settles O60: each request by its command. -/
theorem serviceInterfaces : Obligations.ServiceInterfaces := by
  refine ⟨fun js v s => ⟨rfl, rfl, rfl, rfl, rfl, rfl, fun pec => ⟨rfl, rfl⟩, rfl, rfl, rfl, rfl⟩,
    fun d cells s => ⟨rfl, rfl, rfl, rfl, rfl, rfl, rfl⟩, fun fn index slot a b nonce x s =>
    ⟨rfl, rfl, rfl, rfl, rfl, rfl, rfl, rfl, fun hready => ?_, fun hdefer => ?_, execRespondIfReady_of_deferred, execRespondIfReady_of_none⟩⟩
  · exact congrArg Host.Outcome.next (if_neg (ne_true_of_eq_false hready))
  · exact congrArg Host.Outcome.next (if_pos hdefer)

end Sys2Proof.Machine
end
